-- ==== Sys2Proof/Word.lean ====
section
/-!
DEFINITION. The words of the device: bytes, register words and addresses, with their plainest arithmetic.
-/
namespace Sys2Proof

/-- One octet of a frame, a string or a value. -/
abbrev Byte := BitVec 8

/-- The content of one dictionary value of at most 64 bits (Table DI-1), zero-extended. -/
abbrev Word := BitVec 64

/-- A PATH_ADDRESS (Table SC-3). -/
abbrev Addr := BitVec 32

/-- The value of a byte as a number. -/
abbrev Byte.nat (b : Byte) : Nat := b.toNat

end Sys2Proof
end

