-- ==== Sys2Proof/Config.lean ====
section
/-!
DEFINITION. What one part fixes and what the manual leaves open: constants with no body, so that no proof can see
their values (assumption log entries 4, 5, 6, 8, 9, 10).
-/
namespace Sys2Proof.Config

/-- A fresh value where the manual states no result: the `n`-th open value of a run. -/
opaque freeBit : Nat → Bool
/-- A fresh word where the manual states no result. -/
opaque freeWord : Nat → Word
/-- A fresh value that a read of the dictionary returns where the manual states none (R18: no output depends on it). -/
opaque readBit : Nat → Bool
opaque readWord : Nat → Word
/-- A fresh value on an output where the manual states none: a function of its place and of how many came before it there, and of
nothing that the host does (R18). -/
opaque outWord : Nat → Nat → Word
/-- The bytes of the `n`-th random draw (nonces and challenges, R424, R433). -/
opaque random : Nat → List Byte
/-- The Orrery wheel that admission compiles from a bank's values, strings and internal numbers for an operating point (R83,
R97): the manual does not publish its coding. -/
opaque wheel : List (Nat × Word) → List (Nat × List Byte) → List (Nat × Nat) → Nat → List Byte
/-- The byte of a bank at an offset from 64 on depends on a placement that R83 does not publish: a function of the bank's values,
strings, internal numbers and wheel, and of the offset. -/
opaque bankByte : List (Nat × Word) → List (Nat × List Byte) → List (Nat × Nat) → List Byte → Nat → Byte
/-- The CRC-32C of R83 over those bytes, where a debugger has put the listed bytes (by offset) in their place. -/
opaque genCrc : List (Nat × Word) → List (Nat × List Byte) → List (Nat × Nat) → List Byte → List (Nat × Byte) → BitVec 32
/-- A byte of SRAM whose placement the manual does not publish (Table AR-5). -/
opaque sramByte : Nat → Byte
/-- A byte where the data path has none to give: a logical lane of OTU3 that no single lane carries (R109 is silent), a container
whose source has not started (log entries 134, 143). By place and number. -/
opaque lostByte : Nat → Nat → Byte
/-- The first of the symbols that FEC_INJECT inverts in a codeword (R172 gives their number only). -/
opaque injectAt : Nat → Nat
/-- SHAKE256 of a byte string, 64 bytes (R355, R422). -/
opaque digest : List Byte → List Byte
/-- Ed448 verification of a message under a key fingerprint (R355, R425, R433). -/
opaque signatureGood : List Byte → List Byte → List Byte → Bool
/-- The Ed448 signature that Saggar puts on an attestation report (R434). -/
opaque sign : List Byte → List Byte
/-- HARDWARE_VERSION, 4 printable characters (Table DI-7). -/
opaque hardwareVersion : List Byte
/-- SOFTWARE_VERSION, 16 printable characters (Table DI-7). -/
opaque softwareVersion : List Byte
/-- IDENTITY revision and serial number (Table DI-7). -/
opaque revision : BitVec 32
opaque serial : BitVec 32
/-- Key material programmed at manufacture: VENDOR_KEY_FP, IDENTITY_KEY (Table SE-9). -/
opaque vendorKeyFp : List Byte
opaque identityKey : List Byte
/-- The fingerprint of a public key (R418). -/
opaque fingerprint : List Byte → List Byte
/-- The levels of TEST_OUT under factory test in Bisque (R447). -/
opaque testOut : Nat → BitVec 8

end Sys2Proof.Config
end

