-- ==== Sys2Proof/Records.lean ====
section
/-!
DEFINITION. The records that the engines keep for a port, a context, a client or a selector (Table AR-5: context state and PM store),
which the state holds and a state copy carries (Table PA-3).
-/
namespace Sys2Proof.Machine

/-! ## Section overhead -/

/-- Reception of a repeated trace: bytes since its start, the previous whole trace as received, the candidate and its
run, and whether one has been accepted since the start (R159, R168, R207). -/
structure TraceRx where
  buf  : List Byte := []
  prev : List Byte := []
  last : List Byte := []
  run  : Nat := 0
  got  : Bool := false
deriving DecidableEq, Repr

/-- Transmission of a trace: the trace in progress, the place in it, and the trace before it (R158, R160). -/
structure TraceTx where
  cur  : List Byte := []
  pos  : Nat := 0
  prev : List Byte := []
deriving DecidableEq, Repr

/-- What the pipelines hand to a section visit for one RS/MS frame that was not held (R16, Table SO-3). -/
structure SdhRec where
  b1  : Nat
  b2  : Nat
  rei : Nat
  j0  : Byte
  k   : Nat
  s1  : Nat
  ms  : Bool
deriving DecidableEq, Repr

/-- What the pipelines hand to a section visit for one OTU frame that was not held (Table SO-6, R171). -/
structure OtnRec where
  sm    : Nat
  pm    : Nat
  smByte : Byte
  pmByte : Byte
  smTti : Byte
  pmTti : Byte
  mfas  : Nat
  odu   : Bool
  fixed : Nat
  bad   : Nat
  words : Nat
deriving DecidableEq, Repr

/-- One frame's results; a held frame, which breaks the traces in reception (R159, R168); and DCC bytes that found no room in their
queue, which the visit counts (R162, Table SO-9). -/
inductive RxRec where
  | sdh (r : SdhRec)
  | otn (r : OtnRec)
  | gap
  | dccLost (n : Nat)
deriving DecidableEq, Repr

/-- The receive side of a port's section layers: results awaiting the visit, the parities of earlier frames, traces,
acceptance runs (value and count), integration of K2 and BDI (state and contrary run), payload type run and whether one has been
accepted, the counts for the transmit side (R155), and the demapped client bytes with the number of bits before them, modulo the client frame
(R196, R198). -/
structure SecRx where
  recs  : List RxRec := []
  b1    : Option Byte := none
  b2    : Option (List Byte) := none
  smB   : List Byte := []
  pmB   : List Byte := []
  j0    : TraceRx := {}
  smT   : TraceRx := {}
  pmT   : TraceRx := {}
  k     : Nat × Nat := (0, 0)
  s1    : Nat × Nat := (0, 0)
  stat  : Nat × Nat := (0, 0)
  pt    : Nat × Nat := (0, 0)
  ptGot : Bool := false
  msAis : Bool × Nat := (false, 0)
  msRdi : Bool × Nat := (false, 0)
  smBdi : Bool × Nat := (false, 0)
  pmBdi : Bool × Nat := (false, 0)
  rei   : Option Nat := none
  smBei : Option Nat := none
  pmBei : Option Nat := none
  iae   : Bool := false
  opu   : List Byte := []
  opuAt : Nat := 0
deriving DecidableEq, Repr

/-- The transmit side of a port's section layers; `opu` holds the client bytes that wait to be mapped (R196). -/
structure SecTx where
  b1   : Option Byte := none
  b2   : Option (List Byte) := none
  smB  : List Byte := []
  pmB  : List Byte := []
  j0   : TraceTx := {}
  smT  : List Byte := []
  pmT  : List Byte := []
  mfas : Nat := 0
  opu  : List Byte := []
deriving DecidableEq, Repr

/-! ## Pointers -/

/-- One member of an AU-4-Nc (R186): its state (0 none yet, 1 CONC, 2 AISC, 3 LOPC) and its three runs. -/
structure ConcMember where
  st   : Nat := 0
  conc : Nat := 0
  ais  : Nat := 0
  bad  : Nat := 0
deriving DecidableEq, Repr

/-- A pointer interpreter behind PTR_STATUS (R184, R188): runs of AIS_ind, of the LOP run, of equal new_points (offset
and count) and toward the fast trigger, periods since the last offset change and since the start, and members. -/
structure PtrRx where
  ais     : Nat := 0
  lop     : Nat := 0
  new     : Nat × Nat := (0, 0)
  fast    : Nat := 0
  since   : Nat := 3
  age     : Nat := 0
  members : List ConcMember := []
deriving DecidableEq, Repr

/-- A pointer generator (R190, R191): the store fill in units of J, the offset sent, periods since its last change, whether the
next period carries an NDF, the recentres so far, and the word and justification (0 none, 1 positive, 2 negative) of the period in
progress. -/
structure PtrTx where
  fill   : Nat := 8
  offset : Nat := 0
  since  : Nat := 4
  ndf    : Bool := false
  turns  : Nat := 0
  word   : Nat := 0
  just   : Nat := 0
deriving DecidableEq, Repr

/-! ## Path overhead and defects -/

/-- The H4 flywheel of a structured level-2 context (R210): value, last received, runs, containers in the present state,
and whether it is out of multiframe. -/
structure H4 where
  fly  : Nat := 0
  last : Option Nat := none
  good : Nat := 0
  bad  : Nat := 0
  age  : Nat := 0
  oom  : Bool := true
deriving DecidableEq, Repr

/-- The delay marker of a context (R211 to R213): accepted bit, candidate and its stamp, transmitted bit, whether a
received edge has answered the last toggle, whether the first tick has passed, whether a loss lets the next tick toggle, whether an
edge is still to be sent and stamped, readings made. -/
structure Marker where
  acc    : Bool := false
  seen   : Bool := false
  stamp  : Nat := 0
  tx     : Bool := false
  back   : Bool := false
  ticked : Bool := false
  retry  : Bool := false
  edge   : Bool := false
  reads  : Nat := 0
deriving DecidableEq, Repr

/-- Path overhead state of a context: trace reception, label and APS runs, whether a label has been accepted, H4, the
count for the transmitted REI, the received RDI run, the declared RDI code and the marker. -/
structure PohCtx where
  trace  : TraceRx := {}
  sl     : Nat × Nat := (0, 0)
  slGot  : Bool := false
  aps    : Nat × Nat := (0, 0)
  h4     : H4 := {}
  rei    : Option Nat := none
  rdiRun : Nat × Nat := (0, 0)
  rdi    : Nat := 0
  marker : Marker := {}
  trTx   : TraceTx := {}
deriving DecidableEq, Repr

/-- The blocks of SD or SF (R223): errors and periods of the block in progress, blocks whose end is still to be tested, oldest first,
tested blocks newest first, the clearing run (blocks, errors), and the declared state. -/
structure Ber where
  errs     : Nat := 0
  periods  : Nat := 0
  full     : List Nat := []
  blocks   : List Nat := []
  run      : Option (Nat × Nat) := none
  declared : Bool := false
deriving DecidableEq, Repr

/-! ## Performance -/

/-- What a second has gathered for a path (R238, R239); `fresh` marks the second of the switch-in that provisioned it. -/
structure PmSec where
  blocks : Nat := 0
  neErr  : Nat := 0
  feErr  : Nat := 0
  neDef  : Bool := false
  feDef  : Bool := false
  pjInc  : Nat := 0
  pjDec  : Nat := 0
  fresh  : Bool := false
deriving DecidableEq, Repr

/-- A bin (Table PF-3): start, FLAGS bits 1 to 5, seconds counted, and the ten counters in table order. -/
structure PmBin where
  start : Nat := 0
  flags : Nat := 0
  secs  : Nat := 0
  cnt   : List Nat := [0, 0, 0, 0, 0, 0, 0, 0, 0, 0]
deriving DecidableEq, Repr

/-- The current and previous bin of one length, and the tick at which the previous one ended until it is settled (R243). -/
structure Bins where
  cur  : PmBin := {}
  prev : PmBin := {}
  ended : Option Nat := none
deriving DecidableEq, Repr

/-- A counted second kept for the corrections of R241: its number, what it holds for each direction (BBE, ES, SES), the
PJE counts, and the availability it was counted under. -/
structure PmHist where
  second : Nat
  ne     : Nat × Bool × Bool
  fe     : Nat × Bool × Bool
  neUn   : Bool
  feUn   : Bool
deriving DecidableEq, Repr

/-- A path's performance record (R238 to R247): the second in progress, the last sealed second and whether a close-out
has taken it, the bins, both availability states with their runs, whether the last second was counted, whether a first
counted second is still to come (R247), and the last ten counted seconds. -/
structure PmCtx where
  acc      : PmSec := {}
  sealed   : Option PmSec := none
  closed   : Bool := false
  b15      : Bins := {}
  b24      : Bins := {}
  neUn     : Bool := false
  feUn     : Bool := false
  neRun    : Nat := 0
  feRun    : Nat := 0
  counting : Bool := false
  first    : Bool := true
  hist     : List PmHist := []
deriving DecidableEq, Repr

/-- A client's performance second: errored events, a defect present, and whether the port started within it. -/
structure CpmSec where
  events : Nat := 0
  defect : Bool := false
  fresh  : Bool := false
deriving DecidableEq, Repr

/-- A client's performance record (R248 to R250): the second in progress, the sealed one awaiting its visit, the run
toward a change of availability, the seconds of the alert windows newest first (ES, SES, unavailable), and the last ten
counted seconds (ES, SES). -/
structure CpmCtx where
  acc    : CpmSec := {}
  sealed : Option CpmSec := none
  run    : Nat := 0
  window : List (Bool × Bool × Bool) := []
  last   : List (Bool × Bool) := []
deriving DecidableEq, Repr

/-! ## Protection -/

/-- A selector or group, by its working member's address (R259 to R268): the selection, bridge and K bytes decided for the
next boundary, the external command in force, a command that waits for the next visit, an exercise in progress, each
member's hold-off timer (whether it is of the SD class, whether it has expired), the WTR deadline, and DNR. -/
structure Prot where
  want   : Bool := false
  bridge : Bool := false
  k      : Nat := 0
  cmd    : Nat := 0
  next   : Option Nat := none
  exer   : Bool := false
  holdW  : Option (Bool × Bool) := none
  holdP  : Option (Bool × Bool) := none
  wtr    : Option Nat := none
  dnr    : Bool := false
deriving DecidableEq, Repr

/-! ## Clients -/

/-- The internal E1 that is built for a C37.94 client (R280): the frame of the CRC-4 multiframe, the CRC-4 of the submultiframe in
progress and that of the one before; and the C37.94 frames sent. -/
structure E1Tx where
  frame : Nat := 0
  run   : Nat := 0
  crc   : Nat := 0
  relay : Nat := 0
deriving DecidableEq, Repr

/-- A client port (R284 to R293): the fill target, the fill as it left a place and when, the state that HOLD for want of
a skew returns to, the reading used last and those seen, whether the next reading is taken without the drift test, O, the
last estimate of d_in, whether a lock has been made, a new valid FAR_REPORT, starvation. The ingress queue's bits, oldest first, and how
many came since the mapper last took some; the de-jitter buffer: a number of bits never written, then bits; the fill at the last
boundary; the E1 built, the demapped internal E1's bits since its last whole frame, whether it is aligned and whether it is all ones
(R280, R282, R283); and how many bits a queue did not have. -/
structure ClientSt where
  target  : Nat := 1024
  fillAt  : Nat := 1024
  since   : Nat := 0
  before  : Option Nat := none
  used    : Option Nat := none
  seen    : Nat := 0
  skip    : Bool := false
  offset  : Int := 0
  dIn     : Option Int := none
  locked  : Bool := false
  farNew  : Bool := false
  starved : Bool := false
  seq     : Nat := 0
  ingress : List Bool := []
  came    : Nat := 0
  lead    : Nat := 0
  buf     : List Bool := []
  fillWas : Nat := 1024
  e1      : E1Tx := {}
  intBits : List Bool := []
  intIn   : Bool := false
  intOnes : Bool := false
  gaps    : Nat := 0
deriving DecidableEq, Repr

/-! ## Tributary fabric -/

/-- A TFI channel (R302, R309, R310): next SEQ on egress, last SEQ on ingress, cells held toward RUN once a container start
has come, the PREFILL taken at entry; container bytes that wait for a cell and the place of the first of them in its container; and
the play-out's bytes, from a container start on. -/
structure TfiCh where
  seq  : Nat := 0
  last : Nat := 0
  held : Option Nat := none
  need : Nat := 2
  out  : List Byte := []
  pos  : Nat := 0
  play : List Byte := []
deriving DecidableEq, Repr

end Sys2Proof.Machine
end

