-- ==== Sys2Proof/Syntax.lean ====
section
/-!
DEFINITION. The commands of the device: one constructor of `Instr` for each row of the opcode table, with the types of
their operands. An event command stands for the event having occurred; a write command for the write executing.
-/
namespace Sys2Proof

/-- The three masters of the dictionary (Table DI-4). -/
inductive Master where
  | spi | can | mgmt
deriving DecidableEq, Repr

/-- A sparse map from keys to values, sorted by key. -/
abbrev SMap (α : Type) := List (Nat × α)

/-- A configuration bank: the generation header of Table PV-1 and the contents (R83). `regs` and `strs` hold the `gen`
objects that differ from their defaults (the mapping table among them, at 3400:01 of each context), `numbers` the
internal number of each provisioned context (Scope and Conventions, Context addresses), `wheel` the Orrery wheel that admission
compiled from them. -/
structure Bank where
  genNumber  : Word := 0
  genCrc     : Word := 0
  genOp      : Word := 2
  genPaired  : Word := 0
  acceptTime : Word := 0
  switchAt   : Word := 0
  switchTime : Word := 0
  baseNumber : Word := 0
  regs       : SMap Word := []
  strs       : SMap (List Byte) := []
  numbers    : SMap Nat := []
  wheel      : List Byte := []
deriving DecidableEq, Repr

/-- The kind of an SDO transfer (R66); a block transfer carries its block size. -/
inductive SdoKind where
  | expedited
  | segmented
  | block (size : Nat)
deriving DecidableEq, Repr

/-- How the client's side of an SDO transfer goes (Table DI-6, the 0503 and 0504 codes). -/
inductive SdoFlaw where
  | none | toggle | specifier | sequence | crc | stall
deriving DecidableEq, Repr

/-- What ECC finds in the words that an access reads: nothing, a single-bit error that it corrects and counts, or an
uncorrectable error (R31, R60, R402). -/
inductive Ecc where
  | clean | corrected | uncorrectable
deriving DecidableEq, Repr

/-- One SDO transfer as the CAN master starts it (R56, R66). -/
structure SdoReq where
  kind      : SdoKind
  write     : Bool
  index     : BitVec 16
  sub       : BitVec 8
  data      : List Byte
  sized     : Bool
  flaw      : SdoFlaw
  ecc       : Ecc
deriving DecidableEq, Repr

/-- Hierarchy-free names of the monitored clock sources (Tables CK-1, CK-2). -/
inductive Source where
  | intosc | xtal | refA | refB | synth | mgmtPll | corePll | tfiPll
deriving DecidableEq, Repr

/-- The monitored supplies of Table CK-3, in bit order from bit 4. -/
inductive Rail where
  | vddCore | vddSram | vddaSd | vddhSd
deriving DecidableEq, Repr

/-- The pins sampled at reset release, as Table PK-10 lays them out in bits 10:0. -/
abbrev Straps := BitVec 11

/-- A receiver whose equaliser adapts: a line lane, a TFI lane or a mate lane. -/
inductive RxLane where
  | line (l : Fin 64)
  | tfi (l : Fin 32)
  | mate (k : Fin 4)
deriving DecidableEq, Repr

/-- A lane that delineates cells: a TFI lane or a mate lane (R298, R316). -/
inductive CellLane where
  | tfi (l : Fin 32)
  | mate (k : Fin 4)
deriving DecidableEq, Repr

/-- A place where Syzygy searches: a line lane, or the STM-N client frame of an OTU port (R129, R198). -/
inductive Syz where
  | lane (l : Fin 64)
  | client (p : Fin 64)
deriving DecidableEq, Repr

/-- Something a close-out visit counts: a path context or a client port (R236, R248). -/
inductive PmTarget where
  | path (a : Addr)
  | client (c : Fin 32)
deriving DecidableEq, Repr

/-- A protection entity: the MSP group whose working port is given, or the SNCP selector whose working member is
given (R255, R257). -/
inductive ProtTarget where
  | msp (p : Fin 64)
  | sncp (a : Addr)
deriving DecidableEq, Repr

/-- The two members of a protection entity. -/
inductive Member where
  | working | protecting
deriving DecidableEq, Repr

/-- The failures of protection that R269 lists. -/
inductive ApsFailure where
  | fop | archMismatch | modeMismatch
deriving DecidableEq, Repr

/-- Client port defects (Table CL-2). -/
inductive ClientDefect where
  | los | ais | lof | lomf | nMismatch | rai | intLof
deriving DecidableEq, Repr

/-- What one HEARTBEAT carries (Table PA-1): the mate's PAIR_STATUS, its frame number, generation and check value. -/
structure Heartbeat where
  lane   : Fin 4
  status : BitVec 32
  frame  : BitVec 32
  gen    : BitVec 32
  crc    : BitVec 32
deriving DecidableEq, Repr

/-- One FRAME_MARK (Table PA-1), with the phase error measured against it, in reference cycles (R322). -/
structure FrameMark where
  frame  : BitVec 32
  time   : Word
  second : BitVec 32
  tick   : Bool
  error  : Nat
deriving DecidableEq, Repr

/-- One record of the dynamic part of a state copy (Table PA-3, R326): a word or a string of the dictionary's context state, and the
records of a port's sections, a context's pointers, overhead and block counts, its actions, a TFI channel, a selector or group, a client
with its performance record, and a DCC transmit queue. Times in a record count from the message. -/
inductive CopyRec where
  | word (key : Nat) (v : Word)
  | text (key : Nat) (v : List Byte)
  | sections (p : Fin 64) (rx : Machine.SecRx) (tx : Machine.SecTx)
  | pointers (a : Addr) (rx : Machine.PtrRx) (tx : Machine.PtrTx)
  | overhead (a : Addr) (x : Machine.PohCtx)
  | blocks (a : Addr) (sd sf : Machine.Ber)
  | actions (a : Addr) (v : Nat)
  | channel (a : Addr) (x : Machine.TfiCh)
  | selector (a : Addr) (x : Machine.Prot)
  | client (c : Fin 32) (x : Machine.ClientSt) (pm : Machine.CpmCtx)
  | dccTx (q : Fin 16) (bytes : List Byte)
deriving DecidableEq, Repr

/-- What a COPY message brings: the active bank, dynamic records, or PM records by address (Table PA-3, R325, R326). -/
inductive CopyPart where
  | generation (b : Bank) (bytes : Nat)
  | dynamic (recs : List CopyRec) (bytes : Nat)
  | pm (recs : List (Addr × Machine.PmCtx)) (bytes : Nat)
deriving DecidableEq, Repr

/-- The parts of a state copy (Table PA-3). -/
inductive PartName where
  | generation | dynamic | pm
deriving DecidableEq, Repr

/-- The results of one unit's self-check, each `true` for a fail (Table PA-9, R330). -/
structure CheckResult where
  bank     : Bool
  ecc      : Bool
  datapath : Bool
deriving DecidableEq, Repr

/-- One attempt of an integrity check (R412): the check value computed, or the uncorrectable word that ended it. -/
inductive Attempt where
  | result (v : BitVec 32)
  | badHeader
  | badData
deriving DecidableEq, Repr

/-- What Saggar finds in a boot slot: nothing readable, or the bytes of a manifest (Table SE-2) and whether every
segment's SHAKE256 equals its DIGEST (R355, R422). -/
inductive SlotContent where
  | unreadable
  | manifest (bytes : List Byte) (segmentsMatch : Bool)
deriving DecidableEq, Repr

/-- The raise operands of one event that a block hands to fault collection (R386, R387). -/
structure EventOp where
  source   : BitVec 16
  level    : BitVec 3
  addr     : Addr
  detail   : BitVec 32
  clear    : Bool
  forced   : Bool
  injected : Bool
deriving DecidableEq, Repr

/-- What the committing unit sends in a joint commit: the pending bank and whether its CRC-32C verifies (R96), or its
cancellation of a joint switch-in (Table PV-3, outcome 5; log entry 126). -/
inductive CommitMsg where
  | bank (b : Bank) (crcOk : Bool)
  | cancel
deriving DecidableEq, Repr

/-- What the mate answers in a joint commit (R96). -/
structure MateAdmission where
  result    : BitVec 8
  op        : BitVec 8
  crc       : BitVec 32
  delivered : Bool
  boundary  : Nat
deriving DecidableEq, Repr

/-- What the SDO or Milber side of a DOMAIN read says: the length word, whether the response was fetched whole, and what
ECC finds in the words read. -/
structure DomRead where
  maxLen   : Nat
  complete : Bool
  ecc      : Ecc
deriving DecidableEq, Repr

/-- The hardware settings a SEVERE_SETTING write can change (Table FC-9). -/
inductive SevereField where
  | severeN | severeWindow
deriving DecidableEq, Repr

/-- What a received frame is: the bytes of a port's line frame, those of its four lanes in order with their measured skews on a bonded
port (R109); or the client frame that an OTU port's demapper has found (R198). -/
inductive RxSignal where
  | line (bytes : List Byte) (skews : List (BitVec 12))
  | client
deriving DecidableEq, Repr

/-- The commands of the device: one constructor per row of spec/opcode_table.json, in its order. -/
inductive Instr where
  | frameBoundary
  | sdoTransfer (r : SdoReq)
  | sdoTimeout
  | milberNop
  | milberRead (index : BitVec 16) (sub : BitVec 8) (tag : Fin 16) (len : BitVec 32) (crc : BitVec 32) (ecc : Ecc)
  | milberWrite (index : BitVec 16) (sub : BitVec 8) (tag : Fin 16) (len : BitVec 32) (data : List (BitVec 32))
      (crc : BitVec 32)
  | milberTableRead (index : BitVec 16) (sub : BitVec 8) (tag : Fin 16) (start count : BitVec 32) (crc : BitVec 32)
  | milberTableWrite (index : BitVec 16) (sub : BitVec 8) (tag : Fin 16) (start count : BitVec 32)
      (data : List (BitVec 32)) (crc : BitVec 32)
  | milberFetch (tag : Fin 16) (whole : Bool)
  | milberStatus
  | milberInvalidOpcode (opcode : Fin 16) (words : Nat)
  | spiFrameError
  | guardArmingWrite (m : Master) (index : BitVec 16) (sub : BitVec 8) (data : List Byte)
  | guardWindowExpiry (m : Master)
  | registerWrite (m : Master) (index : BitVec 16) (sub : BitVec 8) (data : List Byte) (coincident : Word)
  | contextSelect (m : Master) (a : Addr)
  | selectStep (m : Master) (v : BitVec 8)
  | hostSlotAccess (m : Master) (collision : Bool) (ecc : Ecc)
  | canBitrateDetected (code : Fin 5)
  | nmtStartRemoteNode
  | nmtStopRemoteNode
  | nmtEnterPreOperational
  | nmtResetNode
  | nmtResetCommunication
  | producerHeartbeat
  | tpdoInhibitExpiry (n : Fin 4)
  | tpdoEventTimer (n : Fin 4)
  | emcyInhibitExpiry
  | syncReceived
  | pmSnapshot
  | pathType (m : Master) (v : BitVec 8)
  | portType (m : Master) (p : Fin 64) (v : BitVec 8)
  | commit (m : Master) (v : BitVec 8)
  | admissionEnd (mate : MateAdmission)
  | pendingReset (m : Master) (v : BitVec 8)
  | bankCopyEnd
  | cancelSwitch (m : Master) (v : BitVec 8)
  | switchIn
  | commitBank (msg : CommitMsg)
  | mapBlockSelect (m : Master) (v : BitVec 32)
  | mapBlockRead (m : Master) (r : DomRead)
  | mapBlockActiveRead (m : Master) (r : DomRead)
  | mapBlockWrite (m : Master) (data : List Byte)
  | cdrLock (l : Fin 64)
  | cdrUnlock (l : Fin 64)
  | losDeclare (l : Fin 64) (amplitude transitions : Bool)
  | losClear (l : Fin 64) (amplitude transitions : Bool)
  | cdrMaskEnd (l : Fin 64)
  | quadPllLock (q : Fin 16)
  | quadPllLockLoss (q : Fin 16)
  | freqGateEnd (l : Fin 64) (count : Nat) (valid : Bool)
  | rxAdaptation (l : RxLane) (values : BitVec 25) (hostWrite : Option (Master × BitVec 32))
  | txSquelch (m : Master) (p : Fin 64) (v : BitVec 8)
  | prbsCtrl (m : Master) (l : Fin 64) (v : BitVec 8)
  | lolDeclare (q : Fin 16)
  | lolClear (q : Fin 16)
  | framingPattern (z : Syz) (advance : Nat) (bits : BitVec 48)
  | searchWindowEnd (z : Syz)
  | oofDeclare (z : Syz)
  | lofDeclare (z : Syz)
  | lofClear (z : Syz)
  | inMultiframe (p : Fin 64)
  | oomDeclare (p : Fin 64)
  | lomDeclare (p : Fin 64)
  | lomClear (p : Fin 64)
  | lineReceiveFrame (p : Fin 64) (signal : RxSignal)
  | lineTransmitFrame (p : Fin 64) (client : Bool) (moves : List (Addr × Int))
  | sectionVisit (p : Fin 64)
  | dccRxRead (m : Master) (p : Fin 64) (multiplex : Bool) (r : DomRead)
  | dccTxWrite (m : Master) (p : Fin 64) (multiplex : Bool) (data : List Byte)
  | oneB1 (m : Master) (p : Fin 64)
  | oneB2 (m : Master) (p : Fin 64)
  | oneSmBip (m : Master) (p : Fin 64)
  | onePmBip (m : Master) (p : Fin 64)
  | pairedWrite (index : BitVec 16) (sub : BitVec 8) (a : Addr) (data : List Byte) (boundary : BitVec 32)
  | pointerWord (a : Addr)
  | pohVisit (a : Addr)
  | traceCapture (m : Master) (v : BitVec 8)
  | markerTick (a : Addr)
  | markerLost (a : Addr)
  | oneBip (m : Master)
  | defectVisit (a : Addr)
  | berBlockEnd (a : Addr) (sf : Bool)
  | defectCountUpdate
  | ppsEdge (falling : Bool) (interval sinceTick : Nat)
  | flywheelTick
  | ppsLoss
  | tickEffect
  | closeOutVisit (t : PmTarget) (ecc : Ecc) (bin : Fin 4)
  | managementRollover
  | pmSecond (m : Master) (v : BitVec 32) (coincident : Bool)
  | pmClear15Min (m : Master)
  | pmClear24Hour (m : Master)
  | pmClearBoth (m : Master)
  | pmBlockRead (m : Master) (r : DomRead)
  | cpmClear (m : Master) (c : Fin 32) (v : BitVec 8)
  | selectorVisit (a : Addr)
  | holdOffExpiry (t : ProtTarget) (k : Member)
  | wtrExpiry (t : ProtTarget)
  | exerciseEnd (p : Fin 64)
  | fopDeclare (p : Fin 64) (f : ApsFailure)
  | apsFailureClear (p : Fin 64) (f : ApsFailure)
  | clear (m : Master) (t : ProtTarget)
  | lockoutOfProtection (m : Master) (t : ProtTarget)
  | forcedSwitchToProtection (m : Master) (t : ProtTarget)
  | forcedSwitchToWorking (m : Master) (t : ProtTarget)
  | manualSwitchToProtection (m : Master) (t : ProtTarget)
  | manualSwitchToWorking (m : Master) (t : ProtTarget)
  | exercise (m : Master) (t : ProtTarget)
  | clientDefectDeclare (c : Fin 32) (f : ClientDefect)
  | clientDefectClear (c : Fin 32) (f : ClientDefect)
  | lomfTimeout (c : Fin 32)
  | ingressSlip (c : Fin 32)
  | bufferStarved (c : Fin 32)
  | bufferOverflow (c : Fin 32)
  | starvationEnd (c : Fin 32)
  | farReport (m : Master) (c : Fin 32) (data : List Byte)
  | tfiBlockLock (l : CellLane)
  | tfiBlockLockLoss (l : CellLane)
  | tfiCellReceived (l : CellLane) (bytes : List Byte) (syncOk : Bool)
  | tfiCellSend (l : Fin 32)
  | cellGenerate (a : Addr)
  | creditStall (l : Fin 32)
  | playoutUnderrun (a : Addr)
  | heartbeat (h : Heartbeat)
  | heartbeatSend
  | heartbeatLoss
  | frameMark (f : FrameMark)
  | signatures (frame : BitVec 32) (values : List (BitVec 32))
  | copy (p : CopyPart)
  | endRecord (p : PartName) (crcOk : Bool)
  | selfCheck (mate : Option CheckResult)
  | selfCheckEnd (own : CheckResult)
  | selfCheckTimeout
  | release (cause : Fin 8)
  | revertRequest (boundary : BitVec 32) (cause : Fin 8)
  | revertGrant (boundary : BitVec 32)
  | revertWtrExpiry
  | grantTimeout
  | handover
  | claimInDetect
  | claimInLoss
  | claimGrant
  | interlockFault
  | phaseLock (f : FrameMark)
  | phaseLockLoss
  | joinStart
  | forceHandover (m : Master)
  | pairCtrl (m : Master) (v : BitVec 32)
  | verifyWindowEnd
  | modeRequestInert (m : Master)
  | modeRequestService (m : Master)
  | modeRequestShadow (m : Master)
  | modeRequestQuiesce (m : Master)
  | modeGuardedInert (m : Master)
  | modeGuardedShadow (m : Master)
  | modeGuardedQuiesce (m : Master)
  | modeGuardedBisque (m : Master)
  | modeChange
  | wakeCtrl (m : Master) (v : BitVec 8)
  | powerOn (straps : Straps)
  | resetN (lowNs : Nat) (straps : Straps)
  | watchdogExpiry (straps : Straps)
  | unitReset (m : Master) (straps : Straps)
  | sramClearEnd
  | bootSlotVerify (c : SlotContent)
  | bootEnd (bootMs : BitVec 8)
  | sourceQualified (s : Source)
  | monitorTrip (s : Source) (stopped : Bool)
  | supplyLow (r : Rail)
  | clampRelease
  | referenceReturn (s : Source)
  | mgmtPllReturn
  | voltageSettled (mv : BitVec 16)
  | divisorChange
  | voltageLowered (mv : BitVec 16)
  | avsFault
  | opOverride (m : Master) (v : BitVec 8)
  | opRetry (m : Master) (v : BitVec 8)
  | blockClockEnable (m : Master) (v : BitVec 32)
  | blockResume
  | timeStep (m : Master) (v : BitVec 32)
  | refOffsetGateEnd (s : Source) (count : Nat) (valid : Bool)
  | auxRelock (n : Fin 2)
  | eventRecord (e : EventOp)
  | pulseEnd (injected : Bool)
  | ackSeq (m : Master) (s : BitVec 32)
  | history (m : Master) (r : DomRead)
  | injectFire (m : Master) (v : BitVec 8)
  | faultNCtrl (m : Master) (v : BitVec 8) (coincident : Bool)
  | severeSetting (m : Master) (k : Fin 13) (f : SevereField) (v : BitVec 32)
  | reaction (m : Master) (k : Fin 13) (v : BitVec 8)
  | go (m : Master)
  | abort (m : Master)
  | scanComplete (touched : Bool) (ecc : Ecc)
  | running (m : Master) (n : Fin 4) (v : BitVec 32)
  | integrityCheckStart
  | integrityCheckEnd (attempts : List Attempt) (corrected : BitVec 32)
  | lifecycleRequest (m : Master) (v : BitVec 8)
  | zeroise (m : Master) (v : BitVec 8)
  | fuseBurnEnd
  | rollbackAdvance (m : Master) (v : BitVec 8)
  | tokenApplyDebugUnlock (m : Master)
  | tokenApplyReturned (m : Master)
  | tokenApplyOwnerKey (m : Master)
  | secPolicy (m : Master) (v : BitVec 8)
  | nonceNew (m : Master) (v : BitVec 8)
  | nonceExpiry (m : Master)
  | token (m : Master) (data : List Byte)
  | tokenVerified (m : Master)
  | debugClose (m : Master) (v : BitVec 8)
  | debugLifetimeEnd
  | sessionChallengeNew (m : Master) (v : BitVec 8)
  | challengeExpiry
  | sessionResponse (m : Master) (data : List Byte)
  | sessionResponseChecked
  | sessionExpiry
  | sessionEnd (m : Master) (v : BitVec 8)
  | challengeLockoutEnd
  | attestNonce (m : Master) (data : List Byte)
  | attestReport (m : Master) (r : DomRead)
  | extest (shift pins : List Bool)
  | idcode
  | samplePreload (shift pins : List Bool)
  | highz
  | extestPulse (shift pins : List Bool)
  | extestTrain (shift pins : List Bool)
  | dbgTrace
  | dbgDict (index : BitVec 16) (sub : BitVec 8) (inst : BitVec 32)
  | dbgCtrl (op : Fin 3)
  | dbgMem (addr : BitVec 32) (write : Option Byte)
  | bypass (code : BitVec 8)
  | tapReset
  | supplyRestored (r : Rail)
  | clientReceiveFrame (c : Fin 32) (errored : Bool) (data : List Byte)
  | clientVisit (c : Fin 32)
  | testEnChange (level : Bool)
deriving DecidableEq, Repr

end Sys2Proof
end

