-- ==== Sys2Proof/WellFormed.lean ====
section
/-!
DEFINITION. Well-formed commands: the sizes that the manual gives to operands whose type does not fix them.
-/
namespace Sys2Proof

/-- An expedited SDO transfer carries at most 4 bytes (R66). -/
def SdoReq.wf (r : SdoReq) : Bool := r.kind != .expedited || decide (r.data.length ≤ 4)

/-- The 555 cells of the boundary register, shifted in and captured (R451). -/
def scanWf (shift pins : List Bool) : Bool := shift.length == 555 && pins.length == 555

/-- Whether a command's operands have the sizes the manual gives them: opcodes 0x7 to 0xF are invalid (R71), the skews of a bonded
port are those of its 4 lanes (R109), a cell has 80 bytes (Table TF-2), a frame has 128 signatures (R328), an integrity check makes 1 to 3
attempts (R412). -/
def Instr.wf (i : Instr) : Bool :=
  match i with
  | .sdoTransfer r => r.wf
  | .milberInvalidOpcode op _ => decide (7 ≤ op.val)
  | .lineReceiveFrame _ (.line _ skews) => skews.isEmpty || skews.length == 4
  | .tfiCellReceived _ bytes _ => bytes.length == 80
  | .signatures _ values => values.length == 128
  | .integrityCheckEnd attempts _ => decide (1 ≤ attempts.length) && decide (attempts.length ≤ 3)
  | .extest shift pins | .samplePreload shift pins | .extestPulse shift pins | .extestTrain shift pins => scanWf shift pins
  | _ => true

end Sys2Proof
end

