-- ==== Sys2Proof/Decode.lean ====
section
/-!
DEFINITION. The commands that words spell: the opcode table gives no row any bits, so no word spells a command by it; a Milber
transaction spells the command of its frame (R68 to R71, Tables DI-8 and DI-9).
-/
namespace Sys2Proof

/-- The command that the bits `w` spell by the opcode table, which gives bits to none of its rows. -/
def decodeTableWord (_nbits _w : Nat) : Option Instr := none

/-! ## Milber transactions -/

/-- A header word: OPCODE in bits 31:28, INDEX in 27:12, SUBINDEX in 11:4, TAG in 3:0 (Table DI-8). -/
def headerWord (op : BitVec 4) (index : BitVec 16) (sub : BitVec 8) (tag : BitVec 4) : BitVec 32 := op ++ index ++ sub ++ tag

/-- The fields of a header word. -/
def headerOp (h : BitVec 32) : BitVec 4 := h.extractLsb' 28 4
def headerIndex (h : BitVec 32) : BitVec 16 := h.extractLsb' 12 16
def headerSub (h : BitVec 32) : BitVec 8 := h.extractLsb' 4 8
def headerTag (h : BitVec 32) : Fin 16 := (h.extractLsb' 0 4).toFin

/-- A tag as its field. -/
def tagField (t : Fin 16) : BitVec 4 := BitVec.ofFin t

/-- The words after a header whose last two are the trailer and the accept word's dummy: the data and the trailer. -/
def splitFrame : List (BitVec 32) → Option (List (BitVec 32) × BitVec 32)
  | [] => none
  | [_] => none
  | [crc, _] => some ([], crc)
  | w :: r => match splitFrame r with
    | some (data, crc) => some (w :: data, crc)
    | none => none

/-- The command that one transaction's words from the host bring (Table DI-9); a word count that does not match the opcode is a
frame error (R76). `ecc` is what ECC will find when a READ executes, `whole` whether a FETCH carried its response to the end:
neither is in the host's words. -/
def decodeMilber (ecc : Ecc) (whole : Bool) : List (BitVec 32) → Option Instr
  | [] => none
  | h :: r =>
    let index := headerIndex h
    let sub := headerSub h
    let tag := headerTag h
    let op := (headerOp h).toNat
    if op == 0 then some (if r.isEmpty then .milberNop else .spiFrameError)
    else if op == 1 then
      match r with
      | [len, crc, _] => some (.milberRead index sub tag len crc ecc)
      | _ => some .spiFrameError
    else if op == 2 then
      match r with
      | len :: r' => match splitFrame r' with
        | some (data, crc) => some (.milberWrite index sub tag len data crc)
        | none => some .spiFrameError
      | [] => some .spiFrameError
    else if op == 3 then
      match r with
      | [start, count, crc, _] => some (.milberTableRead index sub tag start count crc)
      | _ => some .spiFrameError
    else if op == 4 then
      match r with
      | start :: count :: r' => match splitFrame r' with
        | some (data, crc) => some (.milberTableWrite index sub tag start count data crc)
        | none => some .spiFrameError
      | _ => some .spiFrameError
    else if op == 5 then some (.milberFetch tag whole)
    else if op == 6 then
      match r with
      | [_, _] => some .milberStatus
      | _ => some .spiFrameError
    else some (.milberInvalidOpcode (headerOp h).toFin r.length)

/-- The words that the host clocks for a Milber command, dummy words as zeros; a FETCH is its header and the words of its response,
which are not the host's. Other commands are no transaction. -/
def encodeMilber : Instr → Option (List (BitVec 32))
  | .milberNop => some [0]
  | .milberRead index sub tag len crc _ => some [headerWord 1 index sub (tagField tag), len, crc, 0]
  | .milberWrite index sub tag len data crc => some (headerWord 2 index sub (tagField tag) :: len :: (data ++ [crc, 0]))
  | .milberTableRead index sub tag start count crc => some [headerWord 3 index sub (tagField tag), start, count, crc, 0]
  | .milberTableWrite index sub tag start count data crc =>
    some (headerWord 4 index sub (tagField tag) :: start :: count :: (data ++ [crc, 0]))
  | .milberFetch tag _ => some [headerWord 5 0 0 (tagField tag)]
  | .milberStatus => some [headerWord 6 0 0 0, 0, 0]
  | .milberInvalidOpcode op words => some (headerWord (BitVec.ofFin op) 0 0 0 :: List.replicate words 0)
  | _ => none

end Sys2Proof
end

