-- ==== Sys2Proof/Machine/Objects.lean ====
section
/-!
DEFINITION. The object dictionary's tables (Tables OX-1, OX-2 and the object table of every chapter): for each index
and subindex its type, access code, Bind value, guard mark, default and the kinds of its fields, and the names under
which the model cites objects.
-/
namespace Sys2Proof.Machine

/-- The types of Table DI-1 (R41); a DOMAIN carries the least and greatest length its home table gives. -/
inductive Ty where
  | u8 | u16 | u32 | u64 | i32 | bool | path | time
  | str (n : Nat)
  | dom (lo hi : Nat)
deriving DecidableEq, Repr

/-- The access codes of Table DI-2 (R42). -/
inductive Acc where
  | ro | rw | wo | const
deriving DecidableEq, Repr

/-- What a whole object that is no bit-field object behaves as (R44). -/
inductive Whole where
  | plain | cnt | trg | hwrw
deriving DecidableEq, Repr

/-- One row of an object table. The masks give the bits of each field kind of Table DI-3; bits in none are `ctl`.
`zero` are bits that the home table says read 0 and that no write sets. -/
structure ObjDef where
  base  : Nat
  sub   : Nat
  ty    : Ty
  acc   : Acc
  gen   : Bool := false
  guard : Bool := false
  dflt  : Nat := 0
  whole : Whole := .plain
  wraps : Bool := false
  rsvd  : Nat := 0
  sts   : Nat := 0
  evt   : Nat := 0
  trg   : Nat := 0
  hwrw  : Nat := 0
  zero  : Nat := 0
deriving DecidableEq, Repr

/-- Width in bits of a scalar type (Table DI-1); 0 for strings and domains. -/
def Ty.width : Ty → Nat
  | .u8 => 8 | .bool => 8
  | .u16 => 16
  | .u32 => 32 | .i32 => 32 | .path => 32
  | .u64 => 64 | .time => 64
  | .str _ => 0 | .dom _ _ => 0

/-- Whether values of the type live as octets rather than as a word. -/
def Ty.isOctets : Ty → Bool
  | .str _ => true
  | .dom _ _ => true
  | _ => false

/-- Whether a read latches a snapshot: objects of 64 bits or more, strings and DOMAINs (R57). -/
def Ty.isLatched : Ty → Bool
  | .u64 => true | .time => true | .str _ => true | .dom _ _ => true
  | _ => false

/-- Table DI-7. -/
def tblDI7 : List ObjDef := [
  { base := 0x1000, sub := 0x00, ty := .u32, acc := .const },
  { base := 0x1001, sub := 0x00, ty := .u8, acc := .ro },
  { base := 0x1005, sub := 0x00, ty := .u32, acc := .rw, dflt := 0x80 },
  { base := 0x1008, sub := 0x00, ty := (.str 6), acc := .const },
  { base := 0x1009, sub := 0x00, ty := (.str 4), acc := .const },
  { base := 0x100A, sub := 0x00, ty := (.str 16), acc := .const },
  { base := 0x1014, sub := 0x00, ty := .u32, acc := .rw, dflt := 0x80 },
  { base := 0x1015, sub := 0x00, ty := .u16, acc := .rw },
  { base := 0x1017, sub := 0x00, ty := .u16, acc := .rw },
  { base := 0x1018, sub := 0x01, ty := .u32, acc := .const },
  { base := 0x1018, sub := 0x02, ty := .u32, acc := .const },
  { base := 0x1018, sub := 0x03, ty := .u32, acc := .const },
  { base := 0x1018, sub := 0x04, ty := .u32, acc := .const },
  { base := 0x1200, sub := 0x01, ty := .u32, acc := .const },
  { base := 0x1200, sub := 0x02, ty := .u32, acc := .const },
  { base := 0x1800, sub := 0x01, ty := .u32, acc := .rw },
  { base := 0x1800, sub := 0x02, ty := .u8, acc := .rw, dflt := 0xFE },
  { base := 0x1800, sub := 0x03, ty := .u16, acc := .rw },
  { base := 0x1800, sub := 0x05, ty := .u16, acc := .rw },
  { base := 0x1A00, sub := 0x00, ty := .u8, acc := .const },
  { base := 0x1A00, sub := 0x01, ty := .u32, acc := .const },
  { base := 0x1A00, sub := 0x02, ty := .u32, acc := .const },
  { base := 0x1A00, sub := 0x03, ty := .u32, acc := .const },
  { base := 0x1A00, sub := 0x04, ty := .u32, acc := .const },
  { base := 0x1A00, sub := 0x05, ty := .u32, acc := .const },
  { base := 0x1A00, sub := 0x06, ty := .u32, acc := .const },
  { base := 0x1A00, sub := 0x07, ty := .u32, acc := .const },
  { base := 0x1A00, sub := 0x08, ty := .u32, acc := .const },
  { base := 0x1018, sub := 0x00, ty := .u8, acc := .const, dflt := 0x4 },
  { base := 0x1200, sub := 0x00, ty := .u8, acc := .const, dflt := 0x2 },
  { base := 0x1800, sub := 0x00, ty := .u8, acc := .const, dflt := 0x5 } ]

/-- Table DI-10. -/
def tblDI10 : List ObjDef := [
  { base := 0x3000, sub := 0x00, ty := .u8, acc := .const, dflt := 0x4 },
  { base := 0x3000, sub := 0x01, ty := .path, acc := .rw },
  { base := 0x3000, sub := 0x02, ty := .u8, acc := .wo },
  { base := 0x3000, sub := 0x03, ty := .u32, acc := .ro, dflt := 0xFFFFFFFF },
  { base := 0x3000, sub := 0x04, ty := .u32, acc := .ro, dflt := 0xFFFFFFFF } ]

/-- Table DI-11. -/
def tblDI11 : List ObjDef := [
  { base := 0x20F0, sub := 0x00, ty := .u8, acc := .const, dflt := 0x4 },
  { base := 0x20F0, sub := 0x01, ty := .u8, acc := .rw },
  { base := 0x20F0, sub := 0x02, ty := .u8, acc := .ro },
  { base := 0x20F0, sub := 0x03, ty := .u8, acc := .rw },
  { base := 0x20F0, sub := 0x04, ty := .u8, acc := .ro },
  { base := 0x20F1, sub := 0x00, ty := .u8, acc := .const, dflt := 0x5 },
  { base := 0x20F1, sub := 0x01, ty := .u8, acc := .ro },
  { base := 0x20F1, sub := 0x02, ty := .u8, acc := .ro },
  { base := 0x20F1, sub := 0x03, ty := .u32, acc := .rw, whole := .cnt },
  { base := 0x20F1, sub := 0x04, ty := .u32, acc := .ro },
  { base := 0x20F1, sub := 0x05, ty := .u32, acc := .rw, whole := .cnt },
  { base := 0x20F2, sub := 0x00, ty := .u8, acc := .const, dflt := 0x3 },
  { base := 0x20F2, sub := 0x01, ty := .u32, acc := .rw, whole := .cnt },
  { base := 0x20F2, sub := 0x02, ty := .u32, acc := .ro },
  { base := 0x20F2, sub := 0x03, ty := .u8, acc := .ro } ]

/-- Table PV-8. -/
def tblPV8 : List ObjDef := [
  { base := 0x2600, sub := 0x00, ty := .u8, acc := .const, dflt := 0x6 },
  { base := 0x2600, sub := 0x01, ty := .u32, acc := .ro },
  { base := 0x2600, sub := 0x02, ty := .u8, acc := .ro },
  { base := 0x2600, sub := 0x03, ty := .u32, acc := .ro },
  { base := 0x2600, sub := 0x04, ty := .u8, acc := .ro },
  { base := 0x2600, sub := 0x05, ty := .time, acc := .ro },
  { base := 0x2600, sub := 0x06, ty := .u8, acc := .ro },
  { base := 0x2601, sub := 0x00, ty := .u8, acc := .const, dflt := 0x9 },
  { base := 0x2601, sub := 0x01, ty := .u8, acc := .rw, whole := .trg },
  { base := 0x2601, sub := 0x02, ty := .time, acc := .rw },
  { base := 0x2601, sub := 0x03, ty := .u8, acc := .rw, whole := .trg },
  { base := 0x2601, sub := 0x04, ty := .u8, acc := .ro },
  { base := 0x2601, sub := 0x05, ty := .u32, acc := .ro },
  { base := 0x2601, sub := 0x06, ty := .path, acc := .ro },
  { base := 0x2601, sub := 0x07, ty := .u32, acc := .rw, whole := .cnt },
  { base := 0x2601, sub := 0x08, ty := .u8, acc := .rw, whole := .trg },
  { base := 0x2601, sub := 0x09, ty := .u8, acc := .ro },
  { base := 0x2602, sub := 0x00, ty := .u8, acc := .const, dflt := 0x8 },
  { base := 0x2602, sub := 0x01, ty := .u32, acc := .ro },
  { base := 0x2602, sub := 0x02, ty := .u32, acc := .ro },
  { base := 0x2602, sub := 0x03, ty := .u32, acc := .ro },
  { base := 0x2602, sub := 0x04, ty := .u32, acc := .ro },
  { base := 0x2602, sub := 0x05, ty := .u8, acc := .ro },
  { base := 0x2602, sub := 0x06, ty := .u16, acc := .ro },
  { base := 0x2602, sub := 0x07, ty := .u32, acc := .ro },
  { base := 0x2602, sub := 0x08, ty := .u8, acc := .ro } ]

/-- Table LN-4. -/
def tblLN4 : List ObjDef := [
  { base := 0x2800, sub := 0x00, ty := .u8, acc := .const, dflt := 0x5 },
  { base := 0x2800, sub := 0x01, ty := .u8, acc := .rw, gen := true },
  { base := 0x2800, sub := 0x02, ty := .u8, acc := .rw, gen := true },
  { base := 0x2800, sub := 0x03, ty := .bool, acc := .rw, gen := true },
  { base := 0x2800, sub := 0x04, ty := .bool, acc := .rw },
  { base := 0x2800, sub := 0x05, ty := .u8, acc := .ro, sts := 0x7F },
  { base := 0x2840, sub := 0x00, ty := .u8, acc := .const, dflt := 0xC },
  { base := 0x2840, sub := 0x01, ty := .u16, acc := .rw, gen := true, dflt := 0x70, rsvd := 0xFF0C },
  { base := 0x2840, sub := 0x02, ty := .u8, acc := .rw, gen := true, dflt := 0x2E },
  { base := 0x2840, sub := 0x03, ty := .u8, acc := .rw, gen := true, dflt := 0x32 },
  { base := 0x2840, sub := 0x04, ty := .u32, acc := .rw, gen := true, dflt := 0x83004, rsvd := 0xFFE0C0F0 },
  { base := 0x2840, sub := 0x05, ty := .u32, acc := .rw, dflt := 0x2000000, rsvd := 0x70000001, evt := 0x80000000, hwrw := 0x3FFFFFE },
  { base := 0x2840, sub := 0x06, ty := .u16, acc := .rw, rsvd := 0xFCC0, sts := 0x3F, evt := 0x300 },
  { base := 0x2840, sub := 0x07, ty := .i32, acc := .ro, dflt := 0x80000000 },
  { base := 0x2840, sub := 0x08, ty := .u8, acc := .rw, zero := 0xF8 },
  { base := 0x2840, sub := 0x09, ty := .u8, acc := .rw, sts := 0x10, zero := 0xE0 },
  { base := 0x2840, sub := 0x0A, ty := .u32, acc := .rw, whole := .cnt, wraps := true },
  { base := 0x2840, sub := 0x0B, ty := .u16, acc := .ro, sts := 0xFFFF },
  { base := 0x2840, sub := 0x0C, ty := .u8, acc := .ro, dflt := 0x30, sts := 0x3B } ]

/-- Table FA-6. -/
def tblFA6 : List ObjDef := [
  { base := 0x2880, sub := 0x00, ty := .u8, acc := .const, dflt := 0xE },
  { base := 0x2880, sub := 0x01, ty := .u32, acc := .rw, gen := true, dflt := 0x520042, rsvd := 0xFF00FF00 },
  { base := 0x2880, sub := 0x02, ty := .u8, acc := .rw, gen := true, dflt := 0x18 },
  { base := 0x2880, sub := 0x03, ty := .u8, acc := .rw, gen := true, dflt := 0x18 },
  { base := 0x2880, sub := 0x04, ty := .u8, acc := .rw, gen := true, dflt := 0x18 },
  { base := 0x2880, sub := 0x05, ty := .u8, acc := .rw, gen := true, dflt := 0x18 },
  { base := 0x2880, sub := 0x06, ty := .u16, acc := .rw, rsvd := 0x40, sts := 0xF03F, evt := 0xF80 },
  { base := 0x2880, sub := 0x07, ty := .u32, acc := .ro, dflt := 0xFFFFFFFF },
  { base := 0x2880, sub := 0x08, ty := .i32, acc := .ro },
  { base := 0x2880, sub := 0x09, ty := .time, acc := .ro },
  { base := 0x2880, sub := 0x0A, ty := .u32, acc := .rw, whole := .cnt },
  { base := 0x2880, sub := 0x0B, ty := .u32, acc := .rw, whole := .cnt },
  { base := 0x2880, sub := 0x0C, ty := .u32, acc := .rw, whole := .cnt },
  { base := 0x2880, sub := 0x0D, ty := .u8, acc := .ro },
  { base := 0x2880, sub := 0x0E, ty := .u8, acc := .ro } ]

/-- Table SO-7. -/
def tblSO7 : List ObjDef := [
  { base := 0x28C0, sub := 0x00, ty := .u8, acc := .const, dflt := 0xC },
  { base := 0x28C0, sub := 0x01, ty := .u32, acc := .rw, gen := true, dflt := 0x830001, rsvd := 0xFF00FEF8 },
  { base := 0x28C0, sub := 0x02, ty := (.str 64), acc := .rw, gen := true },
  { base := 0x28C0, sub := 0x03, ty := (.str 64), acc := .rw, gen := true },
  { base := 0x28C0, sub := 0x04, ty := .u8, acc := .rw, dflt := 0xF },
  { base := 0x28C0, sub := 0x05, ty := .u8, acc := .rw, gen := true, dflt := 0xFF },
  { base := 0x28C0, sub := 0x06, ty := .u8, acc := .rw, gen := true, dflt := 0xFF },
  { base := 0x28C0, sub := 0x07, ty := .u8, acc := .rw, gen := true, dflt := 0x7E },
  { base := 0x28C0, sub := 0x08, ty := .u32, acc := .rw, rsvd := 0xFFF00000, trg := 0xF0 },
  { base := 0x28C0, sub := 0x09, ty := .u16, acc := .rw },
  { base := 0x28C0, sub := 0x0A, ty := .u16, acc := .rw },
  { base := 0x28C0, sub := 0x0B, ty := (.dom 1 4096), acc := .wo },
  { base := 0x28C0, sub := 0x0C, ty := (.dom 1 4096), acc := .wo } ]

/-- Table SO-8. -/
def tblSO8 : List ObjDef := [
  { base := 0x2900, sub := 0x00, ty := .u8, acc := .const, dflt := 0x7 },
  { base := 0x2900, sub := 0x01, ty := .u32, acc := .rw, rsvd := 0xFFFFFF00, sts := 0x81, evt := 0x7E },
  { base := 0x2900, sub := 0x02, ty := (.str 64), acc := .ro },
  { base := 0x2900, sub := 0x03, ty := .u8, acc := .ro },
  { base := 0x2900, sub := 0x04, ty := .u16, acc := .ro },
  { base := 0x2900, sub := 0x05, ty := (.dom 0 4096), acc := .ro },
  { base := 0x2900, sub := 0x06, ty := (.dom 0 4096), acc := .ro },
  { base := 0x2900, sub := 0x07, ty := .u64, acc := .ro } ]

/-- Table SO-9. -/
def tblSO9 : List ObjDef := [
  { base := 0x2940, sub := 0x00, ty := .u8, acc := .const, dflt := 0xB },
  { base := 0x2940, sub := 0x01, ty := .u64, acc := .rw, whole := .cnt, wraps := true },
  { base := 0x2940, sub := 0x02, ty := .u64, acc := .rw, whole := .cnt, wraps := true },
  { base := 0x2940, sub := 0x03, ty := .u64, acc := .rw, whole := .cnt, wraps := true },
  { base := 0x2940, sub := 0x04, ty := .u64, acc := .rw, whole := .cnt, wraps := true },
  { base := 0x2940, sub := 0x05, ty := .u64, acc := .rw, whole := .cnt, wraps := true },
  { base := 0x2940, sub := 0x06, ty := .u64, acc := .rw, whole := .cnt, wraps := true },
  { base := 0x2940, sub := 0x07, ty := .u64, acc := .rw, whole := .cnt, wraps := true },
  { base := 0x2940, sub := 0x08, ty := .u64, acc := .rw, whole := .cnt, wraps := true },
  { base := 0x2940, sub := 0x09, ty := .u64, acc := .rw, whole := .cnt, wraps := true },
  { base := 0x2940, sub := 0x0A, ty := .u64, acc := .rw, whole := .cnt, wraps := true },
  { base := 0x2940, sub := 0x0B, ty := .u64, acc := .rw, whole := .cnt, wraps := true } ]

/-- Table SO-10. -/
def tblSO10 : List ObjDef := [
  { base := 0x2980, sub := 0x00, ty := .u8, acc := .const, dflt := 0x8 },
  { base := 0x2980, sub := 0x01, ty := .u32, acc := .rw, gen := true, dflt := 0x7, rsvd := 0xFFFFFF08 },
  { base := 0x2980, sub := 0x02, ty := (.str 64), acc := .rw, gen := true },
  { base := 0x2980, sub := 0x03, ty := (.str 64), acc := .rw, gen := true },
  { base := 0x2980, sub := 0x04, ty := (.str 64), acc := .rw, gen := true },
  { base := 0x2980, sub := 0x05, ty := (.str 64), acc := .rw, gen := true },
  { base := 0x2980, sub := 0x06, ty := .u32, acc := .rw, rsvd := 0xFFFF00E0, sts := 0x7F03, evt := 0x801C },
  { base := 0x2980, sub := 0x07, ty := (.str 64), acc := .ro },
  { base := 0x2980, sub := 0x08, ty := (.str 64), acc := .ro } ]

/-- Table MP-10. -/
def tblMP10 : List ObjDef := [
  { base := 0x3010, sub := 0x00, ty := .u8, acc := .const, dflt := 0x9 },
  { base := 0x3010, sub := 0x01, ty := .u8, acc := .rw, gen := true },
  { base := 0x3010, sub := 0x02, ty := .u8, acc := .rw, gen := true, dflt := 0x8, rsvd := 0xE0 },
  { base := 0x3010, sub := 0x03, ty := .u32, acc := .rw, dflt := 0x30000, rsvd := 0xFC00FC00, sts := 0x38F03FF, evt := 0x700000 },
  { base := 0x3010, sub := 0x04, ty := .u32, acc := .rw, whole := .cnt, wraps := true },
  { base := 0x3010, sub := 0x05, ty := .u32, acc := .rw, whole := .cnt, wraps := true },
  { base := 0x3010, sub := 0x06, ty := .u32, acc := .rw, whole := .cnt, wraps := true },
  { base := 0x3010, sub := 0x07, ty := .u32, acc := .rw, whole := .cnt, wraps := true },
  { base := 0x3010, sub := 0x08, ty := .u32, acc := .rw, whole := .cnt, wraps := true },
  { base := 0x3010, sub := 0x09, ty := .u32, acc := .rw, whole := .cnt, wraps := true } ]

/-- Table MP-11. -/
def tblMP11 : List ObjDef := [
  { base := 0x3400, sub := 0x00, ty := .u8, acc := .const, dflt := 0x2 },
  { base := 0x3400, sub := 0x01, ty := .u64, acc := .rw, gen := true },
  { base := 0x3400, sub := 0x02, ty := .u64, acc := .ro },
  { base := 0x3401, sub := 0x00, ty := .u8, acc := .const, dflt := 0x3 },
  { base := 0x3401, sub := 0x01, ty := .u32, acc := .rw },
  { base := 0x3401, sub := 0x02, ty := (.dom 8 4096), acc := .rw, gen := true },
  { base := 0x3401, sub := 0x03, ty := (.dom 0 4096), acc := .ro },
  { base := 0x3402, sub := 0x00, ty := .u8, acc := .const, dflt := 0x3 },
  { base := 0x3402, sub := 0x01, ty := .u32, acc := .ro },
  { base := 0x3402, sub := 0x02, ty := .u32, acc := .ro },
  { base := 0x3402, sub := 0x03, ty := .u32, acc := .ro },
  { base := 0x3440, sub := 0x00, ty := .u8, acc := .const, dflt := 0x2 },
  { base := 0x3440, sub := 0x01, ty := .u8, acc := .rw, gen := true, dflt := 0x2, rsvd := 0xFC },
  { base := 0x3440, sub := 0x02, ty := .u16, acc := .rw, rsvd := 0xF0, sts := 0xFF09, evt := 0x6 } ]

/-- Table PO-8. -/
def tblPO8 : List ObjDef := [
  { base := 0x3020, sub := 0x00, ty := .u8, acc := .const, dflt := 0x7 },
  { base := 0x3020, sub := 0x01, ty := .u32, acc := .rw, gen := true, dflt := 0x60000, rsvd := 0xFF01FFFF },
  { base := 0x3020, sub := 0x02, ty := .u16, acc := .rw, gen := true },
  { base := 0x3020, sub := 0x03, ty := .u16, acc := .rw, gen := true },
  { base := 0x3020, sub := 0x04, ty := .u8, acc := .rw, gen := true, dflt := 0x2 },
  { base := 0x3020, sub := 0x05, ty := .u8, acc := .rw, gen := true, dflt := 0x2 },
  { base := 0x3020, sub := 0x06, ty := .u8, acc := .rw },
  { base := 0x3020, sub := 0x07, ty := .u8, acc := .rw, rsvd := 0xF0, trg := 0x2 },
  { base := 0x3021, sub := 0x00, ty := .u8, acc := .const, dflt := 0x6 },
  { base := 0x3021, sub := 0x01, ty := .u32, acc := .rw, rsvd := 0xFFFF0000, sts := 0xFFE0, evt := 0x1F },
  { base := 0x3021, sub := 0x02, ty := .u8, acc := .ro },
  { base := 0x3021, sub := 0x03, ty := .u8, acc := .ro },
  { base := 0x3021, sub := 0x04, ty := .u32, acc := .ro },
  { base := 0x3021, sub := 0x05, ty := .u8, acc := .rw, whole := .trg },
  { base := 0x3021, sub := 0x06, ty := (.str 64), acc := .ro },
  { base := 0x3022, sub := 0x00, ty := .u8, acc := .const, dflt := 0x2 },
  { base := 0x3022, sub := 0x01, ty := .u32, acc := .rw, whole := .cnt, wraps := true },
  { base := 0x3022, sub := 0x02, ty := .u32, acc := .rw, whole := .cnt, wraps := true },
  { base := 0x3023, sub := 0x00, ty := .u8, acc := .const, dflt := 0x4 },
  { base := 0x3023, sub := 0x01, ty := .time, acc := .ro },
  { base := 0x3023, sub := 0x02, ty := .time, acc := .ro },
  { base := 0x3023, sub := 0x03, ty := .u32, acc := .ro },
  { base := 0x3023, sub := 0x04, ty := .u32, acc := .ro } ]

/-- Table PO-9. -/
def tblPO9 : List ObjDef := [
  { base := 0x3100, sub := 0x00, ty := .u8, acc := .const, dflt := 0x2 },
  { base := 0x3100, sub := 0x01, ty := .u16, acc := .rw },
  { base := 0x3100, sub := 0x02, ty := (.str 64), acc := .rw, gen := true } ]

/-- Table DF-5. -/
def tblDF5 : List ObjDef := [
  { base := 0x3030, sub := 0x00, ty := .u8, acc := .const, dflt := 0x1 },
  { base := 0x3030, sub := 0x01, ty := .u32, acc := .rw, gen := true, dflt := 0x561C, rsvd := 0xFFFF0003 },
  { base := 0x3031, sub := 0x00, ty := .u8, acc := .const, dflt := 0x5 },
  { base := 0x3031, sub := 0x01, ty := .u32, acc := .ro, rsvd := 0xF0000000, sts := 0xFFFFFFF },
  { base := 0x3031, sub := 0x02, ty := .u32, acc := .ro, rsvd := 0xF0000000, sts := 0xFFFFFFF },
  { base := 0x3031, sub := 0x03, ty := .u32, acc := .rw, rsvd := 0xF0000000, evt := 0xFFFFFFF },
  { base := 0x3031, sub := 0x04, ty := .u8, acc := .ro, rsvd := 0x1, sts := 0xFE },
  { base := 0x3031, sub := 0x05, ty := .time, acc := .ro },
  { base := 0x3110, sub := 0x00, ty := .u8, acc := .const, dflt := 0x3 },
  { base := 0x3110, sub := 0x01, ty := .u64, acc := .ro },
  { base := 0x3110, sub := 0x02, ty := .u32, acc := .ro },
  { base := 0x3110, sub := 0x03, ty := .u32, acc := .ro } ]

/-- Table PF-8. -/
def tblPF8 : List ObjDef := [
  { base := 0x3800, sub := 0x00, ty := .u8, acc := .const, dflt := 0x4 },
  { base := 0x3800, sub := 0x01, ty := .u8, acc := .rw },
  { base := 0x3800, sub := 0x02, ty := (.str 64), acc := .ro },
  { base := 0x3800, sub := 0x03, ty := .u16, acc := .ro, sts := 0xFF07 },
  { base := 0x3800, sub := 0x04, ty := .u8, acc := .rw, whole := .trg },
  { base := 0x3804, sub := 0x00, ty := .u8, acc := .const, dflt := 0x2 },
  { base := 0x3804, sub := 0x01, ty := .u32, acc := .rw },
  { base := 0x3804, sub := 0x02, ty := (.dom 64 4096), acc := .ro } ]

/-- Table PF-9. -/
def tblPF9 : List ObjDef := [
  { base := 0x3880, sub := 0x00, ty := .u8, acc := .const, dflt := 0x6 },
  { base := 0x3880, sub := 0x01, ty := .u8, acc := .rw, gen := true, rsvd := 0xFC },
  { base := 0x3880, sub := 0x02, ty := .u32, acc := .rw, whole := .hwrw },
  { base := 0x3880, sub := 0x03, ty := .u16, acc := .rw, rsvd := 0xFF0C, sts := 0x3, evt := 0xF0 },
  { base := 0x3880, sub := 0x04, ty := .time, acc := .ro },
  { base := 0x3880, sub := 0x05, ty := .u32, acc := .ro },
  { base := 0x3880, sub := 0x06, ty := .u32, acc := .rw, whole := .cnt, wraps := true },
  { base := 0x3881, sub := 0x00, ty := .u8, acc := .const, dflt := 0x20 },
  { base := 0x3881, sub := 0x01, ty := (.str 16), acc := .ro },
  { base := 0x3881, sub := 0x02, ty := (.str 16), acc := .ro },
  { base := 0x3881, sub := 0x03, ty := (.str 16), acc := .ro },
  { base := 0x3881, sub := 0x04, ty := (.str 16), acc := .ro },
  { base := 0x3881, sub := 0x05, ty := (.str 16), acc := .ro },
  { base := 0x3881, sub := 0x06, ty := (.str 16), acc := .ro },
  { base := 0x3881, sub := 0x07, ty := (.str 16), acc := .ro },
  { base := 0x3881, sub := 0x08, ty := (.str 16), acc := .ro },
  { base := 0x3881, sub := 0x09, ty := (.str 16), acc := .ro },
  { base := 0x3881, sub := 0x0A, ty := (.str 16), acc := .ro },
  { base := 0x3881, sub := 0x0B, ty := (.str 16), acc := .ro },
  { base := 0x3881, sub := 0x0C, ty := (.str 16), acc := .ro },
  { base := 0x3881, sub := 0x0D, ty := (.str 16), acc := .ro },
  { base := 0x3881, sub := 0x0E, ty := (.str 16), acc := .ro },
  { base := 0x3881, sub := 0x0F, ty := (.str 16), acc := .ro },
  { base := 0x3881, sub := 0x10, ty := (.str 16), acc := .ro },
  { base := 0x3881, sub := 0x11, ty := (.str 16), acc := .ro },
  { base := 0x3881, sub := 0x12, ty := (.str 16), acc := .ro },
  { base := 0x3881, sub := 0x13, ty := (.str 16), acc := .ro },
  { base := 0x3881, sub := 0x14, ty := (.str 16), acc := .ro },
  { base := 0x3881, sub := 0x15, ty := (.str 16), acc := .ro },
  { base := 0x3881, sub := 0x16, ty := (.str 16), acc := .ro },
  { base := 0x3881, sub := 0x17, ty := (.str 16), acc := .ro },
  { base := 0x3881, sub := 0x18, ty := (.str 16), acc := .ro },
  { base := 0x3881, sub := 0x19, ty := (.str 16), acc := .ro },
  { base := 0x3881, sub := 0x1A, ty := (.str 16), acc := .ro },
  { base := 0x3881, sub := 0x1B, ty := (.str 16), acc := .ro },
  { base := 0x3881, sub := 0x1C, ty := (.str 16), acc := .ro },
  { base := 0x3881, sub := 0x1D, ty := (.str 16), acc := .ro },
  { base := 0x3881, sub := 0x1E, ty := (.str 16), acc := .ro },
  { base := 0x3881, sub := 0x1F, ty := (.str 16), acc := .ro },
  { base := 0x3881, sub := 0x20, ty := (.str 16), acc := .ro } ]

/-- Table PF-10. -/
def tblPF10 : List ObjDef := [
  { base := 0x3840, sub := 0x00, ty := .u8, acc := .const, dflt := 0xC },
  { base := 0x3840, sub := 0x01, ty := .u32, acc := .rw, gen := true, dflt := 0x3840000, rsvd := 0xF0000000 },
  { base := 0x3840, sub := 0x02, ty := .u16, acc := .rw, gen := true },
  { base := 0x3840, sub := 0x03, ty := .u16, acc := .rw, gen := true },
  { base := 0x3840, sub := 0x04, ty := .u32, acc := .rw, whole := .cnt },
  { base := 0x3840, sub := 0x05, ty := .u32, acc := .rw, whole := .cnt },
  { base := 0x3840, sub := 0x06, ty := .u32, acc := .rw, whole := .cnt },
  { base := 0x3840, sub := 0x07, ty := .u32, acc := .rw, whole := .cnt },
  { base := 0x3840, sub := 0x08, ty := .u8, acc := .rw, rsvd := 0xC0, sts := 0x7, evt := 0x38 },
  { base := 0x3840, sub := 0x09, ty := .u32, acc := .ro, dflt := 0xFFFFFFFF },
  { base := 0x3840, sub := 0x0A, ty := .u32, acc := .ro },
  { base := 0x3840, sub := 0x0B, ty := .u32, acc := .ro },
  { base := 0x3840, sub := 0x0C, ty := .u8, acc := .rw, whole := .trg } ]

/-- Table PS-11. -/
def tblPS11 : List ObjDef := [
  { base := 0x29C0, sub := 0x00, ty := .u8, acc := .const, dflt := 0x9 },
  { base := 0x29C0, sub := 0x01, ty := .u32, acc := .rw, gen := true, dflt := 0x5000717, rsvd := 0x1000C0C0 },
  { base := 0x29C0, sub := 0x02, ty := .u8, acc := .rw, gen := true },
  { base := 0x29C0, sub := 0x03, ty := .u8, acc := .rw },
  { base := 0x29C0, sub := 0x04, ty := .u32, acc := .rw, rsvd := 0xFF008000, sts := 0xEF1FFF, evt := 0x106000 },
  { base := 0x29C0, sub := 0x05, ty := .u16, acc := .ro },
  { base := 0x29C0, sub := 0x06, ty := .u32, acc := .rw, whole := .cnt, wraps := true },
  { base := 0x29C0, sub := 0x07, ty := .time, acc := .ro },
  { base := 0x29C0, sub := 0x08, ty := .u16, acc := .ro },
  { base := 0x29C0, sub := 0x09, ty := .u32, acc := .rw, whole := .cnt, wraps := true } ]

/-- Table PS-12. -/
def tblPS12 : List ObjDef := [
  { base := 0x3040, sub := 0x00, ty := .u8, acc := .const, dflt := 0x3 },
  { base := 0x3040, sub := 0x01, ty := .u32, acc := .rw, gen := true, dflt := 0x5010F1F, rsvd := 0xF000C0C0 },
  { base := 0x3040, sub := 0x02, ty := .path, acc := .rw, gen := true },
  { base := 0x3040, sub := 0x03, ty := .u8, acc := .rw },
  { base := 0x3041, sub := 0x00, ty := .u8, acc := .const, dflt := 0x4 },
  { base := 0x3041, sub := 0x01, ty := .u16, acc := .rw, rsvd := 0x8000, sts := 0x1FFF, evt := 0x6000 },
  { base := 0x3041, sub := 0x02, ty := .u32, acc := .rw, whole := .cnt, wraps := true },
  { base := 0x3041, sub := 0x03, ty := .time, acc := .ro },
  { base := 0x3041, sub := 0x04, ty := .u16, acc := .ro } ]

/-- Table PS-13. -/
def tblPS13 : List ObjDef := [
  { base := 0x3120, sub := 0x00, ty := .u8, acc := .const, dflt := 0x4 },
  { base := 0x3120, sub := 0x01, ty := .u32, acc := .ro },
  { base := 0x3120, sub := 0x02, ty := .u32, acc := .rw, whole := .cnt, wraps := true },
  { base := 0x3120, sub := 0x03, ty := .u32, acc := .ro },
  { base := 0x3120, sub := 0x04, ty := .time, acc := .ro } ]

/-- Table CL-7. -/
def tblCL7 : List ObjDef := [
  { base := 0x3C00, sub := 0x00, ty := .u8, acc := .const, dflt := 0x7 },
  { base := 0x3C00, sub := 0x01, ty := .u32, acc := .rw, gen := true, rsvd := 0xFF0FFFF0 },
  { base := 0x3C00, sub := 0x02, ty := .path, acc := .ro },
  { base := 0x3C00, sub := 0x03, ty := .u32, acc := .rw, rsvd := 0xFFFF1E00, sts := 0x1FF, evt := 0xE000 },
  { base := 0x3C00, sub := 0x04, ty := .u8, acc := .rw, rsvd := 0xFC },
  { base := 0x3C00, sub := 0x05, ty := .u32, acc := .rw, whole := .cnt, wraps := true },
  { base := 0x3C00, sub := 0x06, ty := .i32, acc := .ro, dflt := 0x80000000 },
  { base := 0x3C00, sub := 0x07, ty := .u32, acc := .ro } ]

/-- Table CL-8. -/
def tblCL8 : List ObjDef := [
  { base := 0x3C20, sub := 0x00, ty := .u8, acc := .const, dflt := 0xC },
  { base := 0x3C20, sub := 0x01, ty := .u16, acc := .rw, gen := true, dflt := 0x200, rsvd := 0xE0FC },
  { base := 0x3C20, sub := 0x02, ty := .u16, acc := .rw, gen := true, dflt := 0x7D0 },
  { base := 0x3C20, sub := 0x03, ty := .u32, acc := .rw, gen := true },
  { base := 0x3C20, sub := 0x04, ty := .u32, acc := .rw, gen := true },
  { base := 0x3C20, sub := 0x05, ty := .u32, acc := .rw, gen := true, dflt := 0x7D0 },
  { base := 0x3C20, sub := 0x06, ty := .u16, acc := .rw, rsvd := 0x3F8, sts := 0x8C07, evt := 0x7000 },
  { base := 0x3C20, sub := 0x07, ty := .u32, acc := .ro },
  { base := 0x3C20, sub := 0x08, ty := .u32, acc := .ro },
  { base := 0x3C20, sub := 0x09, ty := .i32, acc := .ro, dflt := 0x80000000 },
  { base := 0x3C20, sub := 0x0A, ty := .i32, acc := .ro },
  { base := 0x3C20, sub := 0x0B, ty := (.str 16), acc := .ro },
  { base := 0x3C20, sub := 0x0C, ty := (.str 16), acc := .rw } ]

/-- Table TF-8. -/
def tblTF8 : List ObjDef := [
  { base := 0x3050, sub := 0x00, ty := .u8, acc := .const, dflt := 0x1 },
  { base := 0x3050, sub := 0x01, ty := .u8, acc := .rw, gen := true, dflt := 0x9, rsvd := 0xE0 },
  { base := 0x3051, sub := 0x00, ty := .u8, acc := .const, dflt := 0x4 },
  { base := 0x3051, sub := 0x01, ty := .u16, acc := .rw, rsvd := 0xFFC8, sts := 0x7, evt := 0x30 },
  { base := 0x3051, sub := 0x02, ty := .u32, acc := .rw, whole := .cnt, wraps := true },
  { base := 0x3051, sub := 0x03, ty := .u32, acc := .rw, whole := .cnt, wraps := true },
  { base := 0x3051, sub := 0x04, ty := .u32, acc := .rw, whole := .cnt, wraps := true } ]

/-- Table TF-9. -/
def tblTF9 : List ObjDef := [
  { base := 0x3E00, sub := 0x00, ty := .u8, acc := .const, dflt := 0x7 },
  { base := 0x3E00, sub := 0x01, ty := .u8, acc := .rw, gen := true, rsvd := 0xF8 },
  { base := 0x3E00, sub := 0x02, ty := .u32, acc := .rw, gen := true, dflt := 0x83004, rsvd := 0xFFE0C0F0 },
  { base := 0x3E00, sub := 0x03, ty := .u32, acc := .rw, dflt := 0x2000000, rsvd := 0x70000001, evt := 0x80000000, hwrw := 0x3FFFFFE },
  { base := 0x3E00, sub := 0x04, ty := .u16, acc := .rw, dflt := 0x6, rsvd := 0xF821, sts := 0x45E, evt := 0x380 },
  { base := 0x3E00, sub := 0x05, ty := .u16, acc := .ro },
  { base := 0x3E00, sub := 0x06, ty := .u16, acc := .ro },
  { base := 0x3E00, sub := 0x07, ty := .u16, acc := .ro },
  { base := 0x3E20, sub := 0x00, ty := .u8, acc := .const, dflt := 0xB },
  { base := 0x3E20, sub := 0x01, ty := .u32, acc := .rw, whole := .cnt, wraps := true },
  { base := 0x3E20, sub := 0x02, ty := .u32, acc := .rw, whole := .cnt, wraps := true },
  { base := 0x3E20, sub := 0x03, ty := .u32, acc := .rw, whole := .cnt, wraps := true },
  { base := 0x3E20, sub := 0x04, ty := .u32, acc := .rw, whole := .cnt, wraps := true },
  { base := 0x3E20, sub := 0x05, ty := .u32, acc := .rw, whole := .cnt, wraps := true },
  { base := 0x3E20, sub := 0x06, ty := .u32, acc := .rw, whole := .cnt, wraps := true },
  { base := 0x3E20, sub := 0x07, ty := .u32, acc := .rw, whole := .cnt, wraps := true },
  { base := 0x3E20, sub := 0x08, ty := .u32, acc := .rw, whole := .cnt, wraps := true },
  { base := 0x3E20, sub := 0x09, ty := .u64, acc := .rw, whole := .cnt, wraps := true },
  { base := 0x3E20, sub := 0x0A, ty := .u64, acc := .rw, whole := .cnt, wraps := true },
  { base := 0x3E20, sub := 0x0B, ty := .u32, acc := .rw, whole := .cnt, wraps := true } ]

/-- Table TF-10. -/
def tblTF10 : List ObjDef := [
  { base := 0x3E40, sub := 0x00, ty := .u8, acc := .const, dflt := 0x2 },
  { base := 0x3E40, sub := 0x01, ty := .u32, acc := .rw, evt := 0xFFFFFFFF },
  { base := 0x3E40, sub := 0x02, ty := .u32, acc := .ro, sts := 0xFFFFFFFF } ]

/-- Table PA-8. -/
def tblPA8 : List ObjDef := [
  { base := 0x2500, sub := 0x00, ty := .u8, acc := .const, dflt := 0x7 },
  { base := 0x2500, sub := 0x01, ty := .u32, acc := .rw, rsvd := 0xF0200000, sts := 0x1FFFFF, evt := 0xFC00000 },
  { base := 0x2500, sub := 0x02, ty := .u32, acc := .ro },
  { base := 0x2500, sub := 0x03, ty := .u32, acc := .ro },
  { base := 0x2500, sub := 0x04, ty := .u32, acc := .ro },
  { base := 0x2500, sub := 0x05, ty := .u8, acc := .ro },
  { base := 0x2500, sub := 0x06, ty := .u32, acc := .ro },
  { base := 0x2500, sub := 0x07, ty := .u16, acc := .ro, sts := 0x1F0F } ]

/-- Table PA-10b. -/
def tblPA10b : List ObjDef := [
  { base := 0x2501, sub := 0x00, ty := .u8, acc := .const, dflt := 0x42 },
  { base := 0x2501, sub := 0x01, ty := .u32, acc := .rw, guard := true, dflt := 0x2, rsvd := 0xFFFFFEFC, trg := 0x100 },
  { base := 0x2501, sub := 0x02, ty := .u8, acc := .rw, guard := true },
  { base := 0x2501, sub := 0x41, ty := .u32, acc := .wo, guard := true },
  { base := 0x2501, sub := 0x42, ty := .u8, acc := .wo, guard := true } ]

/-- Table PA-13. -/
def tblPA13 : List ObjDef := [
  { base := 0x2502, sub := 0x00, ty := .u8, acc := .const, dflt := 0x3 },
  { base := 0x2502, sub := 0x01, ty := .u16, acc := .rw, dflt := 0x12C },
  { base := 0x2502, sub := 0x02, ty := .u16, acc := .ro },
  { base := 0x2502, sub := 0x03, ty := .u16, acc := .rw, dflt := 0xA },
  { base := 0x2503, sub := 0x00, ty := .u8, acc := .const, dflt := 0x6 },
  { base := 0x2503, sub := 0x01, ty := .u32, acc := .rw, whole := .cnt, wraps := true },
  { base := 0x2503, sub := 0x02, ty := .time, acc := .ro },
  { base := 0x2503, sub := 0x03, ty := .u8, acc := .ro },
  { base := 0x2503, sub := 0x04, ty := .u32, acc := .rw, whole := .cnt, wraps := true },
  { base := 0x2503, sub := 0x05, ty := .u32, acc := .rw, whole := .cnt, wraps := true },
  { base := 0x2503, sub := 0x06, ty := .u32, acc := .rw, whole := .cnt, wraps := true },
  { base := 0x2504, sub := 0x00, ty := .u8, acc := .const, dflt := 0x6 },
  { base := 0x2504, sub := 0x01, ty := .u8, acc := .ro, sts := 0x7 },
  { base := 0x2504, sub := 0x02, ty := .u32, acc := .rw },
  { base := 0x2504, sub := 0x03, ty := .u64, acc := .ro },
  { base := 0x2504, sub := 0x04, ty := .u64, acc := .ro },
  { base := 0x2504, sub := 0x05, ty := .u32, acc := .ro },
  { base := 0x2504, sub := 0x06, ty := .u32, acc := .ro },
  { base := 0x2508, sub := 0x00, ty := .u8, acc := .const, dflt := 0x3 },
  { base := 0x2508, sub := 0x01, ty := .u32, acc := .rw, dflt := 0x83004, rsvd := 0xFFE0C0F0 },
  { base := 0x2508, sub := 0x02, ty := .u32, acc := .rw, dflt := 0x2000000, rsvd := 0x70000001, evt := 0x80000000, hwrw := 0x3FFFFFE },
  { base := 0x2508, sub := 0x03, ty := .u16, acc := .rw, dflt := 0x6, rsvd := 0xFDF1, sts := 0xE, evt := 0x200 } ]

/-- Table MO-10. -/
def tblMO10 : List ObjDef := [
  { base := 0x2000, sub := 0x00, ty := .u8, acc := .const, dflt := 0x5 },
  { base := 0x2000, sub := 0x01, ty := .u32, acc := .rw, dflt := 0x111, rsvd := 0xFF00F888, sts := 0xF0777, evt := 0xF00000 },
  { base := 0x2000, sub := 0x02, ty := .time, acc := .ro },
  { base := 0x2000, sub := 0x03, ty := .u8, acc := .ro },
  { base := 0x2000, sub := 0x04, ty := .u32, acc := .ro, sts := 0xFFFF07 },
  { base := 0x2000, sub := 0x05, ty := .u32, acc := .rw, whole := .cnt, wraps := true },
  { base := 0x2001, sub := 0x00, ty := .u8, acc := .const, dflt := 0x43 },
  { base := 0x2001, sub := 0x01, ty := .u8, acc := .rw, dflt := 0x1 },
  { base := 0x2001, sub := 0x02, ty := .u8, acc := .rw, guard := true },
  { base := 0x2001, sub := 0x03, ty := .u8, acc := .rw, guard := true },
  { base := 0x2001, sub := 0x04, ty := .u8, acc := .rw, rsvd := 0xF8 },
  { base := 0x2001, sub := 0x42, ty := .u8, acc := .wo, guard := true },
  { base := 0x2001, sub := 0x43, ty := .u8, acc := .wo, guard := true } ]

/-- Table CK-8. -/
def tblCK8 : List ObjDef := [
  { base := 0x2100, sub := 0x00, ty := .u8, acc := .const, dflt := 0x6 },
  { base := 0x2100, sub := 0x01, ty := .u32, acc := .rw, rsvd := 0xFF0FF080, sts := 0xF7F, evt := 0xF00000 },
  { base := 0x2100, sub := 0x02, ty := .u32, acc := .rw, sts := 0xFFFF, evt := 0xFFFF0000 },
  { base := 0x2100, sub := 0x03, ty := .i32, acc := .ro, dflt := 0x80000000 },
  { base := 0x2100, sub := 0x04, ty := .i32, acc := .ro, dflt := 0x80000000 },
  { base := 0x2100, sub := 0x05, ty := .u32, acc := .rw, whole := .cnt, wraps := true },
  { base := 0x2100, sub := 0x06, ty := .u32, acc := .rw, whole := .cnt, wraps := true },
  { base := 0x2101, sub := 0x00, ty := .u8, acc := .const, dflt := 0x1 },
  { base := 0x2101, sub := 0x01, ty := .u8, acc := .rw, gen := true, dflt := 0x7, rsvd := 0xF0 },
  { base := 0x2102, sub := 0x00, ty := .u8, acc := .const, dflt := 0x41 },
  { base := 0x2102, sub := 0x01, ty := .u8, acc := .rw, guard := true },
  { base := 0x2102, sub := 0x41, ty := .u8, acc := .wo, guard := true },
  { base := 0x2103, sub := 0x00, ty := .u8, acc := .const, dflt := 0x4 },
  { base := 0x2103, sub := 0x01, ty := .u16, acc := .rw, dflt := 0xA, rsvd := 0xF280, sts := 0x17F, evt := 0xC00 },
  { base := 0x2103, sub := 0x02, ty := .u8, acc := .rw, whole := .trg },
  { base := 0x2103, sub := 0x03, ty := .u16, acc := .ro },
  { base := 0x2103, sub := 0x04, ty := .u32, acc := .rw, whole := .cnt, wraps := true },
  { base := 0x2104, sub := 0x00, ty := .u8, acc := .const, dflt := 0x2 },
  { base := 0x2104, sub := 0x01, ty := .u32, acc := .rw, gen := true, dflt := 0xF0061A8, rsvd := 0x60000000 },
  { base := 0x2104, sub := 0x02, ty := .u32, acc := .rw, gen := true, dflt := 0xF0061A8, rsvd := 0x60000000 },
  { base := 0x2105, sub := 0x00, ty := .u8, acc := .const, dflt := 0x3 },
  { base := 0x2105, sub := 0x01, ty := .time, acc := .ro },
  { base := 0x2105, sub := 0x02, ty := .i32, acc := .wo },
  { base := 0x2105, sub := 0x03, ty := .u8, acc := .rw, rsvd := 0xF8, sts := 0x3, evt := 0x4 },
  { base := 0x2110, sub := 0x00, ty := .u8, acc := .const, dflt := 0x41 },
  { base := 0x2110, sub := 0x01, ty := .u32, acc := .rw, guard := true, dflt := 0xFFFFFFF, rsvd := 0xF0000000 },
  { base := 0x2110, sub := 0x02, ty := .u32, acc := .ro, dflt := 0xFFFFFFF },
  { base := 0x2110, sub := 0x41, ty := .u32, acc := .wo, guard := true } ]

/-- Table FC-6. -/
def tblFC6 : List ObjDef := [
  { base := 0x2300, sub := 0x00, ty := .u8, acc := .const, dflt := 0x6 },
  { base := 0x2300, sub := 0x01, ty := .u32, acc := .ro },
  { base := 0x2300, sub := 0x02, ty := .u32, acc := .ro, dflt := 0xFFFFFFFF },
  { base := 0x2300, sub := 0x03, ty := .u16, acc := .ro },
  { base := 0x2300, sub := 0x04, ty := .u32, acc := .rw, whole := .cnt, wraps := true },
  { base := 0x2300, sub := 0x05, ty := .u32, acc := .rw, whole := .cnt, wraps := true },
  { base := 0x2300, sub := 0x06, ty := .u32, acc := .ro },
  { base := 0x2301, sub := 0x00, ty := .u8, acc := .const, dflt := 0x1 },
  { base := 0x2301, sub := 0x01, ty := .u32, acc := .wo },
  { base := 0x2303, sub := 0x00, ty := .u8, acc := .const, dflt := 0x8 },
  { base := 0x2303, sub := 0x01, ty := .u32, acc := .rw, whole := .cnt },
  { base := 0x2303, sub := 0x02, ty := .u32, acc := .rw, whole := .cnt },
  { base := 0x2303, sub := 0x03, ty := .u32, acc := .rw, whole := .cnt },
  { base := 0x2303, sub := 0x04, ty := .u32, acc := .rw, whole := .cnt },
  { base := 0x2303, sub := 0x05, ty := .u32, acc := .rw, whole := .cnt },
  { base := 0x2303, sub := 0x06, ty := .u32, acc := .rw, whole := .cnt },
  { base := 0x2303, sub := 0x07, ty := .u32, acc := .rw, whole := .cnt },
  { base := 0x2303, sub := 0x08, ty := .u32, acc := .rw, whole := .cnt } ]

/-- Table FC-7. -/
def tblFC7 : List ObjDef := [
  { base := 0x2310, sub := 0x00, ty := .u8, acc := .const, dflt := 0x2 },
  { base := 0x2310, sub := 0x01, ty := .u8, acc := .rw, rsvd := 0xF0, sts := 0x6, evt := 0x8, hwrw := 0x1 },
  { base := 0x2310, sub := 0x02, ty := .u16, acc := .rw, dflt := 0x64 } ]

/-- Table FC-8. -/
def tblFC8 : List ObjDef := [
  { base := 0x2320, sub := 0x00, ty := .u8, acc := .const, dflt := 0x5 },
  { base := 0x2320, sub := 0x01, ty := .u32, acc := .rw, rsvd := 0xFFFE0000 },
  { base := 0x2320, sub := 0x02, ty := .u8, acc := .rw, whole := .trg },
  { base := 0x2320, sub := 0x03, ty := .bool, acc := .rw },
  { base := 0x2320, sub := 0x04, ty := .path, acc := .rw },
  { base := 0x2320, sub := 0x05, ty := .u32, acc := .rw },
  { base := 0x2330, sub := 0x00, ty := .u8, acc := .const, dflt := 0x1 },
  { base := 0x2330, sub := 0x01, ty := (.dom 0 1024), acc := .ro } ]

/-- Table FC-9. -/
def tblFC9 : List ObjDef := [
  { base := 0x2340, sub := 0x00, ty := .u8, acc := .const, dflt := 0x43 },
  { base := 0x2340, sub := 0x01, ty := .u8, acc := .rw },
  { base := 0x2340, sub := 0x02, ty := .u32, acc := .rw },
  { base := 0x2340, sub := 0x03, ty := .u8, acc := .rw, guard := true, rsvd := 0xF0 },
  { base := 0x2340, sub := 0x43, ty := .u8, acc := .wo, guard := true } ]

/-- Table CV-6. -/
def tblCV6 : List ObjDef := [
  { base := 0x2400, sub := 0x00, ty := .u8, acc := .const, dflt := 0x1 },
  { base := 0x2400, sub := 0x01, ty := .u16, acc := .rw, rsvd := 0xF080, sts := 0x17F, evt := 0xE00 },
  { base := 0x2401, sub := 0x00, ty := .u8, acc := .const, dflt := 0x3 },
  { base := 0x2401, sub := 0x01, ty := .u8, acc := .ro },
  { base := 0x2401, sub := 0x02, ty := .u32, acc := .rw, dflt := 0xFFFFFFFF },
  { base := 0x2401, sub := 0x03, ty := .u32, acc := .ro },
  { base := 0x2410, sub := 0x00, ty := .u8, acc := .const, dflt := 0x5 },
  { base := 0x2410, sub := 0x01, ty := .u32, acc := .rw },
  { base := 0x2410, sub := 0x02, ty := .u32, acc := .rw, dflt := 0x40 },
  { base := 0x2410, sub := 0x03, ty := .u8, acc := .rw, dflt := 0x1, rsvd := 0xC0, trg := 0x30 },
  { base := 0x2410, sub := 0x04, ty := .u16, acc := .ro, sts := 0x3F7 },
  { base := 0x2410, sub := 0x05, ty := .u32, acc := .ro },
  { base := 0x2420, sub := 0x00, ty := .u8, acc := .const, dflt := 0x6 },
  { base := 0x2420, sub := 0x01, ty := .u16, acc := .rw, dflt := 0xA },
  { base := 0x2420, sub := 0x02, ty := .u32, acc := .rw, whole := .cnt, wraps := true },
  { base := 0x2420, sub := 0x03, ty := .u32, acc := .rw, whole := .cnt, wraps := true },
  { base := 0x2420, sub := 0x04, ty := .u32, acc := .ro },
  { base := 0x2420, sub := 0x05, ty := .time, acc := .ro },
  { base := 0x2420, sub := 0x06, ty := .u32, acc := .rw, whole := .cnt, wraps := true } ]

/-- Table SE-9. -/
def tblSE9 : List ObjDef := [
  { base := 0x2200, sub := 0x00, ty := .u8, acc := .const, dflt := 0x9 },
  { base := 0x2200, sub := 0x01, ty := .u8, acc := .ro },
  { base := 0x2200, sub := 0x02, ty := .u8, acc := .ro },
  { base := 0x2200, sub := 0x03, ty := .u16, acc := .rw, rsvd := 0xF0E0, sts := 0x1F, evt := 0xF00 },
  { base := 0x2200, sub := 0x04, ty := .u8, acc := .ro },
  { base := 0x2200, sub := 0x05, ty := (.str 32), acc := .ro },
  { base := 0x2200, sub := 0x06, ty := (.str 32), acc := .ro },
  { base := 0x2200, sub := 0x07, ty := (.str 57), acc := .ro },
  { base := 0x2200, sub := 0x08, ty := (.str 32), acc := .ro },
  { base := 0x2200, sub := 0x09, ty := (.str 64), acc := .ro },
  { base := 0x2201, sub := 0x00, ty := .u8, acc := .const, dflt := 0x44 },
  { base := 0x2201, sub := 0x01, ty := .u8, acc := .rw, guard := true },
  { base := 0x2201, sub := 0x02, ty := .u8, acc := .rw, guard := true },
  { base := 0x2201, sub := 0x03, ty := .u8, acc := .rw, guard := true },
  { base := 0x2201, sub := 0x04, ty := .u8, acc := .rw, guard := true },
  { base := 0x2201, sub := 0x41, ty := .u8, acc := .wo, guard := true },
  { base := 0x2201, sub := 0x42, ty := .u8, acc := .wo, guard := true },
  { base := 0x2201, sub := 0x43, ty := .u8, acc := .wo, guard := true },
  { base := 0x2201, sub := 0x44, ty := .u8, acc := .wo, guard := true },
  { base := 0x2202, sub := 0x00, ty := .u8, acc := .const, dflt := 0x41 },
  { base := 0x2202, sub := 0x01, ty := .u8, acc := .rw, gen := true, guard := true, dflt := 0x3, rsvd := 0xFC },
  { base := 0x2202, sub := 0x41, ty := .u8, acc := .wo, gen := true, guard := true },
  { base := 0x2210, sub := 0x00, ty := .u8, acc := .const, dflt := 0x2 },
  { base := 0x2210, sub := 0x01, ty := .u8, acc := .rw, whole := .trg },
  { base := 0x2210, sub := 0x02, ty := .u32, acc := .ro },
  { base := 0x2211, sub := 0x00, ty := .u8, acc := .const, dflt := 0x2 },
  { base := 0x2211, sub := 0x01, ty := .u8, acc := .rw, whole := .trg },
  { base := 0x2211, sub := 0x02, ty := (.str 32), acc := .ro },
  { base := 0x2212, sub := 0x00, ty := .u8, acc := .const, dflt := 0x2 },
  { base := 0x2212, sub := 0x01, ty := (.dom 278 278), acc := .wo },
  { base := 0x2212, sub := 0x02, ty := .u8, acc := .ro },
  { base := 0x2220, sub := 0x00, ty := .u8, acc := .const, dflt := 0x6 },
  { base := 0x2220, sub := 0x01, ty := .u8, acc := .rw, whole := .trg },
  { base := 0x2220, sub := 0x02, ty := (.str 32), acc := .ro },
  { base := 0x2220, sub := 0x03, ty := (.dom 171 171), acc := .wo },
  { base := 0x2220, sub := 0x04, ty := .u16, acc := .ro },
  { base := 0x2220, sub := 0x05, ty := .u8, acc := .rw, whole := .trg },
  { base := 0x2220, sub := 0x06, ty := .u32, acc := .rw, whole := .cnt, wraps := true },
  { base := 0x2230, sub := 0x00, ty := .u8, acc := .const, dflt := 0x3 },
  { base := 0x2230, sub := 0x01, ty := (.dom 0 32), acc := .wo },
  { base := 0x2230, sub := 0x02, ty := (.dom 306 306), acc := .ro },
  { base := 0x2230, sub := 0x03, ty := .u64, acc := .ro } ]

/-- Table PK-9. -/
def tblPK9 : List ObjDef := [
  { base := 0x2700, sub := 0x00, ty := .u8, acc := .const, dflt := 0x2 },
  { base := 0x2700, sub := 0x01, ty := .u16, acc := .ro, sts := 0xFFF },
  { base := 0x2700, sub := 0x02, ty := .u8, acc := .ro },
  { base := 0x2701, sub := 0x00, ty := .u8, acc := .const, dflt := 0x5 },
  { base := 0x2701, sub := 0x01, ty := .u8, acc := .rw, gen := true, dflt := 0xFF },
  { base := 0x2701, sub := 0x02, ty := .u8, acc := .rw, gen := true, dflt := 0xFF },
  { base := 0x2701, sub := 0x03, ty := .u8, acc := .rw, gen := true, dflt := 0xFF },
  { base := 0x2701, sub := 0x04, ty := .u8, acc := .rw, gen := true, dflt := 0xFF },
  { base := 0x2701, sub := 0x05, ty := .u8, acc := .rw, gen := true } ]

/-- Every object of the dictionary (R437). -/
def objTable : List ObjDef :=
  tblDI7 ++ tblDI10 ++ tblDI11 ++ tblPV8 ++ tblLN4 ++ tblFA6 ++ tblSO7 ++ tblSO8 ++ tblSO9 ++ tblSO10 ++ tblMP10 ++ tblMP11 ++
  tblPO8 ++ tblPO9 ++ tblDF5 ++ tblPF8 ++ tblPF9 ++ tblPF10 ++ tblPS11 ++ tblPS12 ++ tblPS13 ++ tblCL7 ++ tblCL8 ++ tblTF8 ++
  tblTF9 ++ tblTF10 ++ tblPA8 ++ tblPA10b ++ tblPA13 ++ tblMO10 ++ tblCK8 ++ tblFC6 ++ tblFC7 ++ tblFC8 ++ tblFC9 ++ tblCV6 ++ tblSE9 ++ tblPK9

/-- The per-instance ranges: first index, number of instances (Tables DI-13, OX-1; R437). -/
def instanceRanges : List (Nat × Nat) :=
  [ (0x1800, 4), (0x1A00, 4), (0x2340, 13), (0x2401, 4), (0x2508, 4),
    (0x2800, 64), (0x2840, 64), (0x2880, 64), (0x28C0, 64), (0x2900, 64), (0x2940, 64), (0x2980, 64), (0x29C0, 64),
    (0x3440, 64), (0x3840, 32), (0x3C00, 32), (0x3C20, 32), (0x3E00, 32), (0x3E20, 32) ]

/-- The first index of the instance range an index lies in; the index itself outside the ranges. -/
def baseOf (idx : Nat) : Nat :=
  match instanceRanges.find? (fun r => r.1 ≤ idx && idx < r.1 + r.2) with
  | some r => r.1
  | none => idx

/-- The instance number of an index (0 outside the instance ranges). -/
def instOf (idx : Nat) : Nat := idx - baseOf idx

/-- The row of an object (R437). -/
def findObj (idx sub : Nat) : Option ObjDef :=
  objTable.find? (fun o => o.base == baseOf idx && o.sub == sub)

/-- Whether the device implements the index at all (R82, R437). -/
def indexExists (idx : Nat) : Bool :=
  objTable.any (fun o => o.base == baseOf idx)

/-- Context fields: the objects of 3001-30FF act on a selected context (R77, Table DI-12), and so do the mapping entry
3400 and the path-class bins 3800:02-04, whose notes name the selected context. -/
def isContextField (idx sub : Nat) : Bool :=
  (0x3001 ≤ idx && idx ≤ 0x30FF) || (idx == 0x3400 && sub != 0) || (idx == 0x3800 && (2 ≤ sub && sub ≤ 4))

/-- Whether an object's values lie in context state (Table AR-5; log entry 154): the fields of contexts, and the objects of sections,
groups and clients. `base` is the first index of an instance range. -/
def inContextState (base sub : Nat) : Bool :=
  (isContextField base sub && base != 0x3400 && base != 0x3800) || base == 0x28C0 || base == 0x2900 || base == 0x2940
    || base == 0x2980 || base == 0x29C0 || (0x3C00 ≤ base && base < 0x3D00) || base == 0x3840

/-- The bit of BLOCK_CLOCK_ENABLE (Table CK-9) that governs R59 for an index (Table OX-1, column Block). -/
def gateBitOf (idx : Nat) : Option Nat :=
  let b := baseOf idx
  if b == 0x2800 || b == 0x2840 then some (12 + (idx - b) / 4)
  else if b == 0x2880 then some 0
  else if b == 0x28C0 || b == 0x2900 || b == 0x2940 || b == 0x2980 then some 1
  else if b == 0x3010 then some 2
  else if b == 0x3400 || b == 0x3401 || b == 0x3402 || b == 0x3440 then some 3
  else if b == 0x3020 || b == 0x3021 || b == 0x3022 || b == 0x3023 || b == 0x3100 then some 4
  else if b == 0x3030 || b == 0x3031 || b == 0x3110 then some 5
  else if b == 0x3800 || b == 0x3804 || b == 0x3840 || b == 0x3880 || b == 0x3881 then some 6
  else if b == 0x29C0 || b == 0x3040 || b == 0x3041 || b == 0x3120 then some 7
  else if b == 0x3C00 || b == 0x3C20 then some 8
  else if b == 0x3050 || b == 0x3051 || b == 0x3E00 || b == 0x3E20 || b == 0x3E40 then some 9
  else if b == 0x2400 || b == 0x2401 || b == 0x2410 || b == 0x2420 then some 10
  else if b == 0x2508 then some 11
  else none

/-- Which objects each master holds its own value of (Object Index, Per-master objects). -/
def isPerMaster (idx sub : Nat) : Bool :=
  (idx == 0x20F1 && 1 ≤ sub && sub ≤ 3) || (idx == 0x2211 && 1 ≤ sub) || (idx == 0x2212 && 1 ≤ sub)
  || (idx == 0x2230 && sub == 1) || (idx == 0x3000 && 1 ≤ sub) || (idx == 0x3021 && 5 ≤ sub)
  || (idx == 0x3100 && sub == 1) || (idx == 0x3401 && sub == 1) || (idx == 0x3800 && sub == 1)
  || (idx == 0x3804 && sub == 1)

/-- Class defaults of Table FC-12: (SEVERE_N, SEVERE_WINDOW, REACTION) of class k. -/
def classDefaults : List (Nat × Nat × Nat) :=
  [ (1, 1000, 0x05), (1, 1000, 0x07), (3, 1000, 0x04), (1, 1000, 0x0F), (1, 1000, 0x05), (16, 1000, 0x04),
    (64, 1000, 0x04), (4, 1000, 0x04), (8, 10000, 0x04), (8, 60000, 0x00), (4, 1000, 0x05), (8, 1000, 0x05),
    (8, 1000, 0x05) ]

/-- The name of an object as one number: first index and subindex. -/
abbrev ObjId := Nat
/-- Where a value lives: instance (bits from 24), index (bits 23:8), subindex (bits 7:0). -/
abbrev Key := Nat

/-- The key of an object that exists once. -/
abbrev key (o : ObjId) : Key := o
/-- The key of instance `i` of a per-instance object (Table DI-13). -/
def keyAt (o : ObjId) (i : Nat) : Key := o + i * 256
/-- The key of a context field of the context at an address. -/
def keyCtx (o : ObjId) (a : Nat) : Key := o + a * 16777216
/-- The key of master `n`'s own value of a per-master object. -/
def keyOf (o : ObjId) (n : Nat) : Key := o + n * 16777216
/-- The index a key names. -/
def Key.idx (k : Key) : Nat := k / 256 % 65536
/-- The subindex a key names. -/
def Key.sub (k : Key) : Nat := k % 256
/-- The instance part of a key: 0, a master's number or a PATH_ADDRESS. -/
def Key.inst (k : Key) : Nat := k / 16777216

/-! The names of the objects. -/
namespace O
/-- DEVICE_TYPE, Table DI-7. -/ abbrev DEVICE_TYPE : ObjId := 0x100000
/-- ERROR_REGISTER, Table DI-7. -/ abbrev ERROR_REGISTER : ObjId := 0x100100
/-- COB_ID_SYNC, Table DI-7. -/ abbrev COB_ID_SYNC : ObjId := 0x100500
/-- DEVICE_NAME, Table DI-7. -/ abbrev DEVICE_NAME : ObjId := 0x100800
/-- HARDWARE_VERSION, Table DI-7. -/ abbrev HARDWARE_VERSION : ObjId := 0x100900
/-- SOFTWARE_VERSION, Table DI-7. -/ abbrev SOFTWARE_VERSION : ObjId := 0x100A00
/-- COB_ID_EMCY, Table DI-7. -/ abbrev COB_ID_EMCY : ObjId := 0x101400
/-- INHIBIT_TIME_EMCY, Table DI-7. -/ abbrev INHIBIT_TIME_EMCY : ObjId := 0x101500
/-- PRODUCER_HEARTBEAT_TIME, Table DI-7. -/ abbrev PRODUCER_HEARTBEAT_TIME : ObjId := 0x101700
/-- IDENTITY, Table DI-7. -/ abbrev IDENTITY : ObjId := 0x101801
/-- SDO_SERVER, Table DI-7. -/ abbrev SDO_SERVER : ObjId := 0x120001
/-- TPDO_COB_ID, Table DI-7. -/ abbrev TPDO_COB_ID : ObjId := 0x180001
/-- TPDO_TRANSMISSION_TYPE, Table DI-7. -/ abbrev TPDO_TRANSMISSION_TYPE : ObjId := 0x180002
/-- TPDO_INHIBIT_TIME, Table DI-7. -/ abbrev TPDO_INHIBIT_TIME : ObjId := 0x180003
/-- TPDO_EVENT_TIMER, Table DI-7. -/ abbrev TPDO_EVENT_TIMER : ObjId := 0x180005
/-- TPDO_MAPPING_COUNT, Table DI-7. -/ abbrev TPDO_MAPPING_COUNT : ObjId := 0x1A0000
/-- TPDO_MAPPING, Table DI-7. -/ abbrev TPDO_MAPPING : ObjId := 0x1A0001
/-- CONTEXT_SELECT, Table DI-10. -/ abbrev CONTEXT_SELECT : ObjId := 0x300001
/-- SELECT_STEP, Table DI-10. -/ abbrev SELECT_STEP : ObjId := 0x300002
/-- SELECT_INTERNAL, Table DI-10. -/ abbrev SELECT_INTERNAL : ObjId := 0x300003
/-- SELECT_INTERNAL_PENDING, Table DI-10. -/ abbrev SELECT_INTERNAL_PENDING : ObjId := 0x300004
/-- NODE_ID_OVERRIDE, Table DI-11. -/ abbrev NODE_ID_OVERRIDE : ObjId := 0x20F001
/-- NODE_ID_ACTIVE, Table DI-11. -/ abbrev NODE_ID_ACTIVE : ObjId := 0x20F002
/-- CAN_BITRATE, Table DI-11. -/ abbrev CAN_BITRATE : ObjId := 0x20F003
/-- CAN_BITRATE_ACTIVE, Table DI-11. -/ abbrev CAN_BITRATE_ACTIVE : ObjId := 0x20F004
/-- THIS_MASTER, Table DI-11. -/ abbrev THIS_MASTER : ObjId := 0x20F101
/-- THIS_PRIVILEGE, Table DI-11. -/ abbrev THIS_PRIVILEGE : ObjId := 0x20F102
/-- OVERLOAD_COUNT, Table DI-11. -/ abbrev OVERLOAD_COUNT : ObjId := 0x20F103
/-- QUEUE_PEAK, Table DI-11. -/ abbrev QUEUE_PEAK : ObjId := 0x20F104
/-- SPI_FRAME_ERRORS, Table DI-11. -/ abbrev SPI_FRAME_ERRORS : ObjId := 0x20F105
/-- GUARD_DISCARDS, Table DI-11. -/ abbrev GUARD_DISCARDS : ObjId := 0x20F201
/-- LAST_GUARD_OBJECT, Table DI-11. -/ abbrev LAST_GUARD_OBJECT : ObjId := 0x20F202
/-- LAST_GUARD_CAUSE, Table DI-11. -/ abbrev LAST_GUARD_CAUSE : ObjId := 0x20F203
/-- ACTIVE_GENERATION, Table PV-8. -/ abbrev ACTIVE_GENERATION : ObjId := 0x260001
/-- ACTIVE_BANK, Table PV-8. -/ abbrev ACTIVE_BANK : ObjId := 0x260002
/-- ACTIVE_CRC, Table PV-8. -/ abbrev ACTIVE_CRC : ObjId := 0x260003
/-- ACTIVE_OP, Table PV-8. -/ abbrev ACTIVE_OP : ObjId := 0x260004
/-- SWITCH_IN_TIME, Table PV-8. -/ abbrev SWITCH_IN_TIME : ObjId := 0x260005
/-- PENDING_STATE, Table PV-8. -/ abbrev PENDING_STATE : ObjId := 0x260006
/-- COMMIT, Table PV-8. -/ abbrev COMMIT : ObjId := 0x260101
/-- SWITCH_AT, Table PV-8. -/ abbrev SWITCH_AT : ObjId := 0x260102
/-- CANCEL_SWITCH, Table PV-8. -/ abbrev CANCEL_SWITCH : ObjId := 0x260103
/-- COMMIT_RESULT, Table PV-8. -/ abbrev COMMIT_RESULT : ObjId := 0x260104
/-- OFFENDING_OBJECT, Table PV-8. -/ abbrev OFFENDING_OBJECT : ObjId := 0x260105
/-- OFFENDING_CONTEXT, Table PV-8. -/ abbrev OFFENDING_CONTEXT : ObjId := 0x260106
/-- COMMIT_COUNT, Table PV-8. -/ abbrev COMMIT_COUNT : ObjId := 0x260107
/-- PENDING_RESET, Table PV-8. -/ abbrev PENDING_RESET : ObjId := 0x260108
/-- SWITCH_OUTCOME, Table PV-8. -/ abbrev SWITCH_OUTCOME : ObjId := 0x260109
/-- SLOT_LOAD_X2, Table PV-8. -/ abbrev SLOT_LOAD_X2 : ObjId := 0x260201
/-- SLOT_LIMIT_X2, Table PV-8. -/ abbrev SLOT_LIMIT_X2 : ObjId := 0x260202
/-- LINE_LOAD, Table PV-8. -/ abbrev LINE_LOAD : ObjId := 0x260203
/-- LINE_LIMIT, Table PV-8. -/ abbrev LINE_LIMIT : ObjId := 0x260204
/-- SELECTED_OP, Table PV-8. -/ abbrev SELECTED_OP : ObjId := 0x260205
/-- PROTECT_WORST, Table PV-8. -/ abbrev PROTECT_WORST : ObjId := 0x260206
/-- TFI_LANE_PEAK, Table PV-8. -/ abbrev TFI_LANE_PEAK : ObjId := 0x260207
/-- TFI_LANE_PEAK_LANE, Table PV-8. -/ abbrev TFI_LANE_PEAK_LANE : ObjId := 0x260208
/-- PORT_TYPE, Table LN-4. -/ abbrev PORT_TYPE : ObjId := 0x280001
/-- PORT_STANDARD, Table LN-4. -/ abbrev PORT_STANDARD : ObjId := 0x280002
/-- PORT_ENABLE, Table LN-4. -/ abbrev PORT_ENABLE : ObjId := 0x280003
/-- TX_SQUELCH, Table LN-4. -/ abbrev TX_SQUELCH : ObjId := 0x280004
/-- PORT_STATUS, Table LN-4. -/ abbrev PORT_STATUS : ObjId := 0x280005
/-- LANE_CTRL, Table LN-4. -/ abbrev LANE_CTRL : ObjId := 0x284001
/-- LOS_WINDOW, Table LN-4. -/ abbrev LOS_WINDOW : ObjId := 0x284002
/-- LOS_AMP_THRESHOLD, Table LN-4. -/ abbrev LOS_AMP_THRESHOLD : ObjId := 0x284003
/-- TX_EQ, Table LN-4. -/ abbrev TX_EQ : ObjId := 0x284004
/-- RX_EQ, Table LN-4. -/ abbrev RX_EQ : ObjId := 0x284005
/-- LANE_STATUS, Table LN-4. -/ abbrev LANE_STATUS : ObjId := 0x284006
/-- FREQ_OFFSET, Table LN-4. -/ abbrev FREQ_OFFSET : ObjId := 0x284007
/-- FREQ_CTRL, Table LN-4. -/ abbrev FREQ_CTRL : ObjId := 0x284008
/-- PRBS_CTRL, Table LN-4. -/ abbrev PRBS_CTRL : ObjId := 0x284009
/-- PRBS_ERRORS, Table LN-4. -/ abbrev PRBS_ERRORS : ObjId := 0x28400A
/-- OTL_STATUS, Table LN-4. -/ abbrev OTL_STATUS : ObjId := 0x28400B
/-- QUAD_STATUS, Table LN-4. -/ abbrev QUAD_STATUS : ObjId := 0x28400C
/-- ALIGN_CTRL, Table FA-6. -/ abbrev ALIGN_CTRL : ObjId := 0x288001
/-- LOF_DECLARE, Table FA-6. -/ abbrev LOF_DECLARE : ObjId := 0x288002
/-- LOF_CLEAR, Table FA-6. -/ abbrev LOF_CLEAR : ObjId := 0x288003
/-- LOM_DECLARE, Table FA-6. -/ abbrev LOM_DECLARE : ObjId := 0x288004
/-- LOM_CLEAR, Table FA-6. -/ abbrev LOM_CLEAR : ObjId := 0x288005
/-- ALIGN_STATUS, Table FA-6. -/ abbrev ALIGN_STATUS : ObjId := 0x288006
/-- FRAME_PHASE, Table FA-6. -/ abbrev FRAME_PHASE : ObjId := 0x288007
/-- PHASE_SHIFT, Table FA-6. -/ abbrev PHASE_SHIFT : ObjId := 0x288008
/-- LAST_LOCK_TIME, Table FA-6. -/ abbrev LAST_LOCK_TIME : ObjId := 0x288009
/-- OOF_COUNT, Table FA-6. -/ abbrev OOF_COUNT : ObjId := 0x28800A
/-- COA_COUNT, Table FA-6. -/ abbrev COA_COUNT : ObjId := 0x28800B
/-- CANDIDATE_OVERFLOW, Table FA-6. -/ abbrev CANDIDATE_OVERFLOW : ObjId := 0x28800C
/-- CANDIDATE_SLOTS, Table FA-6. -/ abbrev CANDIDATE_SLOTS : ObjId := 0x28800D
/-- MFAS_LAST, Table FA-6. -/ abbrev MFAS_LAST : ObjId := 0x28800E
/-- SO_CTRL, Table SO-7. -/ abbrev SO_CTRL : ObjId := 0x28C001
/-- J0_TX, Table SO-7. -/ abbrev J0_TX : ObjId := 0x28C002
/-- J0_EXPECTED, Table SO-7. -/ abbrev J0_EXPECTED : ObjId := 0x28C003
/-- S1_TX, Table SO-7. -/ abbrev S1_TX : ObjId := 0x28C004
/-- DCC_QUEUE_R, Table SO-7. -/ abbrev DCC_QUEUE_R : ObjId := 0x28C005
/-- DCC_QUEUE_M, Table SO-7. -/ abbrev DCC_QUEUE_M : ObjId := 0x28C006
/-- DCC_IDLE, Table SO-7. -/ abbrev DCC_IDLE : ObjId := 0x28C007
/-- SO_TEST, Table SO-7. -/ abbrev SO_TEST : ObjId := 0x28C008
/-- K1K2_FORCE_VALUE, Table SO-7. -/ abbrev K1K2_FORCE_VALUE : ObjId := 0x28C009
/-- M1_FORCE_VALUE, Table SO-7. -/ abbrev M1_FORCE_VALUE : ObjId := 0x28C00A
/-- DCC_TX_R, Table SO-7. -/ abbrev DCC_TX_R : ObjId := 0x28C00B
/-- DCC_TX_M, Table SO-7. -/ abbrev DCC_TX_M : ObjId := 0x28C00C
/-- SO_STATUS, Table SO-8. -/ abbrev SO_STATUS : ObjId := 0x290001
/-- J0_ACCEPTED, Table SO-8. -/ abbrev J0_ACCEPTED : ObjId := 0x290002
/-- S1_ACCEPTED, Table SO-8. -/ abbrev S1_ACCEPTED : ObjId := 0x290003
/-- K1K2_ACCEPTED, Table SO-8. -/ abbrev K1K2_ACCEPTED : ObjId := 0x290004
/-- DCC_RX_R, Table SO-8. -/ abbrev DCC_RX_R : ObjId := 0x290005
/-- DCC_RX_M, Table SO-8. -/ abbrev DCC_RX_M : ObjId := 0x290006
/-- DCC_LEVELS, Table SO-8. -/ abbrev DCC_LEVELS : ObjId := 0x290007
/-- B1_ERRORS, Table SO-9. -/ abbrev B1_ERRORS : ObjId := 0x294001
/-- B2_ERRORS, Table SO-9. -/ abbrev B2_ERRORS : ObjId := 0x294002
/-- REI_MS, Table SO-9. -/ abbrev REI_MS : ObjId := 0x294003
/-- SM_BIP_ERRORS, Table SO-9. -/ abbrev SM_BIP_ERRORS : ObjId := 0x294004
/-- SM_BEI, Table SO-9. -/ abbrev SM_BEI : ObjId := 0x294005
/-- PM_BIP_ERRORS, Table SO-9. -/ abbrev PM_BIP_ERRORS : ObjId := 0x294006
/-- PM_BEI, Table SO-9. -/ abbrev PM_BEI : ObjId := 0x294007
/-- FEC_CORRECTED_BITS, Table SO-9. -/ abbrev FEC_CORRECTED_BITS : ObjId := 0x294008
/-- FEC_UNCORRECTABLE, Table SO-9. -/ abbrev FEC_UNCORRECTABLE : ObjId := 0x294009
/-- FEC_CODEWORDS, Table SO-9. -/ abbrev FEC_CODEWORDS : ObjId := 0x29400A
/-- DCC_RX_DROPPED, Table SO-9. -/ abbrev DCC_RX_DROPPED : ObjId := 0x29400B
/-- OTN_CTRL, Table SO-10. -/ abbrev OTN_CTRL : ObjId := 0x298001
/-- SM_TTI_TX, Table SO-10. -/ abbrev SM_TTI_TX : ObjId := 0x298002
/-- SM_TTI_EXPECTED, Table SO-10. -/ abbrev SM_TTI_EXPECTED : ObjId := 0x298003
/-- PM_TTI_TX, Table SO-10. -/ abbrev PM_TTI_TX : ObjId := 0x298004
/-- PM_TTI_EXPECTED, Table SO-10. -/ abbrev PM_TTI_EXPECTED : ObjId := 0x298005
/-- OTN_STATUS, Table SO-10. -/ abbrev OTN_STATUS : ObjId := 0x298006
/-- SM_TTI_ACCEPTED, Table SO-10. -/ abbrev SM_TTI_ACCEPTED : ObjId := 0x298007
/-- PM_TTI_ACCEPTED, Table SO-10. -/ abbrev PM_TTI_ACCEPTED : ObjId := 0x298008
/-- PATH_TYPE, Table MP-10. -/ abbrev PATH_TYPE : ObjId := 0x301001
/-- PTR_CTRL, Table MP-10. -/ abbrev PTR_CTRL : ObjId := 0x301002
/-- PTR_STATUS, Table MP-10. -/ abbrev PTR_STATUS : ObjId := 0x301003
/-- PJ_RX_INC, Table MP-10. -/ abbrev PJ_RX_INC : ObjId := 0x301004
/-- PJ_RX_DEC, Table MP-10. -/ abbrev PJ_RX_DEC : ObjId := 0x301005
/-- PJ_TX_INC, Table MP-10. -/ abbrev PJ_TX_INC : ObjId := 0x301006
/-- PJ_TX_DEC, Table MP-10. -/ abbrev PJ_TX_DEC : ObjId := 0x301007
/-- NDF_RX, Table MP-10. -/ abbrev NDF_RX : ObjId := 0x301008
/-- STORE_RECENTRES, Table MP-10. -/ abbrev STORE_RECENTRES : ObjId := 0x301009
/-- MAP_ENTRY, Table MP-11. -/ abbrev MAP_ENTRY : ObjId := 0x340001
/-- MAP_ENTRY_ACTIVE, Table MP-11. -/ abbrev MAP_ENTRY_ACTIVE : ObjId := 0x340002
/-- MAP_BLOCK_SELECT, Table MP-11. -/ abbrev MAP_BLOCK_SELECT : ObjId := 0x340101
/-- MAP_BLOCK, Table MP-11. -/ abbrev MAP_BLOCK : ObjId := 0x340102
/-- MAP_BLOCK_ACTIVE, Table MP-11. -/ abbrev MAP_BLOCK_ACTIVE : ObjId := 0x340103
/-- MAP_COUNT_TFI, Table MP-11. -/ abbrev MAP_COUNT_TFI : ObjId := 0x340201
/-- MAP_COUNT_CLIENT, Table MP-11. -/ abbrev MAP_COUNT_CLIENT : ObjId := 0x340202
/-- MAP_COUNT_LINE, Table MP-11. -/ abbrev MAP_COUNT_LINE : ObjId := 0x340203
/-- OPU_CTRL, Table MP-11. -/ abbrev OPU_CTRL : ObjId := 0x344001
/-- OPU_STATUS, Table MP-11. -/ abbrev OPU_STATUS : ObjId := 0x344002
/-- POH_CTRL, Table PO-8. -/ abbrev POH_CTRL : ObjId := 0x302001
/-- TRACE_TX_INDEX, Table PO-8. -/ abbrev TRACE_TX_INDEX : ObjId := 0x302002
/-- TRACE_EXP_INDEX, Table PO-8. -/ abbrev TRACE_EXP_INDEX : ObjId := 0x302003
/-- SL_TX, Table PO-8. -/ abbrev SL_TX : ObjId := 0x302004
/-- SL_EXPECTED, Table PO-8. -/ abbrev SL_EXPECTED : ObjId := 0x302005
/-- APS_TX, Table PO-8. -/ abbrev APS_TX : ObjId := 0x302006
/-- POH_TEST, Table PO-8. -/ abbrev POH_TEST : ObjId := 0x302007
/-- POH_STATUS, Table PO-8. -/ abbrev POH_STATUS : ObjId := 0x302101
/-- SL_ACCEPTED, Table PO-8. -/ abbrev SL_ACCEPTED : ObjId := 0x302102
/-- APS_ACCEPTED, Table PO-8. -/ abbrev APS_ACCEPTED : ObjId := 0x302103
/-- TRACE_DIGEST, Table PO-8. -/ abbrev TRACE_DIGEST : ObjId := 0x302104
/-- TRACE_CAPTURE, Table PO-8. -/ abbrev TRACE_CAPTURE : ObjId := 0x302105
/-- TRACE_CAPTURED, Table PO-8. -/ abbrev TRACE_CAPTURED : ObjId := 0x302106
/-- BIP_ERRORS, Table PO-8. -/ abbrev BIP_ERRORS : ObjId := 0x302201
/-- REI_RX, Table PO-8. -/ abbrev REI_RX : ObjId := 0x302202
/-- MARKER_TX_EDGE, Table PO-8. -/ abbrev MARKER_TX_EDGE : ObjId := 0x302301
/-- MARKER_RX_EDGE, Table PO-8. -/ abbrev MARKER_RX_EDGE : ObjId := 0x302302
/-- MARKER_LOOP, Table PO-8. -/ abbrev MARKER_LOOP : ObjId := 0x302303
/-- MARKER_TURN, Table PO-8. -/ abbrev MARKER_TURN : ObjId := 0x302304
/-- POOL_SELECT, Table PO-9. -/ abbrev POOL_SELECT : ObjId := 0x310001
/-- POOL_ENTRY, Table PO-9. -/ abbrev POOL_ENTRY : ObjId := 0x310002
/-- DEFECT_CTRL, Table DF-5. -/ abbrev DEFECT_CTRL : ObjId := 0x303001
/-- DEFECT_RAW, Table DF-5. -/ abbrev DEFECT_RAW : ObjId := 0x303101
/-- DEFECT_REPORTED, Table DF-5. -/ abbrev DEFECT_REPORTED : ObjId := 0x303102
/-- DEFECT_SEEN, Table DF-5. -/ abbrev DEFECT_SEEN : ObjId := 0x303103
/-- ACTION_STATUS, Table DF-5. -/ abbrev ACTION_STATUS : ObjId := 0x303104
/-- LAST_CHANGE, Table DF-5. -/ abbrev LAST_CHANGE : ObjId := 0x303105
/-- PORT_DEFECT_MAP, Table DF-5. -/ abbrev PORT_DEFECT_MAP : ObjId := 0x311001
/-- HO_DEFECT_COUNT, Table DF-5. -/ abbrev HO_DEFECT_COUNT : ObjId := 0x311002
/-- LO_DEFECT_COUNT, Table DF-5. -/ abbrev LO_DEFECT_COUNT : ObjId := 0x311003
/-- PM_BIN_SELECT, Table PF-8. -/ abbrev PM_BIN_SELECT : ObjId := 0x380001
/-- PM_BIN, Table PF-8. -/ abbrev PM_BIN : ObjId := 0x380002
/-- PM_STATE, Table PF-8. -/ abbrev PM_STATE : ObjId := 0x380003
/-- PM_CLEAR, Table PF-8. -/ abbrev PM_CLEAR : ObjId := 0x380004
/-- PM_BLOCK_SELECT, Table PF-8. -/ abbrev PM_BLOCK_SELECT : ObjId := 0x380401
/-- PM_BLOCK, Table PF-8. -/ abbrev PM_BLOCK : ObjId := 0x380402
/-- PM_TIME_CTRL, Table PF-9. -/ abbrev PM_TIME_CTRL : ObjId := 0x388001
/-- PM_SECOND, Table PF-9. -/ abbrev PM_SECOND : ObjId := 0x388002
/-- PM_TIME_STATUS, Table PF-9. -/ abbrev PM_TIME_STATUS : ObjId := 0x388003
/-- LAST_TICK, Table PF-9. -/ abbrev LAST_TICK : ObjId := 0x388004
/-- SNAP_SECOND, Table PF-9. -/ abbrev SNAP_SECOND : ObjId := 0x388005
/-- SNAP_COUNT, Table PF-9. -/ abbrev SNAP_COUNT : ObjId := 0x388006
/-- CPM_SNAPSHOT, Table PF-9. -/ abbrev CPM_SNAPSHOT : ObjId := 0x388101
/-- CPM_CTRL, Table PF-10. -/ abbrev CPM_CTRL : ObjId := 0x384001
/-- ES_TCA_THRESH, Table PF-10. -/ abbrev ES_TCA_THRESH : ObjId := 0x384002
/-- SES_TCA_THRESH, Table PF-10. -/ abbrev SES_TCA_THRESH : ObjId := 0x384003
/-- CPM_ES, Table PF-10. -/ abbrev CPM_ES : ObjId := 0x384004
/-- CPM_SES, Table PF-10. -/ abbrev CPM_SES : ObjId := 0x384005
/-- CPM_UAT, Table PF-10. -/ abbrev CPM_UAT : ObjId := 0x384006
/-- CPM_SECONDS, Table PF-10. -/ abbrev CPM_SECONDS : ObjId := 0x384007
/-- CPM_STATUS, Table PF-10. -/ abbrev CPM_STATUS : ObjId := 0x384008
/-- DELAY_MIN, Table PF-10. -/ abbrev DELAY_MIN : ObjId := 0x384009
/-- DELAY_MAX, Table PF-10. -/ abbrev DELAY_MAX : ObjId := 0x38400A
/-- ASYM_MAX, Table PF-10. -/ abbrev ASYM_MAX : ObjId := 0x38400B
/-- CPM_CLEAR, Table PF-10. -/ abbrev CPM_CLEAR : ObjId := 0x38400C
/-- MSP_CTRL, Table PS-11. -/ abbrev MSP_CTRL : ObjId := 0x29C001
/-- PROTECTION_PORT, Table PS-11. -/ abbrev PROTECTION_PORT : ObjId := 0x29C002
/-- MSP_COMMAND, Table PS-11. -/ abbrev MSP_COMMAND : ObjId := 0x29C003
/-- MSP_STATUS, Table PS-11. -/ abbrev MSP_STATUS : ObjId := 0x29C004
/-- K_TX, Table PS-11. -/ abbrev K_TX : ObjId := 0x29C005
/-- MSP_SWITCHES, Table PS-11. -/ abbrev MSP_SWITCHES : ObjId := 0x29C006
/-- MSP_LAST_SWITCH, Table PS-11. -/ abbrev MSP_LAST_SWITCH : ObjId := 0x29C007
/-- WTR_REMAINING, Table PS-11. -/ abbrev WTR_REMAINING : ObjId := 0x29C008
/-- FOP_COUNT, Table PS-11. -/ abbrev FOP_COUNT : ObjId := 0x29C009
/-- SNCP_CTRL, Table PS-12. -/ abbrev SNCP_CTRL : ObjId := 0x304001
/-- SNCP_PROTECTING, Table PS-12. -/ abbrev SNCP_PROTECTING : ObjId := 0x304002
/-- SNCP_COMMAND, Table PS-12. -/ abbrev SNCP_COMMAND : ObjId := 0x304003
/-- SNCP_STATUS, Table PS-12. -/ abbrev SNCP_STATUS : ObjId := 0x304101
/-- SNCP_SWITCHES, Table PS-12. -/ abbrev SNCP_SWITCHES : ObjId := 0x304102
/-- SNCP_LAST_SWITCH, Table PS-12. -/ abbrev SNCP_LAST_SWITCH : ObjId := 0x304103
/-- SNCP_WTR_REMAINING, Table PS-12. -/ abbrev SNCP_WTR_REMAINING : ObjId := 0x304104
/-- SELECTORS_ON_PROTECTION, Table PS-13. -/ abbrev SELECTORS_ON_PROTECTION : ObjId := 0x312001
/-- MASS_SWITCH_EVENTS, Table PS-13. -/ abbrev MASS_SWITCH_EVENTS : ObjId := 0x312002
/-- LAST_MASS_SWITCH_SIZE, Table PS-13. -/ abbrev LAST_MASS_SWITCH_SIZE : ObjId := 0x312003
/-- LAST_MASS_SWITCH_TIME, Table PS-13. -/ abbrev LAST_MASS_SWITCH_TIME : ObjId := 0x312004
/-- CLIENT_CTRL, Table CL-7. -/ abbrev CLIENT_CTRL : ObjId := 0x3C0001
/-- CLIENT_BOUND_PATH, Table CL-7. -/ abbrev CLIENT_BOUND_PATH : ObjId := 0x3C0002
/-- CLIENT_STATUS, Table CL-7. -/ abbrev CLIENT_STATUS : ObjId := 0x3C0003
/-- CLIENT_TEST, Table CL-7. -/ abbrev CLIENT_TEST : ObjId := 0x3C0004
/-- CLIENT_ERRORS, Table CL-7. -/ abbrev CLIENT_ERRORS : ObjId := 0x3C0005
/-- CLIENT_RX_FREQ, Table CL-7. -/ abbrev CLIENT_RX_FREQ : ObjId := 0x3C0006
/-- BUFFER_FILL, Table CL-7. -/ abbrev BUFFER_FILL : ObjId := 0x3C0007
/-- PIN_CTRL, Table CL-8. -/ abbrev PIN_CTRL : ObjId := 0x3C2001
/-- TARGET_DELAY, Table CL-8. -/ abbrev TARGET_DELAY : ObjId := 0x3C2002
/-- ROUTE_DELAY_W, Table CL-8. -/ abbrev ROUTE_DELAY_W : ObjId := 0x3C2003
/-- ROUTE_DELAY_P, Table CL-8. -/ abbrev ROUTE_DELAY_P : ObjId := 0x3C2004
/-- ASYM_THRESH, Table CL-8. -/ abbrev ASYM_THRESH : ObjId := 0x3C2005
/-- PIN_STATUS, Table CL-8. -/ abbrev PIN_STATUS : ObjId := 0x3C2006
/-- DELAY, Table CL-8. -/ abbrev DELAY : ObjId := 0x3C2007
/-- ROUND_TRIP, Table CL-8. -/ abbrev ROUND_TRIP : ObjId := 0x3C2008
/-- MEMBER_SKEW, Table CL-8. -/ abbrev MEMBER_SKEW : ObjId := 0x3C2009
/-- ASYMMETRY, Table CL-8. -/ abbrev ASYMMETRY : ObjId := 0x3C200A
/-- PIN_REPORT, Table CL-8. -/ abbrev PIN_REPORT : ObjId := 0x3C200B
/-- FAR_REPORT, Table CL-8. -/ abbrev FAR_REPORT : ObjId := 0x3C200C
/-- TFI_CTRL, Table TF-8. -/ abbrev TFI_CTRL : ObjId := 0x305001
/-- TFI_CH_STATUS, Table TF-8. -/ abbrev TFI_CH_STATUS : ObjId := 0x305101
/-- EGRESS_DROPS, Table TF-8. -/ abbrev EGRESS_DROPS : ObjId := 0x305102
/-- INGRESS_LOST, Table TF-8. -/ abbrev INGRESS_LOST : ObjId := 0x305103
/-- UNDERRUNS, Table TF-8. -/ abbrev UNDERRUNS : ObjId := 0x305104
/-- LANE_CTRL, Table TF-9. -/ abbrev TFI_LANE_CTRL : ObjId := 0x3E0001
/-- TFI_TX_EQ, Table TF-9. -/ abbrev TFI_TX_EQ : ObjId := 0x3E0002
/-- TFI_RX_EQ, Table TF-9. -/ abbrev TFI_RX_EQ : ObjId := 0x3E0003
/-- TFI_LANE_STATUS, Table TF-9. -/ abbrev TFI_LANE_STATUS : ObjId := 0x3E0004
/-- CREDITS_AVAILABLE, Table TF-9. -/ abbrev CREDITS_AVAILABLE : ObjId := 0x3E0005
/-- EGRESS_FILL, Table TF-9. -/ abbrev EGRESS_FILL : ObjId := 0x3E0006
/-- INGRESS_FILL, Table TF-9. -/ abbrev INGRESS_FILL : ObjId := 0x3E0007
/-- HEC_ERRORS, Table TF-9. -/ abbrev HEC_ERRORS : ObjId := 0x3E2001
/-- CRC_ERRORS, Table TF-9. -/ abbrev CRC_ERRORS : ObjId := 0x3E2002
/-- CELLS_LOST, Table TF-9. -/ abbrev CELLS_LOST : ObjId := 0x3E2003
/-- INGRESS_OVERRUNS, Table TF-9. -/ abbrev INGRESS_OVERRUNS : ObjId := 0x3E2004
/-- DROPS_CLASS0, Table TF-9. -/ abbrev DROPS_CLASS0 : ObjId := 0x3E2005
/-- DROPS_CLASS1, Table TF-9. -/ abbrev DROPS_CLASS1 : ObjId := 0x3E2006
/-- DROPS_CLASS2, Table TF-9. -/ abbrev DROPS_CLASS2 : ObjId := 0x3E2007
/-- DROPS_CLASS3, Table TF-9. -/ abbrev DROPS_CLASS3 : ObjId := 0x3E2008
/-- EGRESS_CELLS, Table TF-9. -/ abbrev EGRESS_CELLS : ObjId := 0x3E2009
/-- INGRESS_CELLS, Table TF-9. -/ abbrev INGRESS_CELLS : ObjId := 0x3E200A
/-- UNMAPPED_CELLS, Table TF-9. -/ abbrev UNMAPPED_CELLS : ObjId := 0x3E200B
/-- STARVED_LANE_MAP, Table TF-10. -/ abbrev STARVED_LANE_MAP : ObjId := 0x3E4001
/-- LANE_SYNC_MAP, Table TF-10. -/ abbrev LANE_SYNC_MAP : ObjId := 0x3E4002
/-- PAIR_STATUS, Table PA-8. -/ abbrev PAIR_STATUS : ObjId := 0x250001
/-- MATE_STATUS, Table PA-8. -/ abbrev MATE_STATUS : ObjId := 0x250002
/-- PAIR_FRAME, Table PA-8. -/ abbrev PAIR_FRAME : ObjId := 0x250003
/-- COPY_PROGRESS, Table PA-8. -/ abbrev COPY_PROGRESS : ObjId := 0x250004
/-- SYNC_FRAMES, Table PA-8. -/ abbrev SYNC_FRAMES : ObjId := 0x250005
/-- LAST_MISMATCH, Table PA-8. -/ abbrev LAST_MISMATCH : ObjId := 0x250006
/-- SELF_CHECK_RESULT, Table PA-8. -/ abbrev SELF_CHECK_RESULT : ObjId := 0x250007
/-- PAIR_CTRL, Table PA-10b. -/ abbrev PAIR_CTRL : ObjId := 0x250101
/-- FORCE_HANDOVER, Table PA-10b. -/ abbrev FORCE_HANDOVER : ObjId := 0x250102
/-- PAIR_CTRL_COMPLEMENT, Table PA-10b. -/ abbrev PAIR_CTRL_COMPLEMENT : ObjId := 0x250141
/-- FORCE_HANDOVER_COMPLEMENT, Table PA-10b. -/ abbrev FORCE_HANDOVER_COMPLEMENT : ObjId := 0x250142
/-- REVERT_WTR, Table PA-13. -/ abbrev REVERT_WTR : ObjId := 0x250201
/-- REVERT_REMAINING, Table PA-13. -/ abbrev REVERT_REMAINING : ObjId := 0x250202
/-- VERIFY_WINDOW, Table PA-13. -/ abbrev VERIFY_WINDOW : ObjId := 0x250203
/-- TAKEOVERS, Table PA-13. -/ abbrev TAKEOVERS : ObjId := 0x250301
/-- LAST_TAKEOVER_TIME, Table PA-13. -/ abbrev LAST_TAKEOVER_TIME : ObjId := 0x250302
/-- LAST_TAKEOVER_CAUSE, Table PA-13. -/ abbrev LAST_TAKEOVER_CAUSE : ObjId := 0x250303
/-- MISMATCH_FRAMES, Table PA-13. -/ abbrev MISMATCH_FRAMES : ObjId := 0x250304
/-- HEARTBEAT_LOSSES, Table PA-13. -/ abbrev HEARTBEAT_LOSSES : ObjId := 0x250305
/-- COPY_FAILURES, Table PA-13. -/ abbrev COPY_FAILURES : ObjId := 0x250306
/-- VERIFY_STATUS, Table PA-13. -/ abbrev VERIFY_STATUS : ObjId := 0x250401
/-- VERIFY_REI_LIMIT, Table PA-13. -/ abbrev VERIFY_REI_LIMIT : ObjId := 0x250402
/-- VERIFY_RDI_MAP, Table PA-13. -/ abbrev VERIFY_RDI_MAP : ObjId := 0x250403
/-- VERIFY_REI_MAP, Table PA-13. -/ abbrev VERIFY_REI_MAP : ObjId := 0x250404
/-- VERIFY_TFI_MAP, Table PA-13. -/ abbrev VERIFY_TFI_MAP : ObjId := 0x250405
/-- VERIFY_CLIENT_MAP, Table PA-13. -/ abbrev VERIFY_CLIENT_MAP : ObjId := 0x250406
/-- MATE_TX_EQ, Table PA-13. -/ abbrev MATE_TX_EQ : ObjId := 0x250801
/-- MATE_RX_EQ, Table PA-13. -/ abbrev MATE_RX_EQ : ObjId := 0x250802
/-- MATE_LANE_STATUS, Table PA-13. -/ abbrev MATE_LANE_STATUS : ObjId := 0x250803
/-- MODE_STATUS, Table MO-10. -/ abbrev MODE_STATUS : ObjId := 0x200001
/-- MODE_ENTRY_TIME, Table MO-10. -/ abbrev MODE_ENTRY_TIME : ObjId := 0x200002
/-- RESET_CAUSE, Table MO-10. -/ abbrev RESET_CAUSE : ObjId := 0x200003
/-- BOOT_INFO, Table MO-10. -/ abbrev BOOT_INFO : ObjId := 0x200004
/-- MODE_CHANGES, Table MO-10. -/ abbrev MODE_CHANGES : ObjId := 0x200005
/-- MODE_REQUEST, Table MO-10. -/ abbrev MODE_REQUEST : ObjId := 0x200101
/-- MODE_GUARDED, Table MO-10. -/ abbrev MODE_GUARDED : ObjId := 0x200102
/-- UNIT_RESET, Table MO-10. -/ abbrev UNIT_RESET : ObjId := 0x200103
/-- WAKE_CTRL, Table MO-10. -/ abbrev WAKE_CTRL : ObjId := 0x200104
/-- MODE_GUARDED_COMPLEMENT, Table MO-10. -/ abbrev MODE_GUARDED_COMPLEMENT : ObjId := 0x200142
/-- UNIT_RESET_COMPLEMENT, Table MO-10. -/ abbrev UNIT_RESET_COMPLEMENT : ObjId := 0x200143
/-- CLOCK_STATUS, Table CK-8. -/ abbrev CLOCK_STATUS : ObjId := 0x210001
/-- CLAMP_CAUSE, Table CK-8. -/ abbrev CLAMP_CAUSE : ObjId := 0x210002
/-- REFA_OFFSET, Table CK-8. -/ abbrev REFA_OFFSET : ObjId := 0x210003
/-- REFB_OFFSET, Table CK-8. -/ abbrev REFB_OFFSET : ObjId := 0x210004
/-- FORCED_SWITCHES, Table CK-8. -/ abbrev FORCED_SWITCHES : ObjId := 0x210005
/-- MONITOR_TRIPS, Table CK-8. -/ abbrev MONITOR_TRIPS : ObjId := 0x210006
/-- REF_CTRL, Table CK-8. -/ abbrev REF_CTRL : ObjId := 0x210101
/-- OP_OVERRIDE, Table CK-8. -/ abbrev OP_OVERRIDE : ObjId := 0x210201
/-- OP_OVERRIDE_COMPLEMENT, Table CK-8. -/ abbrev OP_OVERRIDE_COMPLEMENT : ObjId := 0x210241
/-- OP_STATUS, Table CK-8. -/ abbrev OP_STATUS : ObjId := 0x210301
/-- OP_RETRY, Table CK-8. -/ abbrev OP_RETRY : ObjId := 0x210302
/-- VCORE_READBACK, Table CK-8. -/ abbrev VCORE_READBACK : ObjId := 0x210303
/-- OP_CHANGES, Table CK-8. -/ abbrev OP_CHANGES : ObjId := 0x210304
/-- AUX0_CTRL, Table CK-8. -/ abbrev AUX0_CTRL : ObjId := 0x210401
/-- AUX1_CTRL, Table CK-8. -/ abbrev AUX1_CTRL : ObjId := 0x210402
/-- DEVICE_TIME, Table CK-8. -/ abbrev DEVICE_TIME : ObjId := 0x210501
/-- TIME_STEP, Table CK-8. -/ abbrev TIME_STEP : ObjId := 0x210502
/-- TIME_STATUS, Table CK-8. -/ abbrev TIME_STATUS : ObjId := 0x210503
/-- BLOCK_CLOCK_ENABLE, Table CK-8. -/ abbrev BLOCK_CLOCK_ENABLE : ObjId := 0x211001
/-- BLOCK_CLOCK_STATE, Table CK-8. -/ abbrev BLOCK_CLOCK_STATE : ObjId := 0x211002
/-- BLOCK_CLOCK_ENABLE_COMPLEMENT, Table CK-8. -/ abbrev BLOCK_CLOCK_ENABLE_COMPLEMENT : ObjId := 0x211041
/-- OLDEST_SEQ, Table FC-6. -/ abbrev OLDEST_SEQ : ObjId := 0x230001
/-- NEWEST_SEQ, Table FC-6. -/ abbrev NEWEST_SEQ : ObjId := 0x230002
/-- UNACKED_SEVERE, Table FC-6. -/ abbrev UNACKED_SEVERE : ObjId := 0x230003
/-- LOST_UNREAD, Table FC-6. -/ abbrev LOST_UNREAD : ObjId := 0x230004
/-- EMCY_REPLACED, Table FC-6. -/ abbrev EMCY_REPLACED : ObjId := 0x230005
/-- SEVERE_CLASS_MAP, Table FC-6. -/ abbrev SEVERE_CLASS_MAP : ObjId := 0x230006
/-- ACK_SEQ, Table FC-6. -/ abbrev ACK_SEQ : ObjId := 0x230101
/-- ECC_CORRECTED, Table FC-6. -/ abbrev ECC_CORRECTED : ObjId := 0x230301
/-- FAULT_N_CTRL, Table FC-7. -/ abbrev FAULT_N_CTRL : ObjId := 0x231001
/-- PULSE_WIDTH, Table FC-7. -/ abbrev PULSE_WIDTH : ObjId := 0x231002
/-- INJECT_SOURCE, Table FC-8. -/ abbrev INJECT_SOURCE : ObjId := 0x232001
/-- INJECT_FIRE, Table FC-8. -/ abbrev INJECT_FIRE : ObjId := 0x232002
/-- INJECT_COUNTS, Table FC-8. -/ abbrev INJECT_COUNTS : ObjId := 0x232003
/-- INJECT_ADDRESS, Table FC-8. -/ abbrev INJECT_ADDRESS : ObjId := 0x232004
/-- INJECT_DETAIL, Table FC-8. -/ abbrev INJECT_DETAIL : ObjId := 0x232005
/-- HISTORY, Table FC-8. -/ abbrev HISTORY : ObjId := 0x233001
/-- SEVERE_N, Table FC-9. -/ abbrev SEVERE_N : ObjId := 0x234001
/-- SEVERE_WINDOW, Table FC-9. -/ abbrev SEVERE_WINDOW : ObjId := 0x234002
/-- REACTION, Table FC-9. -/ abbrev REACTION : ObjId := 0x234003
/-- REACTION_COMPLEMENT, Table FC-9. -/ abbrev REACTION_COMPLEMENT : ObjId := 0x234043
/-- CV_STATUS, Table CV-6. -/ abbrev CV_STATUS : ObjId := 0x240001
/-- ALGORITHM, Table CV-6. -/ abbrev ALGORITHM : ObjId := 0x240101
/-- RUNNING, Table CV-6. -/ abbrev RUNNING : ObjId := 0x240102
/-- RESULT, Table CV-6. -/ abbrev RESULT : ObjId := 0x240103
/-- SCAN_START, Table CV-6. -/ abbrev SCAN_START : ObjId := 0x241001
/-- SCAN_LENGTH, Table CV-6. -/ abbrev SCAN_LENGTH : ObjId := 0x241002
/-- SCAN_CTRL, Table CV-6. -/ abbrev SCAN_CTRL : ObjId := 0x241003
/-- SCAN_STATUS, Table CV-6. -/ abbrev SCAN_STATUS : ObjId := 0x241004
/-- SCAN_NEXT, Table CV-6. -/ abbrev SCAN_NEXT : ObjId := 0x241005
/-- INTEGRITY_PERIOD, Table CV-6. -/ abbrev INTEGRITY_PERIOD : ObjId := 0x242001
/-- INTEGRITY_CHECKS, Table CV-6. -/ abbrev INTEGRITY_CHECKS : ObjId := 0x242002
/-- INTEGRITY_RESCANS, Table CV-6. -/ abbrev INTEGRITY_RESCANS : ObjId := 0x242003
/-- LAST_COMPUTED, Table CV-6. -/ abbrev LAST_COMPUTED : ObjId := 0x242004
/-- LAST_CHECK_TIME, Table CV-6. -/ abbrev LAST_CHECK_TIME : ObjId := 0x242005
/-- INTEGRITY_FAILURES, Table CV-6. -/ abbrev INTEGRITY_FAILURES : ObjId := 0x242006
/-- LIFECYCLE, Table SE-9. -/ abbrev LIFECYCLE : ObjId := 0x220001
/-- DEBUG_LEVEL, Table SE-9. -/ abbrev DEBUG_LEVEL : ObjId := 0x220002
/-- SEC_STATUS, Table SE-9. -/ abbrev SEC_STATUS : ObjId := 0x220003
/-- ROLLBACK_COUNTER, Table SE-9. -/ abbrev ROLLBACK_COUNTER : ObjId := 0x220004
/-- VENDOR_KEY_FP, Table SE-9. -/ abbrev VENDOR_KEY_FP : ObjId := 0x220005
/-- OWNER_KEY_FP, Table SE-9. -/ abbrev OWNER_KEY_FP : ObjId := 0x220006
/-- IDENTITY_KEY, Table SE-9. -/ abbrev IDENTITY_KEY : ObjId := 0x220007
/-- IDENTITY_FP, Table SE-9. -/ abbrev IDENTITY_FP : ObjId := 0x220008
/-- MANIFEST_DIGEST, Table SE-9. -/ abbrev MANIFEST_DIGEST : ObjId := 0x220009
/-- LIFECYCLE_REQUEST, Table SE-9. -/ abbrev LIFECYCLE_REQUEST : ObjId := 0x220101
/-- ZEROISE, Table SE-9. -/ abbrev ZEROISE : ObjId := 0x220102
/-- ROLLBACK_ADVANCE, Table SE-9. -/ abbrev ROLLBACK_ADVANCE : ObjId := 0x220103
/-- TOKEN_APPLY, Table SE-9. -/ abbrev TOKEN_APPLY : ObjId := 0x220104
/-- SEC_POLICY, Table SE-9. -/ abbrev SEC_POLICY : ObjId := 0x220201
/-- SEC_POLICY_COMPLEMENT, Table SE-9. -/ abbrev SEC_POLICY_COMPLEMENT : ObjId := 0x220241
/-- DEBUG_CLOSE, Table SE-9. -/ abbrev DEBUG_CLOSE : ObjId := 0x221001
/-- DEBUG_REMAINING, Table SE-9. -/ abbrev DEBUG_REMAINING : ObjId := 0x221002
/-- NONCE_NEW, Table SE-9. -/ abbrev NONCE_NEW : ObjId := 0x221101
/-- NONCE, Table SE-9. -/ abbrev NONCE : ObjId := 0x221102
/-- TOKEN, Table SE-9. -/ abbrev TOKEN : ObjId := 0x221201
/-- TOKEN_RESULT, Table SE-9. -/ abbrev TOKEN_RESULT : ObjId := 0x221202
/-- SESSION_CHALLENGE_NEW, Table SE-9. -/ abbrev SESSION_CHALLENGE_NEW : ObjId := 0x222001
/-- SESSION_CHALLENGE, Table SE-9. -/ abbrev SESSION_CHALLENGE : ObjId := 0x222002
/-- SESSION_RESPONSE, Table SE-9. -/ abbrev SESSION_RESPONSE : ObjId := 0x222003
/-- SESSION_REMAINING, Table SE-9. -/ abbrev SESSION_REMAINING : ObjId := 0x222004
/-- SESSION_END, Table SE-9. -/ abbrev SESSION_END : ObjId := 0x222005
/-- SESSION_FAILURES, Table SE-9. -/ abbrev SESSION_FAILURES : ObjId := 0x222006
/-- ATTEST_NONCE, Table SE-9. -/ abbrev ATTEST_NONCE : ObjId := 0x223001
/-- ATTEST_REPORT, Table SE-9. -/ abbrev ATTEST_REPORT : ObjId := 0x223002
/-- REPORT_COUNTER, Table SE-9. -/ abbrev REPORT_COUNTER : ObjId := 0x223003
/-- STRAPS, Table PK-9. -/ abbrev STRAPS : ObjId := 0x270001
/-- TEST_OUT_LEVEL, Table PK-9. -/ abbrev TEST_OUT_LEVEL : ObjId := 0x270002
/-- FRAME_PULSE_PIN, Table PK-9. -/ abbrev FRAME_PULSE_PIN : ObjId := 0x270101
/-- TICK_PIN, Table PK-9. -/ abbrev TICK_PIN : ObjId := 0x270102
/-- CLAIM_MONITOR_PIN, Table PK-9. -/ abbrev CLAIM_MONITOR_PIN : ObjId := 0x270103
/-- RECCLK_PIN, Table PK-9. -/ abbrev RECCLK_PIN : ObjId := 0x270104
/-- RECCLK_LANE, Table PK-9. -/ abbrev RECCLK_LANE : ObjId := 0x270105
end O

end Sys2Proof.Machine
end

