-- ==== Sys2Proof/Machine/State.lean ====
section
/-!
DEFINITION. The machine's state: the dictionary's values, the two configuration banks, and what the engines of each
chapter hold behind the dictionary; the ways a step can stop; the state after reset.
-/
namespace Sys2Proof.Machine

/-- Why a step stops with a fault. -/
inductive Fault where
  /-- A host write changed a `rsvd` field (R47: a changed value has undocumented effects). Raised by the meanings that
  execute host writes. Safe: the model stops where the device goes on in a way the manual does not give. -/
  | rsvdChanged
deriving DecidableEq, Repr

/-- Why a step has no meaning. -/
inductive Refusal where
  /-- The command has no meaning yet. Raised by an arm of `exec` only. Safe: the model stops where the device goes on. -/
  | notModelled (mnemonic : String)
deriving DecidableEq, Repr

/-! ## Host transports (The Object Dictionary) -/

/-- What a queued request asks for (R49, R66, R68): a read, a write, a write whose size the master did not give (R56), a write
of a field of the context at an address, and the two table transfers. -/
inductive ReqBody where
  | read (idx sub len : Nat)
  | write (idx sub : Nat) (data : List Byte)
  | unsized (idx sub : Nat) (data : List Byte)
  | writeAt (a idx sub : Nat) (data : List Byte)
  | tableRead (idx sub : Nat) (start count : Nat)
  | tableWrite (idx sub : Nat) (start count : Nat) (data : List Byte)
deriving DecidableEq, Repr

/-- The effect that a home chapter ties to a read's completion (R57). -/
inductive Completion where
  | none
  | dcc (q upTo : Nat)
  | history (seqs : List Nat)
  | mapBlock (m : Master) (entries : Nat)
  | pmBlock (m : Master) (records : Nat)
deriving DecidableEq, Repr

/-- One entry of a master's request queue (R49, R72): it stays until its response has been transferred. `ecc` is what ECC finds
when it executes, `started` says that a table transfer has passed its checks (R80). -/
structure Req where
  tag   : Nat
  body  : ReqBody
  ecc   : Ecc := .clean
  started : Bool := false
  done  : Bool := false
  abort : Nat := 0
  len   : Nat := 0
  data  : List Byte := []
  fin   : Completion := .none
deriving DecidableEq, Repr

/-- A guard arm: the object, its subindex and the armed value (R52). -/
structure Arm where
  idx   : Nat
  sub   : Nat
  value : Nat
deriving DecidableEq, Repr

/-- What the dictionary keeps for one master (R49): its queue and guard arm, and the outcome of its last executed
access (abort code and bytes read). -/
structure MasterSt where
  queue : List Req := []
  arm   : Option Arm := none
  abort : Nat := 0
  data  : List Byte := []
deriving DecidableEq, Repr

/-- NMT states (R358); `silent` while no node-ID is set (R64) or before Boot ends. -/
inductive Nmt where
  | silent | initialising | preOperational | operational | stopped
deriving DecidableEq, Repr

/-- A message the CAN controller sends: identifier and bytes. -/
structure CanMsg where
  cob  : Nat
  data : List Byte
deriving DecidableEq, Repr

/-- The CAN layer (R62 to R67). `sdo` is a stalled transfer, `held` the messages that wait while the management domain runs
from the internal oscillator (R468). -/
structure Can where
  nmt        : Nmt := .silent
  nodeId     : Nat := 0
  sdo        : Option SdoReq := none
  inhibited  : List Nat := []
  waiting    : List Nat := []
  emcyInhib  : Bool := false
  emcyWait   : Option (List Byte × Option Nat) := none
  held       : List CanMsg := []
deriving DecidableEq, Repr

/-! ## Provisioning -/

/-- The conditions that admission sees: those at COMMIT (R95). -/
structure AdmSnap where
  privileged : Bool
  gates      : Nat
  override   : Nat
  unavail    : Nat
  lifecycle  : Nat
  mode       : Nat
  joint      : Bool
  paired     : Bool
  switchAt   : Nat
deriving DecidableEq, Repr

/-- A scheduled switch-in (R90 to R93): the boundary agreed with the mate, whether the point of R92 has passed, whether
an upward change has moved the core, and whether the bank came by the state copy (R325). -/
structure Sched where
  joint     : Option Nat := none
  committed : Bool := false
  raised    : Bool := true
  copied    : Bool := false
deriving DecidableEq, Repr

/-- Provisioning state behind the 2600 to 2602 objects. `upset` is the outcome with which a change of the conditions during
ADMITTING cancels the switch-in (R95); 0 stands for an outcome that Table PV-3 does not give. -/
structure Prov where
  adm     : Option AdmSnap := none
  sched   : Option Sched := none
  mateOld : Option Bank := none
  upset   : Option Nat := none
deriving DecidableEq, Repr

/-! ## Modes and Boot -/

/-- The step of Boot in progress (Table MO-7). -/
inductive BootStage where
  | oscillators | memoryClear | firstSlot | secondSlot | firmware | halted
deriving DecidableEq, Repr

/-- A mode change in progress (R350). A change that waits for the handshake of R340 carries the frames left. -/
structure Trans where
  target    : Nat
  handshake : Option Nat := none
deriving DecidableEq, Repr

/-- Mode state behind MODE_STATUS, and Boot's progress. -/
structure ModeSt where
  boot      : BootStage := .oscillators
  bootError : Nat := 0
  slot      : Nat := 0
  slotRb    : Nat := 0
  fallback  : Bool := false
  trans     : Option Trans := none
deriving DecidableEq, Repr

/-! ## Clocks -/

/-- Clock state behind the 2100 objects: stopped sources, causes of Clamp outside the CLAMP_CAUSE register's life, the
pending time step, the auxiliary outputs that relock, and whether the management domain's last source stopped. -/
structure Clk where
  stopped   : List Nat := []
  step      : Option Int := none
  auxHeld   : List Nat := []
  raise     : Bool := false
  settled   : Bool := false
  lower     : Bool := false
  resume    : Nat := 0
  mgmtLost  : Bool := false
  mgmtDead  : Bool := false
deriving DecidableEq, Repr

/-! ## Fault collection -/

/-- One entry of Coma (Tables FC-2, FC-3), and whether a completed read has returned it (R389). -/
structure ComaEntry where
  seq       : Nat
  time      : Nat
  source    : Nat
  level     : Nat
  addr      : Nat
  detail    : Nat
  merged    : Nat := 1
  secondary : Nat := 0
  severe    : Bool := false
  winOpen   : Bool := false
  injected  : Bool := false
  cleared   : Bool := false
  overwrote : Bool := false
  clear     : Bool := false
  forced    : Bool := false
  acked     : Bool := false
  read      : Bool := false
deriving DecidableEq, Repr

/-- An open reaction window and its sequence (R392, R395). `ran` are the reactions already run. -/
structure Window where
  seq      : Nat
  source   : Nat
  injected : Bool
  want     : Nat
  ran      : Nat
  pulse    : Bool := false
  emcy     : Bool := false
  acked    : Bool := false
  forced   : Bool := false
deriving DecidableEq, Repr

/-- Fault collection (Fault Collection and Reaction). `counts` keeps window start and count per source (R390);
`unacked` the severe events not yet acknowledged with the classes they show (R397, R399). -/
structure Coma where
  entries : List ComaEntry := []
  next    : Nat := 0
  counts  : SMap (Nat × Nat) := []
  windows : List Window := []
  unacked : List (Nat × Nat) := []
deriving DecidableEq, Repr

/-! ## Pair redundancy -/

/-- A handover agreed for a boundary (R337, R338): this unit's role and the cause. -/
structure Agreed where
  boundary : Nat
  takes    : Bool
  cause    : Nat
deriving DecidableEq, Repr

/-- Pair state behind the 2500 objects. -/
structure PairSt where
  cause      : Nat := 0
  fromJoin   : Bool := false
  part       : Option PartName := none
  fails      : Nat := 0
  mateGen    : Nat := 0
  mateCrc    : Nat := 0
  run        : Nat := 0
  check      : Bool := false
  ownCheck   : Option CheckResult := none
  mateCheck  : Option CheckResult := none
  request    : Option (Nat × Nat) := none
  agreed     : Option Agreed := none
  released   : Option Nat := none
  eccSeen    : Bool := false
  verify     : Bool := false
  verifyBase : SMap Nat := []
  revertAt   : Option Nat := none
  mateTick   : Bool := false
  mateSecond : Nat := 0
  sigs       : SMap Word := []
  sigHist    : List (Nat × SMap Word) := []
deriving DecidableEq, Repr

/-- A message sent on the mate link (Table PA-1). -/
inductive MateMsg where
  | heartbeat (status frame gen crc : Nat)
  | frameMark (frame time second : Nat) (tick : Bool)
  | signatures (frame : Nat) (values : SMap Word)
  | pairedWrite (idx sub addr : Nat) (data : List Byte) (boundary : Nat)
  | commitBank (b : Bank)
  | commitCancel
  | selfCheck (r : Option CheckResult)
  | release (cause : Nat)
  | revertRequest (boundary cause : Nat)
  | revertGrant (boundary : Nat)
  | copy (p : PartName)
deriving DecidableEq, Repr

/-! ## Check-value unit -/

/-- The scan a channel is running (R406 to R410): the beats done when it last had the engine, and from when on it has it (R36). -/
structure Scan where
  alg     : Nat
  start   : Nat
  len     : Nat
  frozen  : Bool
  init    : Bool
  done    : Nat := 0
  since   : Nat := 0
deriving DecidableEq, Repr

/-- Check-value state: the host scan in progress or displaced, whether an integrity check runs, until when a mate copy's verification
has the engine (R415), and the frames left until the check that follows a switch-in (R412). -/
structure Cvu where
  host      : Option Scan := none
  integ     : Bool := false
  mateUntil : Nat := 0
  dueFrames : Option Nat := none
deriving DecidableEq, Repr

/-! ## Security -/

/-- What a burn in progress completes (R419, R420, R423, R426). -/
inductive Burn where
  | lifecycle (v : Nat)
  | rollback (v : Nat)
  | owner (fp : List Byte)
deriving DecidableEq, Repr

/-- Saggar's items of one master (R424, R425, R434). -/
structure SecMaster where
  nonceOk  : Bool := false
  token    : List Byte := []
  attest   : List Byte := []
deriving DecidableEq, Repr

/-- Saggar (Security, Lifecycle and Debug). -/
structure Sec where
  spi        : SecMaster := {}
  can        : SecMaster := {}
  mgmt       : SecMaster := {}
  burns      : List Burn := []
  challenge  : Bool := false
  response   : Option (List Byte) := none
  failRun    : Nat := 0
  lockout    : Bool := false
  session    : Option Nat := none
  lifetime   : Option Nat := none
  maxDebug   : Nat := 0
  zeroising  : Bool := false
deriving DecidableEq, Repr

/-- The TAP (R435, R450, R451): the instruction loaded (IDCODE after Test-Logic-Reset), the boundary register's 555 cells, and
what the last scan of a data register brought out, least significant bit first. -/
structure Jtag where
  ir       : Nat := 1
  boundary : List Bool := List.replicate 555 false
  out      : List Byte := []
deriving DecidableEq, Repr

/-! ## Lines and alignment -/

/-- One Syzygy search (R129 to R139): the bit counter, the candidate slots by number with phase and count, the in-frame phase, the
reference phase, whether a first lock has been made, and the run of errored patterns. -/
structure Syzygy where
  pos    : Nat := 0
  slots  : SMap (Nat × Nat) := []
  phase  : Option Nat := none
  pref   : Nat := 0
  locked : Bool := false
  run    : Nat := 0
deriving DecidableEq, Repr

/-- The multiframe flywheel of an OTU port (R142): its value, and the runs of incrementing and of differing MFAS. -/
structure Multiframe where
  fly  : Nat := 0
  good : Nat := 0
  bad  : Nat := 0
deriving DecidableEq, Repr

/-- Frame alignment: searches by place (lane l at l, the client of port p at 64 + p), LOF accumulators with the
boundaries spent continuously in frame (client LOF likewise), LOM accumulators by port, client LOF declared, places whose frame
in progress was cut by a lock at another phase (R137), and ports that a switch-in changed while the block did not run (R146). -/
structure AlignSt where
  syz       : SMap Syzygy := []
  lof       : SMap (Nat × Nat) := []
  lom       : SMap (Nat × Nat) := []
  mf        : SMap Multiframe := []
  clientLof : List Nat := []
  cut       : List Nat := []
  due       : List Nat := []
deriving DecidableEq, Repr

/-- A PRBS checker (R127): its register, the bits that agreed so far toward lock, and lock. -/
structure Checker where
  reg  : Nat := 0
  good : Nat := 0
  lock : Bool := false
deriving DecidableEq, Repr

/-- Line lanes: lanes whose CDR-lock cause is masked (R122), lanes whose frequency gate gives no reading (R124), quads whose PLL
locks anew after a switch-in, quads that wait for the boundary after such a lock (R113), quads whose loss of lock was reported
(R114); lanes whose marker has been read since they went in frame, and by quad the runs of OTU3 frames with and without a
condition of LOL (R110); PRBS checkers and generators by lane (R127); and how many OTU3 frames lacked a logical lane (R109). -/
structure LineSt where
  cdrMask : List Nat := []
  spoiled : List Nat := []
  anew    : List Nat := []
  settle  : List Nat := []
  lost    : List Nat := []
  marked  : List Nat := []
  lol     : SMap (Nat × Nat) := []
  check   : SMap Checker := []
  gen     : SMap Nat := []
  short   : Nat := 0
deriving DecidableEq, Repr

/-! ## Section overhead -/

/-- Section state: ports' receive and transmit sides and the DCC queues (R161); `dccPos` counts the bytes that have left a
receive queue. -/
structure SecOh where
  rx    : SMap SecRx := []
  tx    : SMap SecTx := []
  dccRx : SMap (List Byte) := []
  dccPos : SMap Nat := []
  dccTx : SMap (List Byte) := []
deriving DecidableEq, Repr

/-- A write that both units of a pair apply at one boundary (R173): object, context address (0 for none), data, and the pair frame
number of the boundary. -/
structure PairedWrite where
  idx  : Nat
  sub  : Nat
  addr : Nat
  data : List Byte
  at_  : Nat := 0
deriving DecidableEq, Repr

/-! ## The data path (R14, R15) -/

/-- The latest received STM-N frame of a port, as the pointer processor takes it: how many have come, when it came, row 4 of the first
9N columns, and the nine rows of the other 261N. -/
structure RxFrame where
  num : Nat := 0
  time : Nat := 0
  ptr : List Byte := []
  pay : List (List Byte) := []
deriving DecidableEq, Repr

/-- A delimited container: its bytes, the parity of the one before it, and when its last overhead byte arrived (K4, R211). -/
structure RxCont where
  bytes : List Byte
  bip   : Option Byte
  stamp : Nat
deriving DecidableEq, Repr

/-- A context's receive container (R182, R184, R201): the period taken last, the container in progress (none while not delimited), the
bytes until a new alignment starts one, the parity of the latest container, the stamp of the one in progress, and the containers
that wait for their visit. For a structured context: the latest container with its arrival, the quarters of the multiframe in
progress, the latest whole multiframe, how many of each, and the TUG-3s whose null pointer was AIS_ind (R187). -/
structure PathRx where
  taken : Nat := 0
  cur   : Option (List Byte) := none
  wait  : Option Nat := none
  bip   : Option Byte := none
  stamp : Nat := 0
  todo  : List RxCont := []
  nFrame : Nat := 0
  frame : Nat × List Byte := (0, [])
  part  : List (Nat × List Byte) := []
  nMulti : Nat := 0
  multi : List (Nat × List Byte) := []
  tugAis : List Nat := []
deriving DecidableEq, Repr

/-- A context's transmit container: what is left of the one in progress, the bytes until a recentre starts a new one, containers
built with another context that sends the same ones, containers from its source, the parity of the container sent last, the device
frame that carries its next bytes on (none before its first), and how many bytes its source did not have. -/
structure PathTx where
  cur   : List Byte := []
  wait  : Option Nat := none
  ready : List (List Byte) := []
  feed  : List (List Byte) := []
  bip   : Option Byte := none
  due   : Option Nat := none
  gaps  : Nat := 0
deriving DecidableEq, Repr

/-! ## Performance -/

/-- A tick of Clamp whose bins are dealt with at the release (R237): the second that it ended and whether that was irregular, the number
of the second that it started and whether that was written, and the count of ticks. -/
structure PassedTick where
  second    : Nat
  irregular : Bool
  next      : Nat
  shift     : Bool
  tick      : Nat
deriving DecidableEq, Repr

/-- What the tick keeps (R234 to R237): the number of the second in progress, of the one that the latest tick ended and
of the latest sealed one; whether a first tick has come, PM_SECOND was written since the last tick, a TIME_STEP took effect in the second in progress (R380), the run of good PPS
intervals; a tick that waits for its boundary, whether its second was irregular and its number written; the same two of
the sealed second; whether the second in progress has a part that is not counted, whether the sealed one was counted
whole; a SYNC that waits for its snapshot (R252); how many ticks have taken effect, and those of Clamp that changed a bin. -/
structure PmTime where
  current   : Nat := 0
  ended     : Nat := 0
  closed    : Nat := 0
  started   : Bool := false
  written   : Bool := false
  stepped   : Bool := false
  good      : Nat := 0
  due       : Bool := false
  irregular : Bool := false
  shift     : Bool := false
  sealedIrr : Bool := false
  sealedShf : Bool := false
  broken    : Bool := true
  whole     : Bool := false
  snap      : Bool := false
  ticks     : Nat := 0
  passed    : List PassedTick := []
deriving DecidableEq, Repr

/-! ## Tributary fabric -/

/-- A cell queued for egress (Tables TF-2, TF-3). -/
structure Cell where
  fin     : Bool
  chan    : Nat
  cls     : Nat
  ais     : Bool
  cso     : Nat
  seq     : Nat
  payload : List Byte
deriving DecidableEq, Repr

/-- A TFI or mate lane (R298 to R306): runs of right and wrong header checks, TX_COUNT of the latest delivered cell, TX_COUNT
sent, the limit held, the egress queue oldest first, the cells held on ingress, and whether cells were dropped in this
frame (with one of class 0). -/
structure TfiLane where
  good   : Nat := 0
  bad    : Nat := 0
  t      : Option Nat := none
  sent   : Nat := 0
  limit  : Option Nat := none
  egress : List Cell := []
  held   : Nat := 0
  drops  : Option Bool := none
deriving DecidableEq, Repr

/-! ## Pins -/

/-- What the TEST_OUT pins follow (R448, R449): the elapsed time of the latest boundary and effective tick, and for each
pin whose owner changed the time its new function starts. -/
structure Pins where
  boundary : Option Nat := none
  tick     : Option Nat := none
  quiet    : SMap Nat := []
deriving DecidableEq, Repr

/-- What the device has put on its outputs: `spi` is the last Milber transaction's words, `line` the last frame at each port's
transmitter (lane by lane on a bonded port, a client frame at 64 + p), `poh` the overhead of each context's last container, `tfi` the
last cell of each lane, `client` the last frame's bits at each client port. -/
structure Out where
  can   : List CanMsg := []
  mate  : List MateMsg := []
  spi   : List (BitVec 32) := []
  trace : List Byte := []
  line  : SMap (List Byte) := []
  poh   : SMap (List Byte) := []
  tfi   : SMap (List Byte) := []
  client : SMap (List Bool) := []
deriving DecidableEq, Repr

/-- Everything the device holds, but for the queue of waiting commands. `acts` are the paths' consequent actions in force (R16). -/
structure Dev where
  regs      : SMap Word := []
  strs      : SMap (List Byte) := []
  bankA     : Bank := {}
  bankB     : Bank := {}
  elapsed   : Nat := 0
  frames    : Nat := 0
  spi       : MasterSt := {}
  canM      : MasterSt := {}
  mgmt      : MasterSt := {}
  can       : Can := {}
  prov      : Prov := {}
  mode      : ModeSt := {}
  clk       : Clk := {}
  coma      : Coma := {}
  pair      : PairSt := {}
  cvu       : Cvu := {}
  sec       : Sec := {}
  jtag      : Jtag := {}
  align     : AlignSt := {}
  line      : LineSt := {}
  oh        : SecOh := {}
  pairWait  : List PairedWrite := []
  ptrRx     : SMap PtrRx := []
  ptrTx     : SMap PtrTx := []
  rxFrames  : SMap RxFrame := []
  pathRx    : SMap PathRx := []
  pathTx    : SMap PathTx := []
  acts      : SMap Nat := []
  poh       : SMap PohCtx := []
  captures  : List (Nat × Nat) := []
  ber       : SMap (Ber × Ber) := []
  pm        : SMap PmCtx := []
  cpm       : SMap CpmCtx := []
  pmTime    : PmTime := {}
  prot      : SMap Prot := []
  latched   : SMap Nat := []
  clients   : SMap ClientSt := []
  tfi       : SMap TfiLane := []
  tfiCh     : SMap TfiCh := []
  mateLanes : SMap TfiLane := []
  pins      : Pins := {}
  mem       : List Host.Cell := []
  out       : Out := {}
  free      : Nat := 0
  reads     : Nat := 0
  undoc     : Bool := false
deriving DecidableEq, Repr

/-- The machine: the commands waiting, first in first out, and the device. -/
structure State where
  pending : List Instr
  dev     : Dev
deriving DecidableEq, Repr

/-- The device right after a power-on reset: Boot, outputs inert (R345, R353), cause 0, every register at its table's
default, and MODE_STATUS with MODE and TARGET 0, Boot, and IDENTITY_PRESENT 1 (log entries 1 and 3). -/
def devReset : Dev :=
  { regs := [(key O.MODE_STATUS, 0), (key O.SEC_STATUS, 2)] }

/-- The machine right after reset: the device in Boot and no command waiting. -/
def State.reset : State := { pending := [], dev := devReset }

end Sys2Proof.Machine
end

