-- ==== Sys2Proof/Machine/Ops.lean ====
section
/-!
DEFINITION. The named operations over the device's stores: sparse maps, dictionary values, banks, counters and fields;
modes, gating and time.
-/
namespace Sys2Proof.Machine

/-! ## Sparse maps -/

/-- The value a map gives a key; `d` where the key is not listed. -/
def smLook {α : Type} (d : α) : SMap α → Nat → α
  | [], _ => d
  | (k', v) :: r, k => if k' = k then v else smLook d r k

/-- The map without a key. -/
def smDrop {α : Type} (m : SMap α) (k : Nat) : SMap α := m.filter (fun e => e.1 != k)

/-- A pair put before the first larger key. -/
def smInsert {α : Type} (k : Nat) (v : α) : SMap α → SMap α
  | [] => [(k, v)]
  | (k', v') :: r => if k < k' then (k, v) :: (k', v') :: r else (k', v') :: smInsert k v r

/-- The map with a key set; a value equal to the default is not listed. -/
def smPut {α : Type} [DecidableEq α] (d : α) (m : SMap α) (k : Nat) (v : α) : SMap α :=
  if v = d then smDrop m k else smInsert k v (smDrop m k)

/-- The canonical form: keys strictly rising. -/
def smRising {α : Type} : SMap α → Bool
  | [] => true
  | [_] => true
  | a :: b :: r => decide (a.1 < b.1) && smRising (b :: r)

/-! ## Fields of values -/

/-- Bits `lo` to `lo + w - 1` of a value. -/
def bits (v lo w : Nat) : Nat := v / 2 ^ lo % 2 ^ w

/-- A value with bits `lo` to `lo + w - 1` replaced. -/
def putBits (v lo w x : Nat) : Nat := v - bits v lo w * 2 ^ lo + x % 2 ^ w * 2 ^ lo

/-- Bit `i` of a value. -/
def bit (v i : Nat) : Bool := v.testBit i

/-- A Bool as a bit. -/
def ofBit (b : Bool) : Nat := if b then 1 else 0

/-- The two's complement reading of a value of `w` bits. -/
def toSigned (w v : Nat) : Int := if v < 2 ^ (w - 1) then (v : Int) else (v : Int) - (2 : Int) ^ w

/-- A signed number in two's complement of `w` bits, limited to the representable range. -/
def ofSigned (w : Nat) (i : Int) : Nat :=
  let hi : Int := (2 : Int) ^ (w - 1) - 1
  let j := if i > hi then hi else if i < -hi - 1 then -hi - 1 else i
  (j % (2 : Int) ^ w).toNat

/-- The bytes of a value, least significant first, `n` of them. -/
def bytesLE : Nat → Nat → List Byte
  | 0, _ => []
  | n + 1, v => BitVec.ofNat 8 v :: bytesLE n (v / 256)

/-- The bytes of a value, most significant first, `n` of them. -/
def bytesBE (n v : Nat) : List Byte := (bytesLE n v).reverse

/-- The value of bytes, most significant first. -/
def ofBytesBE (l : List Byte) : Nat := l.foldl (fun acc b => acc * 256 + b.toNat) 0

/-- The value of bytes, least significant first. -/
def ofBytesLE (l : List Byte) : Nat := ofBytesBE l.reverse

/-- A byte string brought to a length: cut or padded at the end with zeros. -/
def fitBytes (n : Nat) (l : List Byte) : List Byte := (l ++ List.replicate n 0).take n

/-! ## Dictionary values -/

/-- A VC-3 in TUG-3 is the level-1 address with L and M 0 (Table SC-4). -/
def isTug3Vc3 (a : Nat) : Bool := bits a 29 3 == 1 && bits a 11 3 == 0 && bits a 8 3 == 0

/-- The default a table gives the value at a key: most are constants of the table; class settings follow Table FC-12, the COB-IDs of the
TPDOs Table DI-7 with node-ID 0, and the signal labels R216. -/
def dfltOf (k : Key) : Nat :=
  let idx := Key.idx k
  let sub := Key.sub k
  if 0x2340 ≤ idx && idx < 0x234D then
    match classDefaults[idx - 0x2340]? with
    | some (n, w, r) => if sub == 1 then n else if sub == 2 then w else if sub == 3 then r else 0
    | none => 0
  else if 0x1800 ≤ idx && idx ≤ 0x1803 && sub == 1 then 0x180 + 0x100 * (idx - 0x1800)
  else if idx == 0x3020 && (sub == 4 || sub == 5) && isTug3Vc3 (Key.inst k) then 1
  else match findObj idx sub with
    | some o => o.dflt
    | none => 0

/-- The default as a stored word. -/
def dfltWord (k : Key) : Word := BitVec.ofNat 64 (dfltOf k)

/-- The octets an octet-string object holds by default: zeros of its length (Table DI-1). -/
def dfltOctets (k : Key) : List Byte :=
  match findObj (Key.idx k) (Key.sub k) with
  | some o => match o.ty with
    | .str n => List.replicate n 0
    | _ => []
  | none => []

/-- The stored value at a key. -/
def Dev.rd (d : Dev) (k : Key) : Nat := (smLook (dfltWord k) d.regs k).toNat

/-- The device with a stored value replaced. -/
def Dev.wr (d : Dev) (k : Key) (v : Nat) : Dev :=
  { d with regs := smPut (dfltWord k) d.regs k (BitVec.ofNat 64 v) }

/-- The stored octets at a key. -/
def Dev.rdStr (d : Dev) (k : Key) : List Byte := smLook (dfltOctets k) d.strs k

/-- The device with stored octets replaced. -/
def Dev.wrStr (d : Dev) (k : Key) (v : List Byte) : Dev :=
  { d with strs := smPut (dfltOctets k) d.strs k v }

/-- A field of a stored value. -/
def Dev.fld (d : Dev) (k : Key) (lo w : Nat) : Nat := bits (d.rd k) lo w

/-- A bit of a stored value. -/
def Dev.flag (d : Dev) (k : Key) (i : Nat) : Bool := bit (d.rd k) i

/-- The device with a field of a stored value replaced (an `sts` update by hardware). -/
def Dev.putFld (d : Dev) (k : Key) (lo w x : Nat) : Dev := d.wr k (putBits (d.rd k) lo w x)

/-- The device with one bit of a stored value replaced. -/
def Dev.putFlag (d : Dev) (k : Key) (i : Nat) (b : Bool) : Dev := d.putFld k i 1 (ofBit b)

/-- The device with an `evt` field set by hardware (Table DI-3). -/
def Dev.set1 (d : Dev) (k : Key) (i : Nat) : Dev := d.putFlag k i true

/-- A `cnt` value incremented by hardware, saturating at all-ones of its width (Table DI-3). -/
def Dev.countSat (d : Dev) (k : Key) (w n : Nat) : Dev := d.wr k (min (d.rd k + n) (2 ^ w - 1))

/-- A `cnt` value incremented by hardware where the home chapter states wrap. -/
def Dev.countWrap (d : Dev) (k : Key) (w n : Nat) : Dev := d.wr k ((d.rd k + n) % 2 ^ w)

/-- A `cnt` value incremented by hardware as its row of the object tables says: saturating, or wrapping where the
home chapter states wrap. -/
def Dev.count (d : Dev) (k : Key) (n : Nat) : Dev :=
  match findObj (Key.idx k) (Key.sub k) with
  | some o => if o.wraps then d.countWrap k o.ty.width n else d.countSat k o.ty.width n
  | none => d

/-- `n` applied to a device when a condition holds. -/
def Dev.when (d : Dev) (c : Bool) (f : Dev → Dev) : Dev := if c then f d else d

/-- A fresh index of free values. -/
def Dev.fresh (d : Dev) : Dev := { d with free := d.free + 1 }

/-! ## Updating the parts of the device -/

def Dev.onSpi (d : Dev) (f : MasterSt → MasterSt) : Dev := { d with spi := f d.spi }
def Dev.onCanM (d : Dev) (f : MasterSt → MasterSt) : Dev := { d with canM := f d.canM }
def Dev.onMgmt (d : Dev) (f : MasterSt → MasterSt) : Dev := { d with mgmt := f d.mgmt }
def Dev.onCan (d : Dev) (f : Can → Can) : Dev := { d with can := f d.can }
def Dev.onProv (d : Dev) (f : Prov → Prov) : Dev := { d with prov := f d.prov }
def Dev.onMode (d : Dev) (f : ModeSt → ModeSt) : Dev := { d with mode := f d.mode }
def Dev.onClk (d : Dev) (f : Clk → Clk) : Dev := { d with clk := f d.clk }
def Dev.onComa (d : Dev) (f : Coma → Coma) : Dev := { d with coma := f d.coma }
def Dev.onPair (d : Dev) (f : PairSt → PairSt) : Dev := { d with pair := f d.pair }
def Dev.onCvu (d : Dev) (f : Cvu → Cvu) : Dev := { d with cvu := f d.cvu }
def Dev.onSec (d : Dev) (f : Sec → Sec) : Dev := { d with sec := f d.sec }
def Dev.onJtag (d : Dev) (f : Jtag → Jtag) : Dev := { d with jtag := f d.jtag }
def Dev.onAlign (d : Dev) (f : AlignSt → AlignSt) : Dev := { d with align := f d.align }
def Dev.onLine (d : Dev) (f : LineSt → LineSt) : Dev := { d with line := f d.line }
def Dev.onOh (d : Dev) (f : SecOh → SecOh) : Dev := { d with oh := f d.oh }
def Dev.onOut (d : Dev) (f : Out → Out) : Dev := { d with out := f d.out }

/-- A master's number in 20F1:01 (Table DI-4). -/
def masterNo : Master → Nat
  | .spi => 1 | .can => 2 | .mgmt => 3

/-- What the dictionary keeps for a master. -/
def Dev.master (d : Dev) : Master → MasterSt
  | .spi => d.spi | .can => d.canM | .mgmt => d.mgmt

/-- The device with a master's items changed. -/
def Dev.onMaster (d : Dev) (m : Master) (f : MasterSt → MasterSt) : Dev :=
  match m with
  | .spi => d.onSpi f
  | .can => d.onCanM f
  | .mgmt => d.onMgmt f

/-- Saggar's items of a master. -/
def Dev.secOf (d : Dev) : Master → SecMaster
  | .spi => d.sec.spi | .can => d.sec.can | .mgmt => d.sec.mgmt

/-- The device with Saggar's items of a master changed. -/
def Dev.onSecOf (d : Dev) (m : Master) (f : SecMaster → SecMaster) : Dev :=
  d.onSec (fun s => match m with
    | .spi => { s with spi := f s.spi }
    | .can => { s with can := f s.can }
    | .mgmt => { s with mgmt := f s.mgmt })

/-! ## Banks (Banks and generations) -/

/-- Whether bank B is the active one (2600:02). -/
def Dev.activeB (d : Dev) : Bool := d.rd O.ACTIVE_BANK == 1

/-- The active bank. -/
def Dev.active (d : Dev) : Bank := if d.activeB then d.bankB else d.bankA

/-- The pending bank. -/
def Dev.pendingBank (d : Dev) : Bank := if d.activeB then d.bankA else d.bankB

/-- The device with its pending bank changed. -/
def Dev.onPending (d : Dev) (f : Bank → Bank) : Dev :=
  if d.activeB then { d with bankA := f d.bankA } else { d with bankB := f d.bankB }

/-- The device with its active bank changed. -/
def Dev.onActive (d : Dev) (f : Bank → Bank) : Dev :=
  if d.activeB then { d with bankB := f d.bankB } else { d with bankA := f d.bankA }

/-- A `gen` value of a bank. -/
def bankRd (b : Bank) (k : Key) : Nat := (smLook (dfltWord k) b.regs k).toNat

/-- A bank with a `gen` value replaced. -/
def bankWr (b : Bank) (k : Key) (v : Nat) : Bank :=
  { b with regs := smPut (dfltWord k) b.regs k (BitVec.ofNat 64 v) }

/-- A `gen` octet string of a bank. -/
def bankStr (b : Bank) (k : Key) : List Byte := smLook (dfltOctets k) b.strs k

/-- A bank with a `gen` octet string replaced. -/
def bankWrStr (b : Bank) (k : Key) (v : List Byte) : Bank :=
  { b with strs := smPut (dfltOctets k) b.strs k v }

/-- A `gen` value in force: that of the active generation (R91). -/
def Dev.genA (d : Dev) (k : Key) : Nat := bankRd d.active k

/-- A `gen` value of the pending bank. -/
def Dev.genP (d : Dev) (k : Key) : Nat := bankRd d.pendingBank k

/-- A field of a `gen` value in force. -/
def Dev.genFld (d : Dev) (k : Key) (lo w : Nat) : Nat := bits (d.genA k) lo w

/-- A bit of a `gen` value in force. -/
def Dev.genBit (d : Dev) (k : Key) (i : Nat) : Bool := bit (d.genA k) i

/-- An octet string in force. -/
def Dev.genStr (d : Dev) (k : Key) : List Byte := bankStr d.active k

/-! ## The bytes of a bank (Table AR-5, R83) -/

/-- The first byte of a bank in the scan address space (Table AR-5). -/
def bankBase (b : Bool) : Nat := if b then 0x400000 else 0

/-- A bank by its letter. -/
def Dev.bank (d : Dev) (b : Bool) : Bank := if b then d.bankB else d.bankA

/-- Cells of a range leave a memory. -/
def dropCells (m : List Host.Cell) (lo n : Nat) : List Host.Cell := m.filter (fun c => c.1 < lo || lo + n ≤ c.1)

/-- The byte of a bank at an offset of its body, as its contents give it. -/
def bodyByte (b : Bank) (off : Nat) : Byte := Config.bankByte b.regs b.strs b.numbers b.wheel off

/-- The bytes, by offset, in which the body of a bank differs from its contents: those that a debugger left there (R428). -/
def Dev.bodyCells (d : Dev) (b : Bool) : List (Nat × Byte) :=
  ((d.mem.filter (fun c => bankBase b + 64 ≤ c.1 && c.1 < bankBase b + 0x200000)).map (fun c => (c.1 - bankBase b, c.2))).filter
    (fun c => bodyByte (d.bank b) c.1 != c.2)

/-- The CRC-32C over bytes 64 to 2,097,151 of a bank with such bytes in it (Table PV-1). -/
def bankCrc (b : Bank) (cells : List (Nat × Byte)) : BitVec 32 := Config.genCrc b.regs b.strs b.numbers b.wheel cells

/-- The CRC-32C over bytes 64 to 2,097,151 of a bank as it stands (Table PV-1, R103). -/
def Dev.crcOf (d : Dev) (b : Bool) : BitVec 32 := bankCrc (d.bank b) (d.bodyCells b)

/-- A bank with the wheel compiled for an operating point (R83, R97). -/
def compiled (b : Bank) (op : Nat) : Bank := { b with wheel := Config.wheel b.regs b.strs b.numbers op }

/-- An edit of the pending bank: bytes that a debugger left in its body no longer hold (log entry 8). -/
def Dev.edit (d : Dev) (f : Bank → Bank) : Dev :=
  let d1 := d.onPending f
  { d1 with mem := dropCells d.mem (bankBase (!d.activeB) + 64) 0x1FFFC0 }

/-! ## Modes, gating, time -/

/-- MODE of MODE_STATUS (Table MO-1). -/
def Dev.modeCode (d : Dev) : Nat := d.fld O.MODE_STATUS 0 3
def Dev.inBoot (d : Dev) : Bool := d.modeCode == 0
def Dev.inInert (d : Dev) : Bool := d.modeCode == 1
def Dev.inService (d : Dev) : Bool := d.modeCode == 2
def Dev.inShadow (d : Dev) : Bool := d.modeCode == 3
def Dev.inQuiesce (d : Dev) : Bool := d.modeCode == 4
def Dev.inBisque (d : Dev) : Bool := d.modeCode == 5

/-- Whether the device is in Clamp (R346). -/
def Dev.clamped (d : Dev) : Bool := d.flag O.MODE_STATUS 9

/-- Whether the traffic blocks run: Service, Shadow or Bisque, and no Clamp (Table MO-3; log entry 11). -/
def Dev.traffic (d : Dev) : Bool := (d.inService || d.inShadow || d.inBisque) && !d.clamped

/-- Whether outputs are inert (R345). -/
def Dev.inert (d : Dev) : Bool := !((d.inService || d.inBisque) && !d.clamped)

/-- Whether a block's clock runs, by its bit of Table CK-9 (R376). -/
def Dev.gateOn (d : Dev) (i : Nat) : Bool := d.flag O.BLOCK_CLOCK_STATE i

/-- Whether a gateable block does its work: its clock runs, it has resumed (R377), and the mode does not hold it
idle. -/
def Dev.runs (d : Dev) (i : Nat) : Bool := d.traffic && d.gateOn i && !bit d.clk.resume i

/-- The bits of Table CK-9. -/
abbrev gAlign : Nat := 0
abbrev gSection : Nat := 1
abbrev gPointer : Nat := 2
abbrev gMapping : Nat := 3
abbrev gPoh : Nat := 4
abbrev gDefect : Nat := 5
abbrev gPm : Nat := 6
abbrev gProtection : Nat := 7
abbrev gClient : Nat := 8
abbrev gTfi : Nat := 9
abbrev gCheck : Nat := 10
abbrev gMate : Nat := 11

/-- DEVICE_TIME (R379). -/
def Dev.time (d : Dev) : Nat := d.rd O.DEVICE_TIME

/-- One management clock cycle: 5 ns from the PLL, 10 ns on the internal oscillator (R363, R379), none while the
domain has no source. -/
def Dev.cycleNs (d : Dev) : Nat :=
  if d.flag O.CLAMP_CAUSE 0 then 0
  else if d.flag O.CLOCK_STATUS 8 then 10
  else if d.flag O.CLOCK_STATUS 9 && d.flag O.CLOCK_STATUS 3 then 5 else 0

/-- A number added to a list that holds it at most once. -/
def addOnce (l : List Nat) (n : Nat) : List Nat := if l.contains n then l else l ++ [n]

/-- The free-running advance of time. -/
def Dev.advance (d : Dev) (ns : Nat) : Dev :=
  { (d.wr O.DEVICE_TIME ((d.time + ns) % 2 ^ 64)) with elapsed := d.elapsed + ns }

/-- Whole seconds left until a deadline in elapsed time, rounded up (log entry 12). -/
def Dev.secondsLeft (d : Dev) (deadline : Option Nat) : Nat :=
  match deadline with
  | some t => (t - d.elapsed + 999999999) / 1000000000
  | none => 0

/-! ## Errors and seconds gathered by several families -/

/-- Errors of one period enter the SD and SF blocks in progress of a context or port (R223). -/
def Dev.berAdd (d : Dev) (a n : Nat) : Dev :=
  let b := smLook ({}, {}) d.ber a
  { d with ber := smPut ({}, {}) d.ber a ({ b.1 with errs := b.1.errs + n }, { b.2 with errs := b.2.errs + n }) }

/-- Whether performance counting runs: Service, Shadow or Bisque without Clamp, and the monitor's clock (R237, R253). -/
def Dev.pmCounts (d : Dev) : Bool := d.traffic && d.gateOn 6

def Dev.onPmTime (d : Dev) (f : PmTime → PmTime) : Dev := { d with pmTime := f d.pmTime }

/-- The second in progress gets a part that is not counted, once counting has stopped (R245). -/
def Dev.pmBreak (d : Dev) : Dev := if d.pmCounts then d else d.onPmTime (fun t => { t with broken := true })

/-- What the second in progress has gathered for a path, changed. -/
def Dev.onPmAcc (d : Dev) (a : Nat) (f : PmSec → PmSec) : Dev :=
  if !d.pmCounts then d
  else
    let p := smLook {} d.pm a
    { d with pm := smPut {} d.pm a { p with acc := f p.acc } }

/-- What the second in progress has gathered for a client, changed. -/
def Dev.onCpmAcc (d : Dev) (c : Nat) (f : CpmSec → CpmSec) : Dev :=
  if !d.pmCounts then d
  else
    let p := smLook {} d.cpm c
    { d with cpm := smPut {} d.cpm c { p with acc := f p.acc } }

/-! ## Pair conditions used across families -/

/-- PAIR_STATE of PAIR_STATUS (Table PA-2). -/
def Dev.pairState (d : Dev) : Nat := d.fld O.PAIR_STATUS 0 4

/-- PAIR_EN of PAIR_CTRL. -/
def Dev.paired (d : Dev) : Bool := d.flag O.PAIR_CTRL 0

/-- Whether the pair logic runs: Service or Shadow of a unit with PAIR_EN, no Clamp (Table MO-3). -/
def Dev.pairRuns (d : Dev) : Bool := d.paired && (d.inService || d.inShadow) && !d.clamped

/-- The place of the present device frame in the 500 µs wheel period (R19, R210). Both units of a pair take it from the pair frame number, so
that their wheels agree (R326; log entry 155). -/
def Dev.phase (d : Dev) : Nat := (if d.pairRuns then d.rd O.PAIR_FRAME else d.frames) % 4

/-- The mate is READY and neither FAULTY nor SUSPECT, as its latest HEARTBEAT says, with the link up. -/
def Dev.mateReady (d : Dev) : Bool :=
  d.flag O.PAIR_STATUS 10 && d.fld O.MATE_STATUS 0 4 == 6 && !d.flag O.MATE_STATUS 16 && !d.flag O.MATE_STATUS 17

/-- The interlock gate is open: own claim granted and no claim on CLAIM_IN (R319). -/
def Dev.gateOpen (d : Dev) : Bool := d.flag O.PAIR_STATUS 8 && !d.flag O.PAIR_STATUS 9

/-- The operating point now running (2600:04, CURRENT_OP). -/
def Dev.op (d : Dev) : Nat := d.fld O.OP_STATUS 0 2

end Sys2Proof.Machine
end

