-- ==== Sys2Proof/Machine/Flags.lean ====
section
/-!
DEFINITION. The field kinds of Table DI-3: what a host write does to each kind of field, with and without a hardware
update in the same cycle, and the checks of reserved fields and counters (R44 to R47).
-/
namespace Sys2Proof.Machine

/-- All-ones of a scalar object's width. -/
def fullMask (o : ObjDef) : Nat := 2 ^ o.ty.width - 1

/-- The bits of an object that are `ctl`: those its table gives no other kind. -/
def ctlMask (o : ObjDef) : Nat :=
  fullMask o &&& (fullMask o ^^^ (o.rsvd ||| o.sts ||| o.evt ||| o.trg ||| o.hwrw ||| o.zero))

/-- A bit-field object after a host write of `v`, where hardware sets the `evt` bits `hw` in the same cycle: `ctl` and
`hwrw` take the value, `sts` keep, written 1 clears `evt` unless hardware sets it, `trg` bits are not kept. -/
def fieldWrite (o : ObjDef) (old v hw : Nat) : Nat :=
  (v &&& (ctlMask o ||| o.hwrw ||| o.rsvd)) ||| (old &&& o.sts)
    ||| ((old &&& o.evt) &&& (fullMask o ^^^ v)) ||| (hw &&& o.evt)

/-- A `cnt` object after a host write of `v` with a coincident increment: the increment is added on top. -/
def counterWrite (o : ObjDef) (v inc : Nat) : Nat :=
  if o.wraps then (v + inc) % 2 ^ o.ty.width else min (v + inc) (2 ^ o.ty.width - 1)

/-- An object after a host write, by its kind (R44). -/
def kindWrite (o : ObjDef) (old v hw : Nat) : Nat :=
  match o.whole with
  | .cnt => counterWrite o v hw
  | .trg => 0
  | .hwrw => v
  | .plain => fieldWrite o old v hw

/-- Whether a write changes a `rsvd` field (R47). -/
def rsvdChanged (o : ObjDef) (old v : Nat) : Bool := (old ^^^ v) &&& o.rsvd != 0

/-- Whether a write of a whole `trg` object fires it. -/
def fires (v : Nat) : Bool := v == 1

end Sys2Proof.Machine
end

