-- ==== Sys2Proof/Machine/Operands.lean ====
section
/-!
DEFINITION. The operand forms of the dictionary: abort codes (Table DI-6), typed lengths (R56), PATH_ADDRESS layout and
validity (R4 to R8), and the names of addresses.
-/
namespace Sys2Proof.Machine

/-! ## Abort codes (Table DI-6) -/

abbrev abToggle : Nat := 0x05030000
abbrev abTimeout : Nat := 0x05040000
abbrev abSpecifier : Nat := 0x05040001
abbrev abBlockSize : Nat := 0x05040002
abbrev abSequence : Nat := 0x05040003
abbrev abCrc : Nat := 0x05040004
abbrev abWriteOnly : Nat := 0x06010001
abbrev abReadOnly : Nat := 0x06010002
abbrev abNoIndex : Nat := 0x06020000
abbrev abMemory : Nat := 0x06060000
abbrev abLength : Nat := 0x06070010
abbrev abNoSub : Nat := 0x06090011
abbrev abRange : Nat := 0x06090030
abbrev abQueue : Nat := 0x08000020
abbrev abGuard : Nat := 0x08000021
abbrev abRefused : Nat := 0x08000022
abbrev abNoContext : Nat := 0x08000024

/-! ## Typed lengths -/

/-- The byte length a value of the type has, when the type fixes it (R56). -/
def Ty.bytes : Ty → Nat
  | .str n => n
  | t => t.width / 8

/-- Whether a write carries an allowed length (R56). -/
def lengthOk (t : Ty) (n : Nat) : Bool :=
  match t with
  | .dom lo hi => lo ≤ n && n ≤ hi
  | _ => n == t.bytes

/-! ## PATH_ADDRESS (Tables SC-3, SC-4) -/

def adLevel (a : Nat) : Nat := bits a 29 3
def adPort (a : Nat) : Nat := bits a 23 6
def adAu4 (a : Nat) : Nat := bits a 16 7
def adK (a : Nat) : Nat := bits a 14 2
def adL (a : Nat) : Nat := bits a 11 3
def adM (a : Nat) : Nat := bits a 8 3

/-- An address from its fields. -/
def mkAddr (level port au4 k l m : Nat) : Nat :=
  level * 2 ^ 29 + port * 2 ^ 23 + au4 * 2 ^ 16 + k * 2 ^ 14 + l * 2 ^ 11 + m * 2 ^ 8

/-- The level-3 address of a port. -/
def portAddr (p : Nat) : Nat := mkAddr 3 p 0 0 0 0

/-- The level-4 address of a quad. -/
def quadAddr (q : Nat) : Nat := mkAddr 4 (4 * q) 0 0 0 0

/-- Whether an address is valid under R8 (0 apart). -/
def addrValid (a : Nat) : Bool :=
  let level := adLevel a
  let l := adL a
  let m := adM a
  bits a 0 8 == 0 && 1 ≤ level && level ≤ 6 && adAu4 a ≤ 63 && m ≤ 4 &&
  (if level == 1 then adK a != 0 && ((l == 0 && m == 0) || (l != 0 && m != 0))
   else if level == 2 then l == 0 && m == 0
   else if level == 3 then adAu4 a == 0 && adK a == 0 && l == 0 && m == 0
   else if level == 4 then adPort a % 4 == 0 && adAu4 a == 0 && adK a == 0 && l == 0 && m == 0
   else adPort a == 0 && adAu4 a == 0 && adK a == 0 && l == 0 && m == 0)

/-- The level-2 address of the VC-4 in an AU-4. -/
def au4Addr (port au4 : Nat) : Nat := mkAddr 2 port au4 0 0 0

/-- The level-2 address of the VC-3 in an AU-3. -/
def au3Addr (port au4 k : Nat) : Nat := mkAddr 2 port au4 k 0 0

/-- The level-2 context above a level-1 address in a bank: the VC-4 of its AU-4 where that is provisioned, else the
VC-3 of its AU-3. -/
def parentOf (b : Bank) (a : Nat) : Nat :=
  let v4 := au4Addr (adPort a) (adAu4 a)
  if b.numbers.any (fun e => e.1 == v4) then v4 else au3Addr (adPort a) (adAu4 a) (adK a)

/-! ## Ports of a bank -/

/-- Whether a context is provisioned in a bank. -/
def provisioned (b : Bank) (a : Nat) : Bool := b.numbers.any (fun e => e.1 == a)

/-- PORT_TYPE of a port in a bank (Table LN-1). -/
def portType (b : Bank) (p : Nat) : Nat := bankRd b (keyAt O.PORT_TYPE p)

/-- Whether a port is enabled in a bank with a type other than 0. -/
def portOn (b : Bank) (p : Nat) : Bool := portType b p != 0 && bankRd b (keyAt O.PORT_ENABLE p) != 0

/-- Whether a quad carries an enabled bonded OTU3 port (R105). -/
def bonded (b : Bank) (q : Nat) : Bool := portType b (4 * q) == 6 && portOn b (4 * q)

/-- The port that a lane carries (R104). -/
def lanePort (b : Bank) (l : Nat) : Nat := if bonded b (l / 4) then l / 4 * 4 else l

/-- The port type that fixes a lane's rate, whether or not the port is enabled (Table LN-1). -/
def laneType (b : Bank) (l : Nat) : Nat := if portType b (l / 4 * 4) == 6 then 6 else portType b l

/-- Whether a lane belongs to an enabled port. -/
def laneOn (b : Bank) (l : Nat) : Bool := portOn b (lanePort b l)

/-- Whether a port type is an OTU type. -/
def isOtu (t : Nat) : Bool := t == 5 || t == 6

/-- N of the STM-N of a port type (Table SO-1); 0 for an unused port. -/
def stmN (t : Nat) : Nat :=
  if t == 1 then 1 else if t == 2 then 4 else if t == 3 then 16 else if t == 4 || t == 5 then 64
  else if t == 6 then 256 else 0

/-- The pattern period L in bits of a lane of a port type (Table FA-1). -/
def lanePeriod (t : Nat) : Nat := if isOtu t then 130560 else 19440 * stmN t

/-- The lanes of a port; ports 4q+1 to 4q+3 of a bonded quad have none (R7). -/
def portLanes (b : Bank) (p : Nat) : List Nat :=
  if bonded b (p / 4) then (if p % 4 == 0 then [p, p + 1, p + 2, p + 3] else []) else [p]

/-- The enabled ports of a bank, ascending. -/
def portsOn (b : Bank) : List Nat := (List.range 64).filter (portOn b)

/-! ## Rates -/

/-- The offset of a count from a nominal of `num / den`, in 0.01 ppm, rounded to the nearest integer (R123, R381). -/
def ppmOffset (count num den : Nat) : Nat :=
  let n : Int := ((count * den : Nat) : Int) - (num : Int)
  ofSigned 32 ((2 * n * 100000000 + (num : Int)) / (2 * (num : Int)))

/-- The reading that means none. -/
abbrev noReading : Nat := 0x80000000

/-- A 16-bit index and a subindex as OFFENDING_OBJECT carries them (R94). -/
def objCode (idx sub : Nat) : Nat := idx * 65536 + sub * 256

end Sys2Proof.Machine
end

