-- ==== Sys2Proof/Machine/Common.lean ====
section
/-!
DEFINITION. Shared operations that several families call: what the CAN controller sends, debug levels, the record of a
mode change, the cancellation of a scheduled switch-in, and the release of the claim.
-/
namespace Sys2Proof.Machine

/-! ## CAN output (R67, R229, R398) -/

/-- Whether the CAN layer sends EMCY: in Pre-operational and Operational (Table MO-8, R398). -/
def Dev.canTalks (d : Dev) : Bool := d.can.nmt == .preOperational || d.can.nmt == .operational

/-- The management domain runs from the internal oscillator, whose tolerance CAN does not meet (R363, R468). -/
def Dev.onIntOsc (d : Dev) : Bool := d.flag O.CLOCK_STATUS 8

/-- A COB-ID object's message leaves the CAN controller under the 11 bits of its identifier; with bit 31 set the object does not exist
and nothing is sent (R62; CiA 301, log entry 120). It waits while the domain runs from the internal oscillator (R468). -/
def Dev.sendCan (d : Dev) (cob : Nat) (data : List Byte) : Dev :=
  let msg : CanMsg := { cob := cob % 2 ^ 11, data := data }
  if bit cob 31 then d
  else if d.onIntOsc then d.onCan (fun c => { c with held := c.held ++ [msg] })
  else d.onOut (fun o => { o with can := o.can ++ [msg] })

/-- UNACKED_SEVERE (R397): severe events not yet acknowledged, saturating at 16 bits. -/
def unackedSevere (c : Coma) : Nat := min c.unacked.length 65535

/-- SEVERE_CLASS_MAP (R399). -/
def severeClassMap (c : Coma) : Nat := c.unacked.foldl (fun m e => m ||| 2 ^ e.2) 0

/-- ERROR_REGISTER: bit 0 while a severe event is unacknowledged (Table DI-7, R397). -/
def errorRegister (c : Coma) : Nat := if c.unacked.isEmpty then 0 else 1

/-- NEWEST_SEQ (Table FC-6). -/
def newestSeq (c : Coma) : Nat :=
  match c.entries.getLast? with
  | some e => e.seq
  | none => 0xFFFFFFFF

/-- MODE_STATUS as a read returns it: OUTPUTS_INERT is R345's condition now. -/
def Dev.modeStatus (d : Dev) : Nat := putBits (d.rd O.MODE_STATUS) 8 1 (ofBit d.inert)

/-- The bytes of TPDO n, the mapped values of Table OX-3 least significant byte first (R440). -/
def tpdoData (d : Dev) (n : Nat) : List Byte :=
  if n == 0 then bytesLE 8 (d.rd O.PORT_DEFECT_MAP)
  else if n == 1 then bytesLE 4 (d.rd O.HO_DEFECT_COUNT) ++ bytesLE 4 (d.rd O.LO_DEFECT_COUNT)
  else if n == 2 then bytesLE 4 (newestSeq d.coma) ++ bytesLE 2 (unackedSevere d.coma) ++ bytesLE 2 0
  else bytesLE 4 (severeClassMap d.coma) ++ bytesLE 4 d.modeStatus

/-- A TPDO is sent or held by its inhibit time, only in Operational (R67, R229). -/
def Dev.queueTpdo (d : Dev) (n : Nat) : Dev :=
  if d.can.nmt != .operational then d
  else if d.can.inhibited.contains n then
    d.onCan (fun c => if c.waiting.contains n then c else { c with waiting := c.waiting ++ [n] })
  else
    let d1 := d.sendCan (d.rd (keyAt O.TPDO_COB_ID n)) (tpdoData d n)
    if d.rd (keyAt O.TPDO_INHIBIT_TIME n) == 0 then d1
    else d1.onCan (fun c => { c with inhibited := c.inhibited ++ [n] })

/-- The TPDOs whose mapped values changed from one device to the next are queued (R67, R229, R399, R440): TPDO 3 at a
new entry, the others at a change of value. -/
def tpdoSweep (before after : Dev) : Dev :=
  let d1 := after.when (tpdoData before 0 != tpdoData after 0) (fun d => d.queueTpdo 0)
  let d2 := d1.when (tpdoData before 1 != tpdoData after 1) (fun d => d.queueTpdo 1)
  let d3 := d2.when (before.coma.next != after.coma.next) (fun d => d.queueTpdo 2)
  d3.when (tpdoData before 3 != tpdoData after 3) (fun d => d.queueTpdo 3)

/-- An EMCY message is sent, held as the one waiting message, or found unsendable (R398). The result says whether the
message's step has ended. -/
def Dev.sendEmcy (d : Dev) (data : List Byte) (seq : Option Nat) : Dev × Bool :=
  if !d.canTalks then (d, true)
  else if d.can.emcyInhib then
    let d1 := d.when d.can.emcyWait.isSome (fun d => d.count O.EMCY_REPLACED 1)
    let replaced := match d.can.emcyWait with
      | some (_, some q) => some q
      | _ => none
    let d2 := d1.onComa (fun c => { c with windows := c.windows.map (fun w =>
      if some w.seq == replaced then { w with emcy := false } else w) })
    (d2.onCan (fun c => { c with emcyWait := some (data, seq) }), false)
  else
    let d1 := d.sendCan (d.rd O.COB_ID_EMCY) data
    (if d.rd O.INHIBIT_TIME_EMCY == 0 then d1 else d1.onCan (fun c => { c with emcyInhib := true }), true)

/-! ## A scheduled switch-in (R90 to R95) -/

/-- A condition of the running admission changes: the first change decides the outcome (R95). -/
def Dev.upset (d : Dev) (outcome : Nat) : Dev :=
  if d.prov.adm.isSome && d.prov.upset.isNone then d.onProv (fun p => { p with upset := some outcome }) else d

/-- Whether a pair frame number has come to another; both wrap. -/
def frameReached (now target : Nat) : Bool := (now + 2 ^ 32 - target % 2 ^ 32) % 2 ^ 32 < 2 ^ 31

/-- The later of two pair frame numbers, which wrap. -/
def laterFrame (x y : Nat) : Nat := if frameReached y x then y else x

/-- Whether a boundary at a time, with a PAIR_FRAME, meets R90 for the scheduled bank. -/
def Dev.boundaryMeets (d : Dev) (s : Sched) (time : Int) (frame : Nat) : Bool :=
  s.raised && (match s.joint with
    | some b => frameReached frame b
    | none => s.copied || decide ((d.pendingBank.switchAt.toNat : Int) ≤ time))

/-- The point of R92, at a boundary: the next boundary is the chosen one, with DEVICE_TIME as a pending step will leave it (R90;
log entry 125). -/
def Dev.switchPoint (d : Dev) : Dev :=
  match d.prov.sched with
  | none => d
  | some s =>
    let next : Int := (d.time : Int) + 125000 + d.clk.step.getD 0
    if s.committed || d.clamped || !d.boundaryMeets s next (d.rd O.PAIR_FRAME + 1) then d
    else d.onProv (fun p => { p with sched := some { s with committed := true } })

/-! ## Debug levels (R429, R430) -/

/-- DEBUG_LEVEL (Table SE-5). -/
def Dev.debug (d : Dev) : Nat := d.rd O.DEBUG_LEVEL

/-- LIFECYCLE (Table SE-1). -/
def Dev.lifecycle (d : Dev) : Nat := d.rd O.LIFECYCLE

/-- OBSERVE_IN_SERVICE of the generation in force (Table SE-11). -/
def Dev.observeInService (d : Dev) : Bool := d.genBit O.SEC_POLICY 0

/-- The highest debug level a mode lets stand at its entry (Table SE-6). -/
def debugCap (d : Dev) (mode : Nat) : Nat :=
  if mode == 0 then 0
  else if d.lifecycle == 3 then 0
  else if mode == 4 then 1
  else if d.lifecycle == 1 && (mode == 2 || mode == 3) then (if d.observeInService then 1 else 0)
  else 2

/-- Whether Table SE-6 refuses a mode altogether in the present lifecycle state (and debug level). -/
def comboRefused (d : Dev) (mode : Nat) : Bool :=
  (d.lifecycle == 1 && mode == 5) || (d.lifecycle == 3 && (2 ≤ mode && mode ≤ 5))

/-- The debug level that a debug instruction of the TAP needs (Table PK-7). -/
def privateLevel (ir : Nat) : Option Nat :=
  if ir == 0x40 || ir == 0x41 then some 1
  else if ir == 0x42 || ir == 0x43 then some 2
  else none

/-- Whether the instruction loaded in the TAP is a debug one that acts at the debug level in force (R435). -/
def Dev.privateUse (d : Dev) : Bool :=
  match privateLevel d.jtag.ir with
  | some n => n ≤ d.debug
  | none => false

/-- JTAG_PRIVATE_ACTIVE follows the instruction loaded and the level (R435). -/
def Dev.privateStatus (d : Dev) : Dev := d.putFlag O.SEC_STATUS 4 d.privateUse

/-- DEBUG_LEVEL takes a value: DEBUG_CHANGED_SEEN on a change, DEBUG_FORCED_SEEN on a lowering the host did not
request, the highest level kept for the report, the controller released below Full (R428, R429, R434, R435). -/
def Dev.setDebug (d : Dev) (level : Nat) (forced : Bool) : Dev :=
  if level == d.debug then d
  else
    let d1 := ((d.wr O.DEBUG_LEVEL level).set1 O.SEC_STATUS 8).upset 0
    let d2 := d1.when (forced && level < d.debug) (fun x => x.set1 O.SEC_STATUS 9)
    let d3 := (d2.when (level < 2) (fun x => x.putFlag O.SEC_STATUS 3 false)).privateStatus
    d3.onSec (fun s => { s with maxDebug := max s.maxDebug level, lifetime := if level == 0 then none else s.lifetime })

/-- Debug lowered to a cap without the host's request (R430, R431). -/
def Dev.capDebug (d : Dev) (cap : Nat) : Dev := if d.debug > cap then d.setDebug cap true else d

/-! ## Mode changes (R350) -/

/-- The record of a change of MODE (R350 step 4), with the lowering of debug at the boundary (R430). -/
def Dev.recordMode (d : Dev) (m : Nat) : Dev :=
  let d1 := ((d.putFld O.MODE_STATUS 0 3 m).putFld O.MODE_STATUS 4 3 m).putFlag O.MODE_STATUS 10 false
  let d2 := ((d1.wr O.MODE_ENTRY_TIME d.time).count O.MODE_CHANGES 1).set1 O.MODE_STATUS 20
  let d3 := ((d2.capDebug (debugCap d2 m)).onMode (fun s => { s with trans := none })).wr O.MODE_GUARDED 0
  (d3.onPair (fun p => { p with eccSeen := false })).pmBreak

/-- Kiln starts a change of the running point to a lower one: at the next boundary the divisor, then the voltage
(R372). -/
def Dev.startLower (d : Dev) (target : Nat) : Dev :=
  ((d.putFlag O.OP_STATUS 8 true).putFld O.OP_STATUS 2 2 target).onClk
    (fun c => { c with lower := true, raise := false, settled := false })

/-- A scheduled switch-in ends with an outcome of Table PV-3: the pending bank is EDITABLE again. -/
def Dev.unschedule (d : Dev) (outcome : Nat) : Dev :=
  ((d.wr O.PENDING_STATE 0).wr O.SWITCH_OUTCOME outcome).onProv (fun p => { p with sched := none })

/-- A message leaves on the mate link. -/
def Dev.sendMate (d : Dev) (m : MateMsg) : Dev := d.onOut (fun o => { o with mate := o.mate ++ [m] })

/-- A scheduled switch-in is cancelled with an outcome of Table PV-3 (R93): Kiln returns a core it had raised, unless an override
pins a point above (R374). The mate hears of a joint one, but for pair events, which both units see. -/
def Dev.cancelSched (d : Dev) (outcome : Nat) : Dev :=
  match d.prov.sched with
  | none => d
  | some s =>
    let d1 := (d.unschedule outcome).when (s.joint.isSome && outcome != 5) (fun x => x.sendMate .commitCancel)
    let home := d.active.genOp.toNat
    let ov := d.rd O.OP_OVERRIDE
    if ov != 0 && ov - 1 < home then d1
    else if d.op < home || d.clk.raise then d1.startLower home
    else d1

/-- Kiln did not reach the voltage of a scheduled generation's point: the core stays where it was (R93, outcome 6). -/
def Dev.cancelRaise (d : Dev) : Dev :=
  match d.prov.sched with
  | none => d
  | some s => (d.unschedule 6).when s.joint.isSome (fun x => x.sendMate .commitCancel)

/-- A cancelling event before the point of R92: after it the swap takes place (R92, R93); during ADMITTING it cancels the accepted
switch-in afterwards (R95). -/
def Dev.cancelEarly (d : Dev) (outcome : Nat) : Dev :=
  match d.prov.sched with
  | some s => if s.committed then d else d.cancelSched outcome
  | none => d.upset outcome

/-- A check-value channel is left with whatever its user's scan gave it, which the manual does not fix (R406; a free
value, log entry 6). -/
def Dev.channelUsed (d : Dev) (n : Nat) : Dev :=
  (d.wr (keyAt O.RUNNING n) ((Config.freeWord d.free).toNat % 2 ^ 32)).fresh

/-! ## The scan engine (R36, R407; log entry 156) -/

/-- Beats of the scan engine in a time, one for each core clock (Table AR-2). -/
def Dev.beatsIn (d : Dev) (ns : Nat) : Nat := ns * (if d.op == 0 then 750 else if d.op == 1 then 600 else 450) / 1000

/-- The blocks that a scan touches, and where it goes on after some of them. -/
def Scan.total (s : Scan) : Nat := (s.start % 64 + s.len + 63) / 64
def Scan.next (s : Scan) (beats : Nat) : Nat := if beats == 0 then s.start else min (s.start + s.len) ((s.start / 64 + beats) * 64)

/-- Pair self-check, and mate-copy verification, has the engine (R36). -/
def Dev.selfScan (d : Dev) : Bool := d.pair.check && d.pair.ownCheck.isNone
def Dev.mateScan (d : Dev) : Bool := d.elapsed < d.cvu.mateUntil

/-- Whether a user of higher priority than an integrity check has the engine, and one of higher priority than a host scan. -/
def Dev.integDisplaced (d : Dev) : Bool := d.selfScan || d.mateScan
def Dev.displaced (d : Dev) : Bool := d.integDisplaced || d.cvu.integ

/-- The beats that a host scan has done by now: none pass while it is displaced. -/
def Dev.scanBeats (d : Dev) (s : Scan) : Nat :=
  min s.total (if d.selfScan || d.cvu.integ then s.done else s.done + d.beatsIn (d.elapsed - s.since))

/-- A user takes or leaves the engine: the host scan's beats up to now are kept. -/
def Dev.scanHold (d : Dev) : Dev :=
  d.onCvu (fun c => { c with host := c.host.map (fun s => { s with done := d.scanBeats s, since := max d.elapsed c.mateUntil }) })

/-- The verification of a received bank takes the engine for a number of beats (R415). -/
def Dev.mateVerify (d : Dev) (beats : Nat) : Dev :=
  let t := max d.elapsed d.cvu.mateUntil + beats * 1000 / d.beatsIn 1000
  d.scanHold.onCvu (fun c => { c with mateUntil := t, host := c.host.map (fun s => { s with since := t }) })

/-! ## The claim (R319, R332) -/

/-- CLAIM_OUT stops: CLAIMING, the grant and the gate fall (R319). -/
def Dev.stopClaim (d : Dev) : Dev :=
  ((d.putFlag O.PAIR_STATUS 7 false).putFlag O.PAIR_STATUS 8 false).putFlag O.PAIR_STATUS 6 false

/-- A REVERT_REQUEST is sent, and its answer awaited (R337, R338). -/
def Dev.sendRequest (d : Dev) (cause : Nat) : Dev :=
  (d.sendMate (.revertRequest ((d.rd O.PAIR_FRAME + 2) % 2 ^ 32) cause)).onPair (fun p => { p with request := some (d.rd O.PAIR_FRAME, cause) })

/-- PAIR_STATE takes a value (Table PA-2); leaving READY restarts the revert count (R336). -/
def Dev.setPairState (d : Dev) (s : Nat) : Dev :=
  let d1 := d.putFld O.PAIR_STATUS 0 4 s
  if s == 6 then d1 else d1.onPair (fun p => { p with revertAt := none })

/-- A finding of the verification window, while it runs (R341). -/
def Dev.verifyMark (d : Dev) (o : ObjId) (i : Nat) (seen : Bool) : Dev :=
  d.when (d.pair.verify && seen) (fun x => x.wr o (x.rd o ||| 2 ^ i))

/-- An active unit releases: the claim stops, RELEASE goes to the mate, the unit enters Shadow at SYNCING, and FAULTY
is set when the cause was its own failure (R332). -/
def Dev.releaseClaim (d : Dev) (cause : Nat) (own : Bool) : Dev :=
  let d1 := (d.stopClaim.sendMate (.release cause)).cancelEarly 5
  let d2 := ((d1.recordMode 3).setPairState 5).wr O.SYNC_FRAMES 0
  d2.when own (fun x => x.putFlag O.PAIR_STATUS 16 true)

end Sys2Proof.Machine
end

