-- ==== Sys2Proof/Machine/Faults.lean ====
section
/-!
DEFINITION. Fault collection: sources and classes, Coma, counting, merging, reactions, acknowledgement (Fault
Collection and Reaction).
-/
namespace Sys2Proof.Machine

/-! ## Source classes (Table FC-1) -/

abbrev clsClock : Nat := 0
abbrev clsMemory : Nat := 1
abbrev clsGuard : Nat := 2
abbrev clsIntegrity : Nat := 3
abbrev clsQuad : Nat := 4
abbrev clsAlign : Nat := 5
abbrev clsDefect : Nat := 6
abbrev clsMapping : Nat := 7
abbrev clsProtection : Nat := 8
abbrev clsPerformance : Nat := 9
abbrev clsClient : Nat := 10
abbrev clsTfi : Nat := 11
abbrev clsPair : Nat := 12

/-- Whether a class and instance name a source of Table FC-1. -/
def sourceExists (source : Nat) : Bool :=
  let k := source / 256
  let i := source % 256
  if k == 0 || k == 8 || k == 12 then i == 0
  else if k == 1 then i ≤ 7
  else if k == 2 then 1 ≤ i && i ≤ 3
  else if k == 3 then i ≤ 1
  else if k == 4 then i ≤ 15
  else if k == 5 || k == 6 || k == 7 then i ≤ 63
  else if k == 9 || k == 10 || k == 11 then i ≤ 31
  else false

/-- The event a block hands over. -/
structure Ev where
  cls      : Nat
  inst     : Nat
  level    : Nat := 0
  addr     : Nat := 0
  detail   : Nat := 0
  clear    : Bool := false
  forced   : Bool := false
  injected : Bool := false
deriving DecidableEq, Repr

/-- The 16-bit source identifier (R386). -/
def Ev.source (e : Ev) : Nat := e.cls * 256 + e.inst

/-- Whether a clear's DETAIL names the end of a raise's DETAIL (R387, R394; log entry 13). -/
def clearEnds (cls clearDetail raiseDetail : Nat) : Bool :=
  let c := clearDetail % 256
  let r := raiseDetail % 256
  if cls == clsClock then c == 6 && r == 5
  else if cls == clsQuad then c == 2 && r == 1
  else if cls == clsPerformance then c == 4 && r == 3
  else if cls == clsIntegrity then c == 4 && (r == 1 || r == 2 || r == 3)
  else clearDetail == raiseDetail

/-! ## Counting (R390) -/

/-- SEVERE_N and SEVERE_WINDOW (in ns) of a class. -/
def Dev.severeN (d : Dev) (k : Nat) : Nat := d.rd (keyAt O.SEVERE_N k)
def Dev.severeW (d : Dev) (k : Nat) : Nat := d.rd (keyAt O.SEVERE_WINDOW k) * 1000000

/-- An instance's count after one counted raise event, and whether the count reached N (R390). A count of 0 stands for
no open window. -/
def countStep (n w now : Nat) (start cnt : Nat) : (Nat × Nat) × Bool :=
  let (s, c) := if cnt == 0 || now ≥ start + w then (now, 1) else (start, cnt + 1)
  if c == n then ((s, 0), true) else ((s, c), false)

/-- The event is counted toward severity: raises that are real, or injected while INJECT_COUNTS is 1. -/
def Dev.counted (d : Dev) (e : Ev) : Bool := !e.clear && (!e.injected || d.rd O.INJECT_COUNTS == 1)

/-! ## Reactions (R395) -/

abbrev rxPulse : Nat := 1
abbrev rxHold : Nat := 2
abbrev rxEmcy : Nat := 4
abbrev rxRelease : Nat := 8

/-- FLAGS of an entry (Table FC-3). -/
def entryFlags (e : ComaEntry) : Nat :=
  ofBit e.severe + 2 * ofBit e.winOpen + 4 * ofBit e.injected + 8 * ofBit e.cleared + 16 * ofBit e.overwrote
    + 32 * ofBit e.clear + 64 * ofBit e.forced + 128 * ofBit e.acked

/-- The EMCY message of a window's entry (R398). -/
def emcyBytes (d : Dev) (w : Window) : List Byte :=
  let flags := match d.coma.entries.find? (fun e => e.seq == w.seq) with
    | some e => entryFlags e
    | none => 3 + 4 * ofBit w.injected + 64 * ofBit w.forced + 128 * ofBit w.acked
  bytesLE 2 (0xFF00 + w.source / 256) ++ bytesLE 1 (errorRegister d.coma) ++ bytesLE 1 (w.source % 256)
    ++ bytesLE 1 flags ++ bytesLE 3 w.seq

/-- Whether a window's reaction sequence still runs: a pulse, or an EMCY message still to be sent (R395). -/
def Window.busy (w : Window) : Bool := w.pulse || w.emcy

/-- A window of the coma replaced, by its entry. -/
def Dev.putWindow (d : Dev) (w : Window) : Dev :=
  d.onComa (fun c => { c with windows := c.windows.map (fun x => if x.seq == w.seq then w else x) })

/-- The window of an entry. -/
def Dev.window (d : Dev) (seq : Nat) : Option Window := d.coma.windows.find? (fun w => w.seq == seq)

/-- Windows whose sequence has ended and whose entry is acknowledged close (R392). -/
def Dev.closeWindows (d : Dev) : Dev :=
  d.onComa (fun c =>
    let gone := (c.windows.filter (fun w => !w.busy && w.acked)).map (·.seq)
    { c with windows := c.windows.filter (fun w => w.busy || !w.acked),
             entries := c.entries.map (fun e => if gone.contains e.seq then { e with winOpen := false } else e) })

/-- Steps 3 and 4 of R395, once no pulse runs: queue the EMCY message, set HOLD. -/
def Dev.reactEnd (d : Dev) (seq : Nat) : Dev :=
  match d.window seq with
  | none => d
  | some w =>
    if w.pulse then d
    else
      let due := w.want &&& (15 ^^^ w.ran)
      let d1 := d.when (due &&& rxHold != 0) (fun x => x.putFlag O.FAULT_N_CTRL 0 true)
      let d2 := d1.putWindow { w with ran := w.ran ||| (due &&& (rxEmcy ||| rxHold)), emcy := w.emcy || due &&& rxEmcy != 0 }
      if due &&& rxEmcy == 0 then d2
      else
        let (d3, ended) := d2.sendEmcy (emcyBytes d2 w) (some seq)
        (if ended then match d3.window seq with
          | some w3 => d3.putWindow { w3 with emcy := false }
          | none => d3
        else d3).closeWindows

/-- The reaction sequencer of R395 for the reactions a window wants and has not run. -/
def Dev.react (d : Dev) (seq : Nat) : Dev :=
  match d.window seq with
  | none => d
  | some w =>
    let due := w.want &&& (15 ^^^ w.ran)
    let d1 := d.putWindow { w with ran := w.ran ||| (due &&& (rxRelease ||| rxPulse)),
                                   pulse := w.pulse || due &&& rxPulse != 0 }
    let d2 := d1.when (due &&& rxRelease != 0 && d1.pairState == 1 && d1.mateReady) (fun x => x.releaseClaim 4 false)
    d2.reactEnd seq

/-! ## Events (R386 to R394) -/

/-- Whether fault collection takes events: after Boot, while the management domain has a source (R401). -/
def Dev.collecting (d : Dev) : Bool := !d.inBoot && !d.flag O.CLAMP_CAUSE 0

/-- A clear marks the newest held unread raise entry of the condition it ends (R394). -/
def markCleared (e : Ev) (entries : List ComaEntry) : List ComaEntry :=
  let hit := (entries.filter (fun x => x.source == e.source && x.addr == e.addr && !x.clear && !x.read
    && clearEnds e.cls e.detail x.detail)).getLast?
  match hit with
  | some h => entries.map (fun x => if x.seq == h.seq then { x with cleared := true } else x)
  | none => entries

/-- An entry is written into Coma: the oldest of 32 is overwritten (R388, R389). -/
def Dev.writeEntry (d : Dev) (e : Ev) (severe forced : Bool) : Dev :=
  let full := d.coma.entries.length ≥ 32
  let lost := full && (match d.coma.entries.head? with | some x => !x.read | none => false)
  let entry : ComaEntry := {
    seq := d.coma.next, time := d.time, source := e.source, level := e.level, addr := e.addr
    detail := e.detail, severe := severe, winOpen := severe, injected := e.injected, clear := e.clear
    forced := forced, overwrote := lost }
  let d1 := d.onComa (fun c => { c with
    entries := (if full then c.entries.drop 1 else c.entries) ++ [entry]
    next := (c.next + 1) % 2 ^ 32 })
  d1.when lost (fun x => x.count O.LOST_UNREAD 1)

/-- An event reaches fault collection: it is counted, then merged into an open window of its kind or written as an
entry; a severe entry opens a window and starts its reactions (R388 to R395). -/
def Dev.raise (d : Dev) (e : Ev) : Dev :=
  if !d.collecting then d
  else
    let d0 := d.when e.clear (fun x => x.onComa (fun c => { c with entries := markCleared e c.entries }))
    let forced := e.forced || (e.cls == clsMemory && !e.clear)
    let (start, cnt) := smLook (0, 0) d.coma.counts e.source
    let (next, hit) := countStep (d.severeN e.cls) (d.severeW e.cls) d.time start cnt
    let counts := d.counted e
    let d1 := d0.when counts (fun x => x.onComa (fun c => { c with counts := smPut (0, 0) c.counts e.source next }))
    let severe := forced || (counts && hit)
    let seen := fun (x : Dev) (seq : Nat) =>
      x.when severe (fun y => y.onComa (fun c => { c with unacked := c.unacked ++ [(seq, e.cls)] }))
    match d1.coma.windows.find? (fun w => w.injected == e.injected) with
    | some w =>
      let d2 := d1.onComa (fun c => { c with entries := c.entries.map (fun x =>
        if x.seq == w.seq then { x with merged := min (x.merged + 1) 0xFFFF, secondary := x.secondary ||| 2 ^ e.cls }
        else x) })
      let d3 := seen d2 w.seq
      if severe && w.busy then
        (d3.putWindow { w with want := w.want ||| (d.rd (keyAt O.REACTION e.cls) &&& 15) }).react w.seq
      else d3
    | none =>
      let seq := d1.coma.next
      let d2 := seen (d1.writeEntry e severe forced) seq
      if severe then
        let w : Window := {
          seq := seq, source := e.source, injected := e.injected
          want := d.rd (keyAt O.REACTION e.cls) &&& 15, ran := 0, forced := forced }
        (d2.onComa (fun c => { c with windows := c.windows ++ [w] })).react seq
      else d2

/-- A CLOCK event, level 5 (R384); DETAIL bits 23:8 carry CLAMP_CAUSE for a Clamp entry (Table FC-1). -/
def Dev.clockEvent (d : Dev) (code : Nat) (causes : Nat := 0) (clear : Bool := false) : Dev :=
  d.raise { cls := clsClock, inst := 0, level := 5, detail := code + causes * 256, clear := clear }

/-- A PAIR event, level 5, or 6 for a takeover (R342). -/
def Dev.pairEvent (d : Dev) (detail : Nat) (forced : Bool := false) : Dev :=
  d.raise { cls := clsPair, inst := 0, level := if detail % 256 == 1 then 6 else 5, detail := detail, forced := forced }

/-- The pulse of a window of one kind ends (R395). -/
def Dev.endPulse (d : Dev) (injected : Bool) : Dev :=
  match d.coma.windows.find? (fun w => w.injected == injected && w.pulse) with
  | none => d
  | some w => ((d.putWindow { w with pulse := false }).reactEnd w.seq).closeWindows

/-- The EMCY inhibit time ends: the waiting message leaves (R398). -/
def Dev.emcyInhibitEnd (d : Dev) : Dev :=
  let d1 := d.onCan (fun c => { c with emcyInhib := false })
  match d.can.emcyWait with
  | none => d1
  | some (data, seq) =>
    let d2 := (d1.onCan (fun c => { c with emcyWait := none })).sendEmcy data seq
    let d3 := match seq with
      | some q => match d2.1.window q with
        | some w => d2.1.putWindow { w with emcy := false }
        | none => d2.1
      | none => d2.1
    d3.closeWindows

/-- Whether a sequence number lies in the 2^31 values ending at `s` (R397). -/
def ackCovers (s q : Nat) : Bool := (s + 2 ^ 32 - q) % 2 ^ 32 < 2 ^ 31

/-- A write of ACK_SEQ (R397): entries and windows are acknowledged; when the last severe event is, EMCY 0x0000 goes
out (R398). -/
def Dev.acknowledge (d : Dev) (s : Nat) : Dev :=
  let had := !d.coma.unacked.isEmpty
  let d1 := d.onComa (fun c => { c with
    entries := c.entries.map (fun e => if e.severe && ackCovers s e.seq then { e with acked := true } else e)
    windows := c.windows.map (fun w => if ackCovers s w.seq then { w with acked := true } else w)
    unacked := c.unacked.filter (fun u => !ackCovers s u.1) })
  let d2 := d1.closeWindows
  if had && d2.coma.unacked.isEmpty then (d2.sendEmcy (List.replicate 8 0) none).1.closeWindows else d2

/-- A write of SEVERE_N or SEVERE_WINDOW closes the counting windows of the class (R390). -/
def Dev.closeCounts (d : Dev) (k : Nat) : Dev :=
  d.onComa (fun c => { c with counts := c.counts.filter (fun e => e.1 / 256 != k) })

/-- FAULT_N is driven low: a pulse runs or HOLD is 1, and outputs are not inert (R396). -/
def Dev.faultNLow (d : Dev) : Bool :=
  (d.coma.windows.any (·.pulse) || d.flag O.FAULT_N_CTRL 0) && !d.inert

/-- The 32 bytes of a history entry (Table FC-2). -/
def entryBytes (e : ComaEntry) : List Byte :=
  bytesBE 8 e.time ++ bytesBE 4 e.seq ++ bytesBE 2 e.source ++ bytesBE 1 e.level ++ bytesBE 1 (entryFlags e)
    ++ bytesBE 4 e.addr ++ bytesBE 4 e.detail ++ bytesBE 2 e.merged ++ bytesBE 2 0 ++ bytesBE 4 e.secondary

/-- HISTORY: the held entries, oldest first, as many whole ones as fit (R389, R471). -/
def historyValue (d : Dev) (maxLen : Nat) : List Byte × List Nat :=
  let es := d.coma.entries.take (maxLen / 32)
  (es.flatMap entryBytes, es.map (·.seq))

/-- Entries that a completed read returned are read (R389). -/
def Dev.markRead (d : Dev) (seqs : List Nat) : Dev :=
  d.onComa (fun c => { c with entries := c.entries.map (fun e => if seqs.contains e.seq then { e with read := true } else e) })

end Sys2Proof.Machine
end

