-- ==== Sys2Proof/Machine/Guard.lean ====
section
/-!
DEFINITION. Masters, privilege and guard arms (R48 to R55), and how a command's effect becomes the outcome of `exec`.
-/
namespace Sys2Proof.Machine

/-- The outcome of a command that is no host access. -/
def done (s : State) (d : Dev) : Host.Outcome State Fault Refusal :=
  .next { s with dev := tpdoSweep s.dev d }

/-- The outcome of a host access by a master: its abort code and data are recorded; a changed `rsvd` field stops the
machine (R47; log entry 7). -/
def hostDone (s : State) (m : Master) (r : Dev × Nat) (data : List Byte := []) : Host.Outcome State Fault Refusal :=
  if r.1.undoc then .fault .rsvdChanged
  else .next { s with dev := tpdoSweep s.dev (r.1.onMaster m (fun x => { x with abort := r.2, data := data })) }

/-- THIS_PRIVILEGE of a master: 0 unprivileged, 1 privileged, 2 secure (R48, R433). -/
def Dev.privilege (d : Dev) : Master → Nat
  | .spi => if d.flag O.STRAPS 7 then 1 else 0
  | .can => if d.flag O.SEC_STATUS 2 then 1 else 0
  | .mgmt => 2

/-- A discarded guard sequence is counted, logged and reported (R55). -/
def Dev.guardDiscard (d : Dev) (m : Master) (idx sub cause : Nat) : Dev :=
  let obj := idx * 65536 + sub * 256 + masterNo m
  let d1 := ((d.count O.GUARD_DISCARDS 1).wr O.LAST_GUARD_OBJECT obj).wr O.LAST_GUARD_CAUSE cause
  d1.raise { cls := clsGuard, inst := masterNo m, level := 5, detail := (idx * 256 + sub) * 256 + cause }

/-- A master's arm is cleared, and logged with a cause, when it holds one (R54). -/
def Dev.dropArm (d : Dev) (m : Master) (cause : Nat) : Dev :=
  match (d.master m).arm with
  | none => d
  | some a => (d.onMaster m (fun x => { x with arm := none })).guardDiscard m a.idx a.sub cause

/-- The effect of a write by a master that is no completing write: an arm it breaks is cleared first (Table DI-5,
cause 4); the dictionary is out of reach in Boot (R354). -/
def Dev.plainWrite (d : Dev) (m : Master) (f : Dev → Dev × Nat) : Dev × Nat :=
  if d.inBoot then (d, abRefused) else f (d.dropArm m 4)

/-! ## Request queues (R49, R58) -/

/-- The tag of a request that no Milber frame carries: its response needs no FETCH. One whose response is not transferred whole
has no completion effect (R57). -/
abbrev tagNone : Nat := 16
abbrev tagShort : Nat := 17

/-- The entries of a master's queue that are occupied: its requests, and for CAN the SDO transfer in progress (R49, R66, R72). -/
def Dev.occupancy (d : Dev) (m : Master) : Nat :=
  (d.master m).queue.length + ofBit (m == .can && d.can.sdo.isSome)

/-- QUEUE_PEAK follows a master's occupancy (Table DI-11). -/
def Dev.queuePeak (d : Dev) (m : Master) : Dev :=
  let lo := 8 * (masterNo m - 1)
  d.putFld O.QUEUE_PEAK lo 8 (max (d.fld O.QUEUE_PEAK lo 8) (d.occupancy m))

/-- A request is refused because its master's queue is full (R58). -/
def Dev.overload (d : Dev) (m : Master) : Dev := d.count (keyOf O.OVERLOAD_COUNT (masterNo m)) 1

/-- A request joins its master's queue; with 16 entries occupied it aborts (R58). -/
def Dev.queueReq (d : Dev) (m : Master) (r : Req) : Dev × Nat :=
  if 16 ≤ d.occupancy m then (d.overload m, abQueue)
  else ((d.onMaster m (fun x => { x with queue := x.queue ++ [r] })).queuePeak m, 0)

/-- The first request of a queue that has not executed. -/
def Dev.nextReq (d : Dev) (m : Master) : Option Req := (d.master m).queue.find? (fun r => !r.done)

/-- Whether a request that a master makes now is its next to execute: none of its requests waits, and an entry of its queue is
free (R49, R58). -/
def Dev.turnOf (d : Dev) (m : Master) : Bool := (d.nextReq m).isNone && decide (d.occupancy m < 16)

/-- A host access that a command names: `r` is its effect where it is the master's next to execute. Behind requests of the
same master it waits its turn as the request `q`; with no free entry it aborts (R49, R58; log entry 33). The dictionary is
out of reach in Boot (R354). -/
def hostTurn (s : State) (m : Master) (q : Req) (r : Dev × Nat) (data : List Byte := []) : Host.Outcome State Fault Refusal :=
  if s.dev.inBoot then hostDone s m (s.dev, abRefused)
  else if s.dev.turnOf m then hostDone s m r data
  else hostDone s m (s.dev.queueReq m q)

/-- The request that writes bytes to an entry. -/
def writeReq (idx sub : Nat) (data : List Byte) : Req := { tag := tagNone, body := .write idx sub data }

/-- A write row that is no completing write: `idx`, `sub` and `data` are what its master writes. -/
def hostWrite (s : State) (m : Master) (idx sub : Nat) (data : List Byte) (f : Dev → Dev × Nat) :
    Host.Outcome State Fault Refusal :=
  hostTurn s m (writeReq idx sub data) (s.dev.plainWrite m f)

/-- The bytes of a number as its entry's type carries it. -/
def numeralBytes (k : Key) (v : Nat) : List Byte :=
  match findObj (Key.idx k) (Key.sub k) with
  | some o => bytesLE (o.ty.width / 8) v
  | none => []

/-- A write row whose operand is the number `v` of the entry at `k`. -/
def hostNum (s : State) (m : Master) (k : Key) (v : Nat) (f : Dev → Dev × Nat) : Host.Outcome State Fault Refusal :=
  hostWrite s m (Key.idx k) (Key.sub k) (numeralBytes k v) f

/-- The arming write of a guarded object (R52): privilege, then length and range are checked; a good value arms the
master's guard. `lenOk` and `inRange` are the object's own checks. -/
def Dev.armGuard (d : Dev) (m : Master) (idx n v : Nat) (lenOk inRange : Bool) : Dev × Nat :=
  let d0 := d.dropArm m 4
  if d.privilege m == 0 then (d0.guardDiscard m idx n 1, abGuard)
  else if !lenOk then (d0, abLength)
  else if !inRange then (d0, abRange)
  else (d0.onMaster m (fun x => { x with arm := some { idx := idx, sub := n, value := v } }), 0)

/-- The completing write: value `c` of `w` bits to subindex `n + 40` (R52, Table DI-5). A matching complement disarms
and applies the armed value. -/
def Dev.completeGuard (d : Dev) (m : Master) (idx n w c : Nat) (lenOk : Bool) (apply : Nat → Dev → Dev × Nat) :
    Dev × Nat :=
  let armed := match (d.master m).arm with
    | some a => a.idx == idx && a.sub == n
    | none => false
  if d.privilege m == 0 then ((d.dropArm m 4).guardDiscard m idx n 1, abGuard)
  else if !armed then ((d.dropArm m 4).guardDiscard m idx n 2, abGuard)
  else
    let v := match (d.master m).arm with
      | some a => a.value
      | none => 0
    if !lenOk then (d.dropArm m 3, abLength)
    else if c + v + 1 != 2 ^ w then (d.dropArm m 3, abGuard)
    else apply v (d.onMaster m (fun x => { x with arm := none }))

/-- The completing write of a command row whose operand is the value itself: its complement goes to `n + 40`. -/
def Dev.completing (d : Dev) (m : Master) (idx n w v : Nat) (apply : Nat → Dev → Dev × Nat) : Dev × Nat :=
  if d.inBoot then (d, abRefused)
  else d.completeGuard m idx n w (2 ^ w - 1 - v % 2 ^ w) true apply

/-- The outcome of a guarded row: the completing write of a value, given uncomplemented (R52). -/
def hostGuard (s : State) (m : Master) (idx n w v : Nat) (apply : Nat → Dev → Dev × Nat) :
    Host.Outcome State Fault Refusal :=
  hostTurn s m (writeReq idx (n + 64) (bytesLE (w / 8) (2 ^ w - 1 - v % 2 ^ w))) (s.dev.completing m idx n w v apply)

/-- A write of a whole `trg` object: 1 fires, 0 has no effect, other values abort (R44). -/
def trigger (v : Nat) (d : Dev) (f : Dev → Dev × Nat) : Dev × Nat :=
  if v == 1 then f d else if v == 0 then (d, 0) else (d, abRange)

/-- A write of an object whose block's clock may be gated: while it is, the write is discarded (R59). -/
def Dev.ungated (d : Dev) (gate : Nat) (f : Dev → Dev × Nat) : Dev × Nat := if d.gateOn gate then f d else (d, 0)

/-! ## Places that answer for no block -/

/-- An index of a bonded quad's ports 4q+1 to 4q+3 in the blocks that read zeros (Table DI-13). -/
def Dev.bondedIndex (d : Dev) (idx : Nat) : Bool :=
  let b := baseOf idx
  (b == 0x2880 || b == 0x28C0 || b == 0x2900 || b == 0x2940 || b == 0x2980)
    && instOf idx % 4 != 0 && bonded d.active (instOf idx / 4)

/-! ## Memory errors (R31, R60, R402, R411) -/

/-- An uncorrectable error in a region of Table AR-5 is reported (class 1), and remembered for self-check (R330). -/
def Dev.memoryError (d : Dev) (region offset : Nat) : Dev :=
  (d.onPair (fun p => { p with eccSeen := true })).raise
    { cls := clsMemory, inst := region, level := 5, detail := offset }

/-- An uncorrectable error at a place of a region that the manual does not publish: the offset is a free value. -/
def Dev.memoryErrorSomewhere (d : Dev) (region : Nat) : Dev :=
  (d.memoryError region ((Config.freeWord d.free).toNat % 2 ^ 18 * 8)).fresh

/-- A single-bit error in a region is corrected and counted; it raises no event (R31, R402). -/
def Dev.eccCorrected (d : Dev) (region : Nat) : Dev := d.count (O.ECC_CORRECTED + region) 1

/-- What ECC found in the words that an access read from a region (R31, R60, R402). -/
def Dev.eccHit (d : Dev) (region : Nat) : Ecc → Dev
  | .clean => d
  | .corrected => d.eccCorrected region
  | .uncorrectable => d.memoryErrorSomewhere region

end Sys2Proof.Machine
end

