-- ==== Sys2Proof/Machine/Align.lean ====
section
/-!
DEFINITION. Frame alignment: Syzygy's candidate search, out of frame, loss of frame and the OTN multiframe
(R129 to R148).
-/
namespace Sys2Proof.Machine

/-- The pattern of R129: six framing bytes. -/
abbrev framing : Nat := 0xF6F6F6282828

/-! ## Places -/

/-- Where a search's state is kept: lane l at l, the client frame of port p at 64 + p. -/
def syzKey : Syz → Nat
  | .lane l => l.val
  | .client p => 64 + p.val

/-- The search at a place. -/
def Dev.syz (d : Dev) (k : Nat) : Syzygy := smLook {} d.align.syz k

/-- The port of a place. -/
def Dev.syzPort (d : Dev) (k : Nat) : Nat := if k < 64 then lanePort d.active k else k - 64

/-- The period L of a place. -/
def Dev.syzPeriod (d : Dev) (k : Nat) : Nat :=
  if k < 64 then lanePeriod (portType d.active (d.syzPort k)) else 19440 * stmN (portType d.active (k - 64))

/-- Whether the search runs: its block runs, its port is enabled; a client search only on an OTU port. -/
def Dev.syzRuns (d : Dev) (k : Nat) : Bool :=
  if k < 64 then d.runs gAlign && laneOn d.active k
  else d.runs gMapping && portOn d.active (k - 64) && isOtu (portType d.active (k - 64))

/-- LOS of the lane at a place. -/
def Dev.syzLos (d : Dev) (k : Nat) : Bool := k < 64 && d.flag (keyAt O.LANE_STATUS k) 0

/-- OOF and LOS of a port (R121, R144). -/
def Dev.portOof (d : Dev) (p : Nat) : Bool := d.flag (keyAt O.ALIGN_STATUS p) 1
def Dev.portLos (d : Dev) (p : Nat) : Bool :=
  (portLanes d.active p).any (fun l => d.flag (keyAt O.LANE_STATUS l) 0)

/-- CLIENT_OOF of a port (R198). -/
def Dev.clientOof (d : Dev) (p : Nat) : Bool := d.flag (keyAt O.OPU_STATUS p) 3

/-- Whether the client search is held OOF: the OTU port is OOF or in ODU-AIS (R198). -/
def Dev.clientHeld (d : Dev) (p : Nat) : Bool :=
  d.portOof p || d.flag (keyCtx O.DEFECT_RAW (portAddr p)) 10

/-- IF_N of a port's control (Table FA-7). -/
def Dev.ifN (d : Dev) (p : Nat) : Nat := d.genFld (keyAt O.ALIGN_CTRL p) 0 4

/-- The search at a place replaced, with CANDIDATE_SLOTS of the port's first lane following its slots. -/
def Dev.putSyz (d : Dev) (k : Nat) (z : Syzygy) : Dev :=
  let d1 := d.onAlign (fun a => { a with syz := smPut {} a.syz k z })
  if k < 64 && d.syzPort k == k then
    d1.wr (keyAt O.CANDIDATE_SLOTS k) (z.slots.foldl (fun m e => m + 2 ^ e.1) 0)
  else d1

/-- An ALIGN event of a port (Table FC-1). -/
def Dev.alignEvent (d : Dev) (p code : Nat) : Dev :=
  d.raise { cls := clsAlign, inst := p, level := 3, addr := portAddr p, detail := code }

/-! ## Starting and stopping -/

/-- A lane's search starts afresh, its bit counter at 0: the port was enabled or its type changed (R130, Table FA-3). -/
def Dev.freshSearch (d : Dev) (k : Nat) : Dev := d.putSyz k {}

/-- The lane's frame in progress ends early (R137). -/
def Dev.cutFrame (d : Dev) (k : Nat) : Dev := d.onAlign (fun a => { a with cut := addOnce a.cut k })

/-- A lane resumes its search: P_ref and NEVER_LOCKED as they were, slots 1 to 7 cleared, not in frame (R146). -/
def Dev.resumeSearch (d : Dev) (k : Nat) : Dev :=
  let z := d.syz k
  d.putSyz k { z with slots := z.slots.filter (fun e => e.1 == 0), phase := none, run := 0 }

/-- The client search of a port is held or starts OOF: its in-frame phase becomes the reference (R136, R198). -/
def Dev.holdClient (d : Dev) (p : Nat) : Dev :=
  let z := d.syz (64 + p)
  let d1 := d.putSyz (64 + p) { z with phase := none, run := 0, slots := match z.phase with
    | some ph => smInsert 0 (ph, 0) (smDrop z.slots 0)
    | none => z.slots }
  if isOtu (portType d.active p) then d1.putFlag (keyAt O.OPU_STATUS p) 3 true else d1

/-- The status bits of a port at a start or resumption: running, OOF, out of multiframe on an OTU port, nothing
declared; `never` is NEVER_LOCKED (R145, R146). The multiframe flywheel and its runs start at 0 (log entry 130). -/
def Dev.alignStatusStart (d : Dev) (p : Nat) (never : Bool) : Dev :=
  let otu := isOtu (portType d.active p)
  let lanes := if bonded d.active (p / 4) then 0xF000 else 0
  let keep := d.rd (keyAt O.ALIGN_STATUS p) &&& 0xFC0
  (d.wr (keyAt O.ALIGN_STATUS p) (keep + 3 + lanes + 8 * ofBit otu + 32 * ofBit never)).onAlign (fun a =>
    { a with lof := smDrop (smDrop a.lof p) (64 + p), lom := smDrop a.lom p, mf := smDrop a.mf p,
             clientLof := a.clientLof.filter (· != p), cut := a.cut.filter (fun k => k != p && k != 64 + p)
             due := a.due.filter (· != p) }) |>.onLine (fun x => { x with marked := x.marked.filter (fun l => lanePort d.active l != p) })

/-- A port's alignment starts: enabled, or its type changed (Table FA-3). -/
def Dev.alignEnable (d : Dev) (p : Nat) : Dev :=
  let d1 := (portLanes d.active p).foldl Dev.freshSearch (d.freshSearch (64 + p))
  (((d1.alignStatusStart p true).wr (keyAt O.FRAME_PHASE p) 0xFFFFFFFF).wr (keyAt O.MFAS_LAST p) 0).holdClient p

/-- A port's alignment resumes (R146). -/
def Dev.alignResume (d : Dev) (p : Nat) : Dev :=
  let d1 := (portLanes d.active p).foldl Dev.resumeSearch (d.resumeSearch (64 + p))
  (d1.alignStatusStart p (d.flag (keyAt O.ALIGN_STATUS p) 5)).holdClient p

/-- A disabled port's alignment stops: its status reads 0, its counters keep their values (Table FA-3). -/
def Dev.alignStop (d : Dev) (p : Nat) : Dev :=
  ((d.wr (keyAt O.ALIGN_STATUS p) 0).wr (keyAt O.FRAME_PHASE p) 0xFFFFFFFF).wr (keyAt O.CANDIDATE_SLOTS p) 0
    |>.onAlign (fun a => { a with
      syz := smDrop (smDrop a.syz p) (64 + p), lof := smDrop (smDrop a.lof p) (64 + p), lom := smDrop a.lom p
      mf := smDrop a.mf p, clientLof := a.clientLof.filter (· != p), cut := a.cut.filter (fun k => k != p && k != 64 + p)
      due := a.due.filter (· != p) })

/-- Every port's alignment resumes; a port that a switch-in changed while the block did not run takes Table FA-3 now (R146). -/
def Dev.alignStart (d : Dev) : Dev :=
  (List.range 64).foldl (fun (x : Dev) p =>
    if portOn d.active p then (if d.align.due.contains p then x.alignEnable p else x.alignResume p)
    else if d.align.due.contains p then x.alignStop p else x) d

/-! ## Out of frame (R136, R139, R144) -/

/-- The reference phase returns to slot 0 with a count of 0. -/
def toReference (z : Syzygy) (phase : Nat) : Syzygy :=
  { z with slots := smInsert 0 (phase, 0) (smDrop z.slots 0), phase := none, pref := phase, run := 0 }

/-- The time spent continuously in frame, or in multiframe, ends (R141, R143). -/
def Dev.breakRuns (d : Dev) (k : Nat) : Dev :=
  d.onAlign (fun a =>
    let cut := fun (m : SMap (Nat × Nat)) => smPut (0, 0) m k ((smLook (0, 0) m k).1, 0)
    { a with lof := cut a.lof, lom := if k < 64 then cut a.lom else a.lom })

/-- OOF is declared at a place that is in frame: the port counts and reports its entry into OOF once. -/
def Dev.declareOof (d : Dev) (k : Nat) : Dev :=
  let z := d.syz k
  match z.phase with
  | none => d
  | some phase =>
    let p := d.syzPort k
    let d1 := (d.putSyz k (toReference z phase)).breakRuns (if k < 64 then p else k)
    if k ≥ 64 then d1.putFlag (keyAt O.OPU_STATUS p) 3 true
    else
      let d2 := (d1.onLine (fun x => { x with marked := x.marked.filter (· != k) })).when (bonded d.active (p / 4)) (fun x =>
        x.putFlag (keyAt O.ALIGN_STATUS p) (12 + k % 4) true)
      if d.portOof p then d2
      else
        let d3 := ((d2.putFlag (keyAt O.ALIGN_STATUS p) 1 true).set1 (keyAt O.ALIGN_STATUS p) 7).count (keyAt O.OOF_COUNT p) 1
        let d4 := d3.when (isOtu (portType d.active p)) (fun x => x.holdClient p)
        d4.alignEvent p 1

/-- OOF_M of a port's control (Table FA-7). -/
def Dev.oofLimit (d : Dev) (p : Nat) : Nat := d.genFld (keyAt O.ALIGN_CTRL p) 4 4

/-- OOF is declared where the run of errored patterns has reached OOF_M (R136). -/
def Dev.oofCheck (d : Dev) (k : Nat) : Dev :=
  if d.syzRuns k && d.oofLimit (d.syzPort k) ≤ (d.syz k).run then d.declareOof k else d

def execOofDeclare (z : Syz) (s : State) : Host.Outcome State Fault Refusal := done s (s.dev.oofCheck (syzKey z))

/-- LOS is declared on a lane: OOF is forced, slots 1 to 7 are cleared (R139). -/
def Dev.losForcesOof (d : Dev) (l : Nat) : Dev :=
  if !d.syzRuns l then d
  else
    let d1 := d.declareOof l
    let z := d1.syz l
    d1.putSyz l { z with slots := z.slots.filter (fun e => e.1 == 0) }

/-! ## Candidate search (R131, R132) -/

/-- The slot that holds a phase. -/
def slotOf (z : Syzygy) (phase : Nat) : Option (Nat × Nat × Nat) := z.slots.find? (fun e => e.2.1 == phase)

/-- The lowest free slot: of 0 to 7 before a first lock, of 1 to 7 after it (R133). -/
def freeSlot (z : Syzygy) : Option Nat :=
  (List.range 8).find? (fun i => (i != 0 || !z.locked) && !z.slots.any (fun e => e.1 == i))

/-- The 48 bits at a phase are examined: a correct pattern counts, an errored one frees its slot or lengthens the
errored run, up to OOF (R131, R132, R136). -/
def patternSeen (d : Dev) (k phase : Nat) (correct : Bool) : Dev :=
  let z := d.syz k
  if !d.syzRuns k || d.syzLos k then d
  else if z.phase == some phase then (d.putSyz k { z with run := if correct then 0 else min (z.run + 1) 8 }).oofCheck k
  else match slotOf z phase with
    | some (i, _, c) =>
      if correct then d.putSyz k { z with slots := smPut (0, 0) z.slots i (phase, min (c + 1) 8) }
      else if i == 0 && z.locked then d.putSyz k { z with slots := smInsert 0 (phase, 0) (smDrop z.slots 0) }
      else d.putSyz k { z with slots := smDrop z.slots i }
    | none =>
      if !correct then d
      else match freeSlot z with
        | some i => d.putSyz k { z with slots := smInsert i (phase, 1) z.slots }
        | none =>
          if k < 64 then (d.count (keyAt O.CANDIDATE_OVERFLOW (d.syzPort k)) 1).alignEvent (d.syzPort k) 5 else d

/-- The bit counter advances with every received bit, modulo L (R130). -/
def Dev.bitsPassed (d : Dev) (k n : Nat) : Dev :=
  let z := d.syz k
  let l := d.syzPeriod k
  d.putSyz k { z with pos := if l == 0 then z.pos else (z.pos + n) % l }

/-- The 48 bits that stand `n` bits after the last place examined; a lane with RX_INVERT inverts them (R119). -/
def framingSeen (d : Dev) (k n : Nat) (w : BitVec 48) : Dev :=
  let d1 := d.bitsPassed k n
  let word := if k < 64 && d.genBit (keyAt O.LANE_CTRL k) 0 then ~~~w else w
  patternSeen d1 k (d1.syz k).pos (word.toNat == framing)

def execFramingPattern (z : Syz) (advance : Nat) (w : BitVec 48) (s : State) : Host.Outcome State Fault Refusal :=
  done s (framingSeen s.dev (syzKey z) advance w)

/-! ## Decisions (R133, R134, R138) -/

/-- The offset of a phase from the reference phase. -/
def phaseOffset (l pref phase : Nat) : Nat := (phase + l - pref % l) % l

/-- The eligible candidate with the smallest offset: its slot and phase. -/
def winner (z : Syzygy) (l n : Nat) : Option (Nat × Nat) :=
  (z.slots.filter (fun e => e.2.2 ≥ n)).foldl (fun best e =>
    match best with
    | none => some (e.1, e.2.1)
    | some (i, ph) => if phaseOffset l z.pref e.2.1 < phaseOffset l z.pref ph then some (e.1, e.2.1) else some (i, ph)) none

/-- The search after a win: the winner is the reference in slot 0; at a first lock another candidate in slot 0 moves to
the slot that the winner leaves (R133). -/
def afterWin (z : Syzygy) (i phase : Nat) : Syzygy :=
  let rest := smDrop (smDrop z.slots i) 0
  let moved := match z.slots.find? (fun e => e.1 == 0) with
    | some e => if !z.locked && i != 0 then smInsert i e.2 rest else rest
    | none => rest
  { z with slots := smInsert 0 (phase, 0) moved, phase := some phase, pref := phase, locked := true, run := 0 }

/-- The signed shift of a change of alignment, from −L/2 to L/2 − 1 bits, as INTEGER32 (R138). -/
def phaseShift (l old new : Nat) : Nat :=
  let o := phaseOffset l old new
  ofSigned 32 (if 2 * o ≥ l then (o : Int) - (l : Int) else (o : Int))

/-- A port's alignment changes: OOM at once on an OTU port, whose flywheel goes on, the event, the count (R138, R142). -/
def Dev.changeOfAlignment (d : Dev) (p lane shift : Nat) : Dev :=
  let d1 := ((d.count (keyAt O.COA_COUNT p) 1).set1 (keyAt O.ALIGN_STATUS p) 10).when (lane == p)
    (fun x => x.wr (keyAt O.PHASE_SHIFT p) shift)
  let d2 := d1.when (isOtu (portType d.active p)) (fun x =>
    (x.putFlag (keyAt O.ALIGN_STATUS p) 3 true).onAlign (fun a => { a with
      mf := smPut {} a.mf p { smLook {} a.mf p with good := 0, bad := 0 } }) |>.breakRuns p)
  d2.alignEvent p 4

/-- A lane goes in frame: its own bit, then the port's, the phase and the change of alignment (R134, R138, R144). On a bonded port
NEVER_LOCKED clears and FRAME_PHASE is first written when all four lanes are in frame, LAST_LOCK_TIME at each (log entry 129). -/
def laneInFrame (d : Dev) (k : Nat) (z : Syzygy) (slot phase : Nat) : Dev :=
  let p := d.syzPort k
  let l := d.syzPeriod k
  let d1 := ((d.putSyz k (afterWin z slot phase)).when (phase != z.pref) (fun x => x.cutFrame p)).wr (keyAt O.LAST_LOCK_TIME p) d.time
  let d2 := d1.when (bonded d.active (p / 4)) (fun x => x.putFlag (keyAt O.ALIGN_STATUS p) (12 + k % 4) false)
  let allIn := (portLanes d.active p).all (fun i => (d2.syz i).phase.isSome)
  let d3 := d2.when allIn (fun x => (x.putFlag (keyAt O.ALIGN_STATUS p) 1 false).putFlag (keyAt O.ALIGN_STATUS p) 5 false)
  let d4 := d3.when (!d3.flag (keyAt O.ALIGN_STATUS p) 5) (fun x =>
    x.wr (keyAt O.FRAME_PHASE p) ((x.syz p).pref))
  if z.locked && phase != z.pref then d4.changeOfAlignment p k (phaseShift l z.pref phase) else d4

/-- The end of a search window, where the bit counter comes to P_ref (R133): while not in frame, the eligible candidate with the
smallest offset wins (R134). -/
def windowEnd (d0 : Dev) (k : Nat) : Dev :=
  let d := d0.putSyz k { d0.syz k with pos := (d0.syz k).pref }
  let z := d.syz k
  let p := d.syzPort k
  if !d.syzRuns k || z.phase.isSome || d.syzLos k then d
  else match winner z (d.syzPeriod k) (d.ifN p) with
    | none => d
    | some (i, phase) =>
      if k < 64 then laneInFrame d k z i phase
      else if d.clientHeld p then d
      else ((d.putSyz k (afterWin z i phase)).when (phase != z.pref) (fun x => x.cutFrame k)).putFlag (keyAt O.OPU_STATUS p) 3 false

def execSearchWindowEnd (z : Syz) (s : State) : Host.Outcome State Fault Refusal := done s (windowEnd s.dev (syzKey z))

/-! ## Loss of frame (R141) -/

/-- An accumulator at a boundary: `bad` adds, `good` boundaries clear it. -/
def accumulate (acc : Nat × Nat) (bad good : Bool) (clear : Nat) : Nat × Nat :=
  let run := if good then acc.2 + 1 else 0
  if bad then (acc.1 + 1, 0)
  else if run ≥ clear then (0, run) else (acc.1, run)

/-- LOF is declared on a port, or on the client frame of an OTU port, where its accumulator has reached LOF_DECLARE (R141, Table
DF-2). -/
def lofDeclared (d : Dev) (k : Nat) : Dev :=
  let p := d.syzPort k
  if !d.syzRuns k || (smLook (0, 0) d.align.lof k).1 < d.genA (keyAt O.LOF_DECLARE p) then d
  else if k ≥ 64 then d.onAlign (fun a => { a with clientLof := addOnce a.clientLof p })
  else if d.flag (keyAt O.ALIGN_STATUS p) 2 then d
  else ((d.putFlag (keyAt O.ALIGN_STATUS p) 2 true).set1 (keyAt O.ALIGN_STATUS p) 8).alignEvent p 2

/-- LOF clears where the place has been in frame for LOF_CLEAR boundaries (R141). -/
def lofCleared (d : Dev) (k : Nat) : Dev :=
  let p := d.syzPort k
  if !d.syzRuns k || (smLook (0, 0) d.align.lof k).2 < d.genA (keyAt O.LOF_CLEAR p) then d
  else if k ≥ 64 then d.onAlign (fun a => { a with clientLof := a.clientLof.filter (· != p), lof := smDrop a.lof k })
  else (d.putFlag (keyAt O.ALIGN_STATUS p) 2 false).onAlign (fun a => { a with lof := smDrop a.lof p })

/-- LOM is declared where its accumulator has reached LOM_DECLARE (R143). -/
def lomDeclared (d : Dev) (p : Nat) : Dev :=
  if !(d.runs gAlign && portOn d.active p && isOtu (portType d.active p)) || d.flag (keyAt O.ALIGN_STATUS p) 4
      || (smLook (0, 0) d.align.lom p).1 < d.genA (keyAt O.LOM_DECLARE p) then d
  else ((d.putFlag (keyAt O.ALIGN_STATUS p) 4 true).set1 (keyAt O.ALIGN_STATUS p) 9).alignEvent p 3

/-- LOM clears where the port has been in multiframe for LOM_CLEAR boundaries (R143). -/
def lomCleared (d : Dev) (p : Nat) : Dev :=
  if !(d.runs gAlign && portOn d.active p && isOtu (portType d.active p))
      || (smLook (0, 0) d.align.lom p).2 < d.genA (keyAt O.LOM_CLEAR p) then d
  else (d.putFlag (keyAt O.ALIGN_STATUS p) 4 false).onAlign (fun a => { a with lom := smDrop a.lom p })

/-- The accumulators of a port are compared with their thresholds: at each boundary, and where a switch-in changed those (R141,
R143, Table FA-3). -/
def Dev.thresholds (d : Dev) (p : Nat) : Dev :=
  let place := fun (x : Dev) (k : Nat) => lofCleared (lofDeclared x k) k
  let d1 := place d p
  if isOtu (portType d.active p) then lomCleared (lomDeclared (place d1 (64 + p)) p) p else d1

/-- The LOF and LOM accumulators at a boundary of device frame timing, and what they declare and clear (R141, R143). -/
def Dev.alignTick (d : Dev) : Dev :=
  if !d.runs gAlign then d
  else
    let port := fun (a : AlignSt) (p : Nat) =>
      let oof := d.portOof p
      let oom := d.flag (keyAt O.ALIGN_STATUS p) 3
      let otu := isOtu (portType d.active p)
      let clear := d.genA (keyAt O.LOF_CLEAR p)
      let a1 := { a with lof := smPut (0, 0) a.lof p (accumulate (smLook (0, 0) a.lof p) oof (!oof) clear) }
      if !otu then a1
      else
        let c := d.clientOof p
        let lom := smLook (0, 0) a.lom p
        { a1 with
          lof := smPut (0, 0) a1.lof (64 + p) (accumulate (smLook (0, 0) a1.lof (64 + p)) c (!c) clear)
          lom := smPut (0, 0) a1.lom p
            (if oof then (lom.1, 0) else accumulate lom oom (!oom) (d.genA (keyAt O.LOM_CLEAR p))) }
    (portsOn d.active).foldl Dev.thresholds (d.onAlign (fun a => (portsOn d.active).foldl port a))

/-- A port that keeps its type across a switch-in (Table FA-3): the errored runs and accumulators meet the new limits. -/
def Dev.alignKept (d : Dev) (p : Nat) : Dev :=
  if !d.runs gAlign then d else (((64 + p) :: portLanes d.active p).foldl Dev.oofCheck d).thresholds p

def execLofDeclare (z : Syz) (s : State) : Host.Outcome State Fault Refusal := done s (lofDeclared s.dev (syzKey z))
def execLofClear (z : Syz) (s : State) : Host.Outcome State Fault Refusal := done s (lofCleared s.dev (syzKey z))
def execLomDeclare (p : Fin 64) (s : State) : Host.Outcome State Fault Refusal := done s (lomDeclared s.dev p.val)
def execLomClear (p : Fin 64) (s : State) : Host.Outcome State Fault Refusal := done s (lomCleared s.dev p.val)

/-! ## OTN multiframe (R142, R143) -/

/-- Whether multiframe alignment is evaluated on a port: an OTU port in frame, all lanes of a bonded port, LOL clear. -/
def Dev.mfRuns (d : Dev) (p : Nat) : Bool :=
  d.runs gAlign && portOn d.active p && isOtu (portType d.active p) && !d.portOof p && !d.flag (keyAt O.OTL_STATUS p) 15

/-- IM_N and OOM_M of a port's control (Table FA-7). -/
def Dev.imN (d : Dev) (p : Nat) : Nat := d.genFld (keyAt O.ALIGN_CTRL p) 16 4
def Dev.oomM (d : Dev) (p : Nat) : Nat := d.genFld (keyAt O.ALIGN_CTRL p) 20 4

/-- The port is in multiframe after IM_N incrementing MFAS: the flywheel takes the received value (R142). -/
def inMultiframe (d : Dev) (p : Nat) : Dev :=
  let m := smLook {} d.align.mf p
  if !d.mfRuns p || !d.flag (keyAt O.ALIGN_STATUS p) 3 || m.good < d.imN p then d
  else
    let last := d.rd (keyAt O.MFAS_LAST p)
    let d1 := d.when (m.fly != last) (fun x => x.set1 (keyAt O.ALIGN_STATUS p) 11)
    (d1.putFlag (keyAt O.ALIGN_STATUS p) 3 false).onAlign (fun a => { a with mf := smPut {} a.mf p { m with fly := last, bad := 0 } })

def execInMultiframe (p : Fin 64) (s : State) : Host.Outcome State Fault Refusal := done s (inMultiframe s.dev p.val)

/-- The port is out of multiframe after OOM_M frames whose MFAS differs from the flywheel (R142). -/
def oomDeclared (d : Dev) (p : Nat) : Dev :=
  let m := smLook {} d.align.mf p
  if !d.mfRuns p || d.flag (keyAt O.ALIGN_STATUS p) 3 || m.bad < d.oomM p then d
  else
    (d.putFlag (keyAt O.ALIGN_STATUS p) 3 true).onAlign (fun a => { a with
      mf := smPut {} a.mf p { m with good := 0 }
      lom := smPut (0, 0) a.lom p ((smLook (0, 0) a.lom p).1, 0) })

def execOomDeclare (p : Fin 64) (s : State) : Host.Outcome State Fault Refusal := done s (oomDeclared s.dev p.val)

/-- A frame's MFAS byte (R142): the flywheel advances with every frame delimited; in a frame that is not marked OOF the byte is
checked, and the multiframe state follows its runs. -/
def Dev.mfasSeen (d : Dev) (p mfas : Nat) (marked : Bool) : Dev :=
  if !(d.runs gAlign && portOn d.active p && isOtu (portType d.active p)) then d
  else
    let m := smLook {} d.align.mf p
    let fly := (m.fly + 1) % 256
    if !d.mfRuns p || marked then d.onAlign (fun a => { a with mf := smPut {} a.mf p { m with fly := fly } })
    else
      let good := if mfas == (d.rd (keyAt O.MFAS_LAST p) + 1) % 256 then min (m.good + 1) 255 else 0
      let bad := if mfas == fly then 0 else min (m.bad + 1) 255
      let d1 := (d.wr (keyAt O.MFAS_LAST p) mfas).onAlign (fun a => { a with
        mf := smPut {} a.mf p { fly := fly, good := good, bad := bad } })
      if d.flag (keyAt O.ALIGN_STATUS p) 3 then inMultiframe d1 p else oomDeclared d1 p

end Sys2Proof.Machine
end

