-- ==== Sys2Proof/Machine/CanBus.lean ====
section
/-!
DEFINITION. The CAN layer: node-ID and bit rate, NMT, heartbeat, TPDOs, EMCY inhibit, SYNC, SDO time-out (R62 to R67,
R358, R398, R433, R468).
-/
namespace Sys2Proof.Machine

/-- The CAN controller takes part on the bus: it has a node-ID and a rate, and the management domain runs from its PLL
(R63, R64, R468). -/
def Dev.canHears (d : Dev) : Bool :=
  d.can.nmt != .silent && d.can.nmt != .initialising && !d.onIntOsc && !d.flag O.CLAMP_CAUSE 0

/-- The open CAN privilege session ends (R433); `cause` is the Table DI-5 cause under which the arm is cleared. -/
def Dev.endSession (d : Dev) (cause : Nat) : Dev :=
  if !d.flag O.SEC_STATUS 2 then d
  else ((d.putFlag O.SEC_STATUS 2 false).onSec (fun s => { s with session := none })).dropArm .can cause

/-- The reactions of a window whose waiting EMCY message is lost count as sent (R398). -/
def Dev.dropEmcy (d : Dev) : Dev :=
  let seq := match d.can.emcyWait with
    | some (_, some q) => some q
    | _ => none
  let d1 := d.onCan (fun c => { c with emcyWait := none, emcyInhib := false })
  (d1.onComa (fun c => { c with windows := c.windows.map (fun w =>
    if some w.seq == seq then { w with emcy := false } else w) })).closeWindows

/-- The boot-up message goes out and the layer is in Pre-operational (R63, R358; CiA 301). -/
def Dev.canBootUp (d : Dev) : Dev :=
  (d.sendCan (0x700 + d.can.nodeId) [0]).onCan (fun c => { c with nmt := .preOperational })

/-- Initialisation of the CAN layer (R63 to R65): objects 1000 to 1FFF take their defaults, the values of 20F0 are applied,
and the boot-up message is sent once the rate is fixed. -/
def Dev.canInit (d : Dev) : Dev :=
  let ov := d.rd O.NODE_ID_OVERRIDE
  let node := if ov != 0 then ov else d.fld O.STRAPS 0 7
  let rate := d.rd O.CAN_BITRATE
  let d1 := d.dropEmcy
  let d2 := { d1 with regs := d1.regs.filter (fun e => Key.idx e.1 < 0x1000 || 0x1FFF < Key.idx e.1) }
  let d3 := ([0, 1, 2, 3].foldl (fun x n => x.wr (keyAt O.TPDO_COB_ID n) (0x180 + 0x100 * n + node)) d2).wr O.COB_ID_EMCY (0x80 + node)
  let d4 := d3.onCan (fun c => { c with
    nodeId := node, sdo := none, inhibited := [], waiting := [], held := []
    nmt := if node == 0 then .silent else .initialising })
  let d5 := d4.wr O.CAN_BITRATE_ACTIVE rate
  if node == 0 || rate == 0 then d5 else d5.canBootUp

/-- Automatic detection fixes the rate (R63); codes 1 to 5 of 20F0:03. -/
def canDetected (d : Dev) (code : Nat) : Dev :=
  if d.can.nmt == .initialising && !d.onIntOsc then (d.wr O.CAN_BITRATE_ACTIVE (code + 1)).canBootUp else d

def execCanBitrateDetected (code : Fin 5) (s : State) : Host.Outcome State Fault Refusal := done s (canDetected s.dev code.val)

/-! ## NMT (R65, R358) -/

/-- The requests of the CAN master that wait for a host slot, or have begun, are executing; the others are only queued (R358). -/
def executing (q : List Req) : List Req :=
  match q with
  | [] => []
  | r :: _ =>
    if r.started then [r]
    else match r.body with
      | .read idx sub _ => if isContextField idx sub then [r] else []
      | .write idx sub _ => if isContextField idx sub then [r] else []
      | .writeAt _ _ _ _ => [r]
      | _ => []

/-- SDO transfers end without a response, queued CAN requests are discarded, the arm is cleared (R358). -/
def Dev.canHalt (d : Dev) : Dev :=
  let d1 := (d.onCan (fun c => { c with sdo := none, waiting := [] })).onCanM (fun x => { x with queue := executing x.queue })
  d1.dropArm .can 7

/-- Entry into Operational sends each TPDO once (R67). -/
def nmtStart (d : Dev) : Dev :=
  if !d.canHears || d.can.nmt == .operational then d
  else [0, 1, 2, 3].foldl (fun x n => x.queueTpdo n) (d.onCan (fun c => { c with nmt := .operational }))

def nmtStop (d : Dev) : Dev :=
  if !d.canHears || d.can.nmt == .stopped then d else d.canHalt.onCan (fun c => { c with nmt := .stopped })

def nmtPreOperational (d : Dev) : Dev :=
  if !d.canHears then d else d.onCan (fun c => { c with nmt := .preOperational, waiting := [] })

/-- A controller without a node-ID sends nothing and still receives the resets under which a new node-ID takes effect (R64). -/
def Dev.canReset (d : Dev) : Bool := d.can.nmt == .silent && !d.inBoot && !d.onIntOsc && !d.flag O.CLAMP_CAUSE 0

/-- Reset Node and Reset Communication act on the CAN layer alone (R65), and end a session (R433). -/
def nmtReset (d : Dev) : Dev :=
  if !(d.canHears || d.canReset) then d else (d.canHalt.endSession 7).canInit

def execNmtStartRemoteNode (s : State) : Host.Outcome State Fault Refusal := done s (nmtStart s.dev)
def execNmtStopRemoteNode (s : State) : Host.Outcome State Fault Refusal := done s (nmtStop s.dev)
def execNmtEnterPreOperational (s : State) : Host.Outcome State Fault Refusal := done s (nmtPreOperational s.dev)
def execNmtResetNode (s : State) : Host.Outcome State Fault Refusal := done s (nmtReset s.dev)
def execNmtResetCommunication (s : State) : Host.Outcome State Fault Refusal := done s (nmtReset s.dev)

/-! ## Heartbeat, TPDOs, EMCY, SYNC -/

/-- The NMT state as the heartbeat carries it (CiA 301). -/
def nmtCode : Nmt → Nat
  | .silent => 0 | .initialising => 0 | .stopped => 4 | .operational => 5 | .preOperational => 127

/-- The heartbeat period ends (R67, Table MO-8). -/
def canHeartbeat (d : Dev) : Dev :=
  if d.can.nmt == .silent || d.can.nmt == .initialising || d.rd O.PRODUCER_HEARTBEAT_TIME == 0 then d
  else d.sendCan (0x700 + d.can.nodeId) [BitVec.ofNat 8 (nmtCode d.can.nmt)]

def execProducerHeartbeat (s : State) : Host.Outcome State Fault Refusal := done s (canHeartbeat s.dev)

/-- A TPDO's inhibit time ends: a change it held back is sent with the values then current (R229). -/
def tpdoInhibitEnd (d : Dev) (n : Nat) : Dev :=
  let was := d.can.inhibited.contains n && d.can.waiting.contains n
  let d1 := d.onCan (fun c => { c with inhibited := c.inhibited.filter (· != n), waiting := c.waiting.filter (· != n) })
  if was then d1.queueTpdo n else d1

def execTpdoInhibitExpiry (n : Fin 4) (s : State) : Host.Outcome State Fault Refusal := done s (tpdoInhibitEnd s.dev n.val)

/-- A TPDO's event timer ends (Table DI-7). -/
def tpdoTimer (d : Dev) (n : Nat) : Dev := if d.rd (keyAt O.TPDO_EVENT_TIMER n) == 0 then d else d.queueTpdo n

def execTpdoEventTimer (n : Fin 4) (s : State) : Host.Outcome State Fault Refusal := done s (tpdoTimer s.dev n.val)

def execEmcyInhibitExpiry (s : State) : Host.Outcome State Fault Refusal := done s s.dev.emcyInhibitEnd

/-- A SYNC arms a snapshot for the next boundary (R67, R252); it is consumed in Pre-operational and Operational. -/
def syncIn (d : Dev) : Dev :=
  if d.canHears && d.canTalks then d.onPmTime (fun t => { t with snap := true }) else d

def execSyncReceived (s : State) : Host.Outcome State Fault Refusal := done s (syncIn s.dev)

/-! ## SDO time-out (R66) -/

/-- The controller is halted under Full debug: requests wait (R428). -/
def Dev.halted (d : Dev) : Bool := d.flag O.SEC_STATUS 3

/-- An SDO transfer is not continued within 1 s: the stalled one, or one that waits for a halted controller (R66, R428). -/
def sdoTimeout (d : Dev) : Dev :=
  if d.can.sdo.isSome then (d.onCan (fun c => { c with sdo := none })).onCanM (fun x => { x with abort := abTimeout, data := [] })
  else if d.halted && !d.canM.queue.isEmpty then
    d.onCanM (fun x => { x with queue := x.queue.drop 1, abort := abTimeout, data := [] })
  else d

def execSdoTimeout (s : State) : Host.Outcome State Fault Refusal := done s (sdoTimeout s.dev)

end Sys2Proof.Machine
end

