-- ==== Sys2Proof/Machine/Crc.lean ====
section
/-!
DEFINITION. Checks over bits and bytes: the check-value algorithms of Table CV-2, the CRC-7 of a trace (R158), bit
interleaved parity (R151), line scrambling (R128) and the RS(255,239) code of GFEC (R170).
-/
namespace Sys2Proof.Machine

/-! ## Algorithms (Table CV-2) -/

/-- A value of `w` bits with its bits reversed. -/
def reflect : Nat → Nat → Nat
  | 0, _ => 0
  | w + 1, v => v % 2 * 2 ^ w + reflect w (v / 2)

/-- One bit of a reflected CRC with a reflected polynomial. -/
def crcBitR (poly r : Nat) : Nat := if r % 2 == 1 then (r / 2) ^^^ poly else r / 2

/-- One byte into a reflected CRC register. -/
def crcByteR (poly : Nat) (r : Nat) (b : Byte) : Nat :=
  (List.range 8).foldl (fun x _ => crcBitR poly x) (r ^^^ b.toNat)

/-- One bit of a non-reflected CRC of `w` bits. -/
def crcBitN (w poly r : Nat) : Nat := if bit r (w - 1) then (r * 2 % 2 ^ w) ^^^ poly else r * 2 % 2 ^ w

/-- One byte into a non-reflected CRC register of `w` bits, `w` at least 8. -/
def crcByteN (w poly : Nat) (r : Nat) (b : Byte) : Nat :=
  (List.range 8).foldl (fun x _ => crcBitN w poly x) (r ^^^ (b.toNat * 2 ^ (w - 8)))

/-- The reflected polynomials of CRC-32C and IEEE CRC-32. -/
abbrev polyC : Nat := 0x82F63B78
abbrev polyIeee : Nat := 0xEDB88320

/-- RUNNING after bytes are fed (R405, R406). -/
def crcFeed (alg : Nat) (run : Nat) (l : List Byte) : Nat :=
  if alg == 0 then l.foldl (crcByteR polyC) run
  else if alg == 1 then l.foldl (crcByteR polyIeee) run
  else l.foldl (crcByteN 16 0x1021) run

/-- The initial value of an algorithm. -/
def crcInit (alg : Nat) : Nat := if alg == 2 then 0xFFFF else 0xFFFFFFFF

/-- The final XOR of an algorithm. -/
def crcXor (alg : Nat) : Nat := if alg == 2 then 0 else 0xFFFFFFFF

/-- CRC-32C over bytes (R70). -/
def crc32c (l : List Byte) : Nat := crcFeed 0 (crcInit 0) l ^^^ crcXor 0

/-! ## Bits of byte lists -/

/-- The bits of a byte, most significant first. -/
def byteBits (b : Byte) : List Bool := (List.range 8).map (fun i => b.getLsbD (7 - i))

/-- A byte from up to eight bits, most significant first. -/
def bitsByte (l : List Bool) : Byte := BitVec.ofNat 8 (l.foldl (fun acc b => 2 * acc + ofBit b) 0)

/-- The number of ones of a byte. -/
def ones (b : Byte) : Nat := (byteBits b).foldl (fun n x => n + ofBit x) 0

/-- The BIP-8 of bytes. -/
def bip8 (l : List Byte) : Byte := l.foldl (fun acc b => acc ^^^ b) 0

/-- The BIP of `w` bytes width over bytes: byte `j` is the parity of the bytes at positions `j` modulo `w`. -/
def bipN (w : Nat) (l : List Byte) : List Byte :=
  (l.foldl (fun (st : List Byte × List Byte) b =>
    match st.1 with
    | a :: rest => if rest.isEmpty then (st.2.reverse ++ [a ^^^ b], []) else (rest, (a ^^^ b) :: st.2)
    | [] => st) (List.replicate w 0, [])) |> fun st => st.2.reverse ++ st.1

/-- Parity bits that differ (R151). -/
def parityErrors (a b : List Byte) : Nat := (List.zipWith (fun x y => ones (x ^^^ y)) a b).foldl (· + ·) 0

/-! ## CRC-7 of a 16-byte trace (R158, R207) -/

/-- One bit into the CRC-7 register of x^7 + x^3 + 1. -/
def crc7Bit (r : Nat) (b : Bool) : Nat :=
  let top := bit r 6 != b
  (r * 2 % 128) ^^^ (if top then 9 else 0)

/-- The CRC-7 of a 16-byte trace, its own CRC bits taken as 0 (G.707 Annex B; log entry 18). -/
def crc7 (l : List Byte) : Nat :=
  let l0 := match l with
    | b :: r => (b &&& 0x80) :: r
    | [] => []
  (l0.flatMap byteBits).foldl crc7Bit 0

/-! ## Scrambling (R128) -/

/-- One byte of a keystream: a register of `w` bits whose new bit is the parity of the bits of `taps`, its most
significant bit sent first. -/
def keyByte (w taps : Nat) (r : Nat) : Nat × Byte :=
  let st := (List.range 8).foldl (fun (st : Nat × Nat) _ =>
    let out := ofBit (bit st.1 (w - 1))
    let fb := (List.range w).foldl (fun x i => if bit taps i && bit st.1 i then 1 - x else x) 0
    (st.1 * 2 % 2 ^ w + fb, st.2 * 2 + out)) (r, 0)
  (st.1, BitVec.ofNat 8 st.2)

/-- Bytes combined with a keystream; the register starts at all ones. -/
def scramble (w taps : Nat) (l : List Byte) : List Byte :=
  ((l.foldl (fun (st : Nat × List Byte) b =>
    let (r, k) := keyByte w taps st.1
    (r, (b ^^^ k) :: st.2)) (2 ^ w - 1, [])).2).reverse

/-- An STM-N frame scrambled or descrambled: generator 1 + x^6 + x^7, the first 9N bytes as they are. -/
def sdhScramble (n : Nat) (f : List Byte) : List Byte := f.take (9 * n) ++ scramble 7 0x60 (f.drop (9 * n))

/-- An OTU frame scrambled or descrambled: generator 1 + x + x^3 + x^12 + x^16 from the MFAS byte on. -/
def otuScramble (f : List Byte) : List Byte := f.take 6 ++ scramble 16 0x8805 (f.drop 6)

/-! ## RS(255,239) of G.709 Annex A (R170) -/

/-- The product in GF(256) with x^8 + x^4 + x^3 + x^2 + 1 (log entry 18). -/
def gfMul (a b : Nat) : Nat :=
  ((List.range 8).foldl (fun (st : Nat × Nat) i =>
    let acc := if bit b i then st.1 ^^^ st.2 else st.1
    let x := st.2 * 2
    (acc, if x ≥ 256 then x ^^^ 0x11D else x)) (0, a)).1

/-- Powers in GF(256). -/
def gfPow (a : Nat) : Nat → Nat
  | 0 => 1
  | n + 1 => gfMul a (gfPow a n)

/-- The inverse of a non-zero element. -/
def gfInv (a : Nat) : Nat := gfPow a 254

/-- The value at `x` of a polynomial, lowest coefficient first. -/
def gfEval (p : List Nat) (x : Nat) : Nat := p.foldr (fun c acc => c ^^^ gfMul acc x) 0

/-- The product of two polynomials, lowest coefficient first. -/
def gfPoly (p q : List Nat) : List Nat :=
  p.foldr (fun c acc =>
    let a := q.map (gfMul c)
    let b := 0 :: acc
    (List.range (max a.length b.length)).map (fun i => a.getD i 0 ^^^ b.getD i 0)) []

/-- The generator polynomial: the product of x − α^i for i from 0 to 15. -/
def rsGenerator : List Nat := (List.range 16).foldl (fun g i => gfPoly g [gfPow 2 i, 1]) [1]

/-- The 16 parity symbols of 239 information symbols, first transmitted first. -/
def rsParity (info : List Nat) : List Nat :=
  let g := (rsGenerator.take 16).reverse
  info.foldl (fun reg s =>
    let fb := s ^^^ reg.headD 0
    List.zipWith (fun r c => r ^^^ gfMul fb c) (reg.drop 1 ++ [0]) g) (List.replicate 16 0)

/-- The syndromes of a codeword, first symbol of the highest power. -/
def rsSyndromes (w : List Nat) : List Nat :=
  (List.range 16).map (fun j => w.foldl (fun acc s => gfMul acc (gfPow 2 j) ^^^ s) 0)

/-- The error locator of Berlekamp and Massey: the locator, the earlier locator, its length, the gap and the earlier
discrepancy. -/
def rsLocator (syn : List Nat) : List Nat × Nat :=
  let st := (List.range 16).foldl (fun (st : List Nat × List Nat × Nat × Nat × Nat) n =>
    let (c, b, l, m, bb) := st
    let d := (List.range (l + 1)).foldl (fun acc i => acc ^^^ gfMul (c.getD i 0) (syn.getD (n - i) 0)) 0
    if d == 0 then (c, b, l, m + 1, bb)
    else
      let f := gfMul d (gfInv bb)
      let shifted := List.replicate m 0 ++ b.map (gfMul f)
      let c1 := (List.range (max c.length shifted.length)).map (fun i => c.getD i 0 ^^^ shifted.getD i 0)
      if 2 * l ≤ n then (c1, c, n + 1 - l, 1, d) else (c1, b, l, m + 1, bb)) ([1], [1], 0, 1, 1)
  (st.1, st.2.2.1)

/-- A codeword decoded: the corrected symbols and the bits found in error, or none where it is uncorrectable. -/
def rsDecode (w : List Nat) : Option (List Nat × Nat) :=
  let syn := rsSyndromes w
  if syn.all (· == 0) then some (w, 0)
  else
    let (loc, l) := rsLocator syn
    let places := (List.range 255).filter (fun i => gfEval loc (gfInv (gfPow 2 i)) == 0)
    if l > 8 || places.length != l then none
    else
      let omega := (gfPoly syn loc).take 16
      let deriv := (List.range loc.length).map (fun i => if i % 2 == 0 then loc.getD (i + 1) 0 else 0)
      let errs := places.map (fun i =>
        let x := gfPow 2 i
        let xi := gfInv x
        (254 - i, gfMul x (gfMul (gfEval omega xi) (gfInv (gfEval deriv xi)))))
      let fixed := (List.range 255).map (fun j =>
        w.getD j 0 ^^^ (match errs.find? (fun e => e.1 == j) with
          | some e => e.2
          | none => 0))
      if (rsSyndromes fixed).all (· == 0) then
        some (fixed, errs.foldl (fun n e => n + ones (BitVec.ofNat 8 e.2)) 0)
      else none

/-- A row of 4080 bytes as its 16 interleaved codewords. -/
def fecWords (row : List Byte) : List (List Nat) :=
  (List.range 16).map (fun k => (List.range 255).map (fun i => (row.getD (16 * i + k) 0).toNat))

/-- A row from its 16 interleaved codewords. -/
def fecRow (ws : List (List Nat)) : List Byte :=
  (List.range 255).flatMap (fun i => ws.map (fun w => BitVec.ofNat 8 (w.getD i 0)))

end Sys2Proof.Machine
end

