-- ==== Sys2Proof/Machine/ModeRequest.lean ====
section
/-!
DEFINITION. Requests for a mode: the checks of R348 and R349, and the start of an accepted transition (R350, R352).
-/
namespace Sys2Proof.Machine

/-- Whether Table MO-4 lists a transition that the host or a wake may request. -/
def modeListed (from_ target : Nat) : Bool :=
  if from_ == 1 then 2 ≤ target && target ≤ 5
  else if from_ == 2 then target == 1 || target == 3 || target == 4
  else if from_ == 3 then target == 1 || target == 4
  else if from_ == 4 then 1 ≤ target && target ≤ 3
  else from_ == 5 && target == 1

/-- Whether MODE_GUARDED is the object of a listed transition (R348). -/
def modeNeedsGuard (from_ target : Nat) : Bool := from_ == 2 || target == 5

/-- The cause of Table MO-5 that refuses a request; 0 where it is accepted (R348 to R350; log entry 17 on the order). -/
def modeRefusal (d : Dev) (target : Nat) (guarded : Bool) : Nat :=
  let unpaired := !d.paired && (target == 2 || target == 5)
  if d.clamped then 8
  else if d.mode.trans.isSome then 7
  else if !modeListed d.modeCode target then 1
  else if modeNeedsGuard d.modeCode target != guarded then 3
  else if comboRefused d target then 2
  else if (target == 3 && !d.paired) || (target == 5 && d.paired) then 5
  else if target == 2 && d.rd O.ACTIVE_GENERATION == 0 then 4
  else if unpaired && d.flag O.PAIR_STATUS 9 then 6
  else 0

/-- A request is refused: the cause is recorded (R349). -/
def Dev.refuseMode (d : Dev) (cause : Nat) : Dev := (d.putFld O.MODE_STATUS 16 4 cause).set1 O.MODE_STATUS 21

/-- An accepted request starts the transition; a paired active unit with a READY mate asks for the handshake first
(R340, R350). -/
def Dev.startTransition (d : Dev) (target : Nat) : Dev :=
  let d1 := (d.putFlag O.MODE_STATUS 10 true).putFld O.MODE_STATUS 4 3 target
  let hs := d.inService && d.paired && d.pairState == 1 && d.mateReady
  let d2 := d1.onMode (fun s => { s with trans := some { target := target, handshake := if hs then some 4 else none } })
  d2.when hs (fun x => x.sendRequest 7)

/-- A request for a mode through one of the two objects of R348. -/
def Dev.requestMode (d : Dev) (target : Nat) (guarded : Bool) : Dev × Nat :=
  let cause := modeRefusal d target guarded
  if cause != 0 then (d.refuseMode cause, abRefused)
  else
    let d1 := if guarded then d.wr O.MODE_GUARDED target else d.wr O.MODE_REQUEST target
    (d1.startTransition target, 0)

/-- A change of LOS on a monitored lane in Quiesce asks for WAKE_MODE while WAKE_EN is 1 (R352). -/
def Dev.wake (d : Dev) : Dev :=
  if d.inQuiesce && d.flag O.WAKE_CTRL 0 then (d.requestMode (d.fld O.WAKE_CTRL 1 2 + 1) false).1 else d

end Sys2Proof.Machine
end

