-- ==== Sys2Proof/Machine/Line.lean ====
section
/-!
DEFINITION. Line lanes and ports: quad PLLs, transmitters, loss of signal, frequency readings, equalisation, lane test,
lane alignment of bonded ports (R104 to R128).
-/
namespace Sys2Proof.Machine

/-! ## Quads and lanes -/

/-- Whether the line SerDes run, or are being powered for a mode that runs them (Table MO-3, R350). -/
def Dev.serdesUp (d : Dev) : Bool :=
  d.traffic || (!d.clamped && match d.mode.trans with
    | some t => t.target == 2 || t.target == 3 || t.target == 5
    | none => false)

/-- Whether a quad's block clock runs (Table CK-9). -/
def Dev.quadGate (d : Dev) (q : Nat) : Bool := d.gateOn (12 + q)

/-- The PLL mode that a generation gives a quad (R108): 0 off, 1 SDH, 2 OTU2, 3 OTU3. -/
def quadModeOf (b : Bank) (q : Nat) : Nat :=
  let ports := [4 * q, 4 * q + 1, 4 * q + 2, 4 * q + 3].filter (portOn b)
  if bonded b q then 3
  else if ports.any (fun p => portType b p == 5) then 2
  else if ports.isEmpty then 0 else 1

/-- The PLL mode of a quad now; off while its SerDes are down. -/
def Dev.quadMode (d : Dev) (q : Nat) : Nat := if d.serdesUp && d.quadGate q then quadModeOf d.active q else 0

/-- The key of a quad's PLL_LOCK, kept at the object of its first lane. -/
def quadKey (q : Nat) : Key := keyAt O.QUAD_STATUS (4 * q)

/-- The selected line reference (CLOCK_STATUS bits 1:0, Table CK-1): 3 none. -/
def Dev.lineRef (d : Dev) : Nat := d.fld O.CLOCK_STATUS 0 2

/-- QUAD_STATUS of a lane's quad as a read returns it. -/
def Dev.quadStatus (d : Dev) (l : Nat) : Nat :=
  d.quadMode (l / 4) + 8 * ofBit (d.flag (quadKey (l / 4)) 3) + 16 * d.lineRef

/-- Whether a lane's receiver is powered: its port is enabled or its checker is on while the SerDes run; in Quiesce,
LOS_MONITOR alone decides (R122, R127). -/
def Dev.rxPowered (d : Dev) (l : Nat) : Bool :=
  d.quadGate (l / 4) && !d.clamped &&
  (if d.inQuiesce then d.genBit (keyAt O.LANE_CTRL l) 7
   else d.serdesUp && (laneOn d.active l || d.fld (keyAt O.PRBS_CTRL l) 0 2 != 0))

/-- The conditions of Table LN-2 for a port, as PORT_STATUS bits 4:0. -/
def Dev.txConditions (d : Dev) (p : Nat) : Nat :=
  ofBit (!d.inert) + 2 * ofBit (portOn d.active p) + 4 * ofBit (d.flag (quadKey (p / 4)) 3)
    + 8 * ofBit (d.rd (keyAt O.TX_SQUELCH p) == 0) + 16 * ofBit d.gateOpen

/-- Whether a port's transmitter drives (R115): all conditions hold, the boundary after PLL lock has come, and the
quad's clock runs. -/
def Dev.portDrives (d : Dev) (p : Nat) : Bool :=
  d.txConditions p == 31 && !d.line.settle.contains (p / 4) && d.quadGate (p / 4)

/-- The PRBS generator drives a lane in Bisque (R127). -/
def Dev.prbsDrives (d : Dev) (l : Nat) : Bool :=
  d.inBisque && !d.clamped && d.quadGate (l / 4) && d.fld (keyAt O.PRBS_CTRL l) 2 2 != 0 && d.gateOpen
    && d.flag (quadKey (l / 4)) 3 && d.rd (keyAt O.TX_SQUELCH (lanePort d.active l)) == 0

/-- Whether a lane's transmitter drives. -/
def Dev.laneDrives (d : Dev) (l : Nat) : Bool := d.portDrives (lanePort d.active l) || d.prbsDrives l

/-- PORT_STATUS as a read returns it (R115). -/
def Dev.portStatus (d : Dev) (p : Nat) : Nat :=
  d.txConditions p + 32 * ofBit (d.portDrives p) + 64 * ofBit (d.portLos p)

/-- LANE_STATUS as a read returns it. -/
def Dev.laneStatus (d : Dev) (l : Nat) : Nat :=
  putBits (putBits (d.rd (keyAt O.LANE_STATUS l)) 4 1 (ofBit (d.laneDrives l))) 5 1 (ofBit (d.rxPowered l))

/-- A lane's gate in progress will give no reading (R124). -/
def Dev.spoilGate (d : Dev) (l : Nat) : Dev := d.onLine (fun x => { x with spoiled := addOnce x.spoiled l })

/-! ## Receivers (R119 to R122) -/

/-- A lane's CDR acquires the signal; the gate in progress has been without lock (R124). -/
def cdrLocked (d : Dev) (l : Nat) : Dev :=
  if d.rxPowered l then (d.putFlag (keyAt O.LANE_STATUS l) 3 true).when (!d.flag (keyAt O.LANE_STATUS l) 3) (fun x => x.spoilGate l) else d

def execCdrLock (l : Fin 64) (s : State) : Host.Outcome State Fault Refusal := done s (cdrLocked s.dev l.val)

/-- A lane's CDR loses lock. -/
def cdrUnlocked (d : Dev) (l : Nat) : Dev :=
  if d.flag (keyAt O.LANE_STATUS l) 3 then
    ((d.putFlag (keyAt O.LANE_STATUS l) 3 false).set1 (keyAt O.LANE_STATUS l) 9).spoilGate l
  else d

def execCdrUnlock (l : Fin 64) (s : State) : Host.Outcome State Fault Refusal := done s (cdrUnlocked s.dev l.val)

/-- The causes that count toward LOS of those present: LOS_SOURCE, the mask after a swap, the amplitude cause alone in
Quiesce (R120, R122). Bit 0 amplitude, bit 1 transitions, bit 2 CDR lock. -/
def Dev.losCauses (d : Dev) (l : Nat) (amplitude transitions : Bool) : Nat :=
  let cdr := !d.flag (keyAt O.LANE_STATUS l) 3 && !d.line.cdrMask.contains l
  if d.inQuiesce then ofBit amplitude
  else (ofBit amplitude + 2 * ofBit transitions + 4 * ofBit cdr) &&& d.genFld (keyAt O.LANE_CTRL l) 4 3

/-- The amplitude and transition causes that a lane shows now (Table LN-8). -/
def Dev.losSeen (d : Dev) (l : Nat) (amplitude transitions : Bool) : Dev :=
  (d.putFlag (keyAt O.LANE_STATUS l) 1 amplitude).putFlag (keyAt O.LANE_STATUS l) 2 transitions

/-- LOS is declared on a lane when a selected cause has lasted (R120): OOF is forced (R139), the gate is spoiled, a monitored lane
can wake Quiesce. The causes present show whether selected or not. -/
def losDeclared (d : Dev) (l : Nat) (amplitude transitions : Bool) : Dev :=
  if !d.rxPowered l then d
  else
    let d1 := d.losSeen l amplitude transitions
    if d.losCauses l amplitude transitions == 0 || d.flag (keyAt O.LANE_STATUS l) 0 then d1
    else
      let d2 := ((d1.putFlag (keyAt O.LANE_STATUS l) 0 true).set1 (keyAt O.LANE_STATUS l) 8).spoilGate l
      (d2.losForcesOof l).wake

def execLosDeclare (l : Fin 64) (amplitude transitions : Bool) (s : State) : Host.Outcome State Fault Refusal :=
  done s (losDeclared s.dev l.val amplitude transitions)

/-- LOS clears on a lane: no selected cause for two windows (R120); causes that are not selected can remain. -/
def losCleared (d : Dev) (l : Nat) (amplitude transitions : Bool) : Dev :=
  if !d.rxPowered l then d
  else
    let d1 := d.losSeen l amplitude transitions
    if d.losCauses l amplitude transitions != 0 || !d.flag (keyAt O.LANE_STATUS l) 0 then d1
    else ((d1.putFlag (keyAt O.LANE_STATUS l) 0 false).spoilGate l).wake

def execLosClear (l : Fin 64) (amplitude transitions : Bool) (s : State) : Host.Outcome State Fault Refusal :=
  done s (losCleared s.dev l.val amplitude transitions)

def execCdrMaskEnd (l : Fin 64) (s : State) : Host.Outcome State Fault Refusal :=
  done s (s.dev.onLine (fun x => { x with cdrMask := x.cdrMask.filter (· != l.val) }))

/-! ## Quad PLLs (R112 to R114) -/

/-- A QUAD event (Table FC-1). -/
def Dev.quadEvent (d : Dev) (q code : Nat) : Dev :=
  d.raise { cls := clsQuad, inst := q, level := 4, addr := quadAddr q, detail := code, clear := code == 2 }

/-- A quad PLL locks; after a switch-in that changed its mode its transmitters resume at the next boundary (R113, R117), else at
once (R115). A lock after a reported loss is reported. -/
def quadLocked (d : Dev) (q : Nat) : Dev :=
  if d.quadMode q == 0 || d.lineRef == 3 || d.flag (quadKey q) 3 then d
  else
    let d1 := (d.putFlag (quadKey q) 3 true).onLine (fun x =>
      { x with
        settle := if x.anew.contains q then addOnce x.settle q else x.settle
        anew := x.anew.filter (· != q), lost := x.lost.filter (· != q) })
    if d.line.lost.contains q then d1.quadEvent q 2 else d1

def execQuadPllLock (q : Fin 16) (s : State) : Host.Outcome State Fault Refusal := done s (quadLocked s.dev q.val)

/-- A quad PLL loses lock: a level-4 event while a reference is selected (R114). -/
def quadLost (d : Dev) (q : Nat) : Dev :=
  if !d.flag (quadKey q) 3 then d
  else
    let d1 := d.putFlag (quadKey q) 3 false
    if d.quadMode q == 0 || d.lineRef == 3 then d1
    else (d1.onLine (fun x => { x with lost := addOnce x.lost q })).quadEvent q 1

def execQuadPllLockLoss (q : Fin 16) (s : State) : Host.Outcome State Fault Refusal := done s (quadLost s.dev q.val)

/-- The boundary after lock lets a quad's transmitters drive (R113, R117). -/
def Dev.quadSettle (d : Dev) : Dev := d.onLine (fun x => { x with settle := [] })

/-! ## Frequency readings (R123, R124) -/

/-- A lane rate of Table LN-1, in bit/s, as a fraction. -/
def laneRate (t : Nat) : Nat × Nat :=
  if t == 5 then (9953280000 * 255, 237) else if t == 6 then (9953280000 * 255, 236) else (155520000 * stmN t, 1)

/-- A lane is without signal, lock or power, so that the gate in progress gives no reading (R124). -/
def Dev.gateBad (d : Dev) (l : Nat) : Bool :=
  !d.rxPowered l || !d.flag (keyAt O.LANE_STATUS l) 3 || d.flag (keyAt O.LANE_STATUS l) 0

/-- A gate ends: its offset, or no valid reading; the next one starts spoiled where the lane is bad then. -/
def freqGateEnd (d : Dev) (l count : Nat) (valid : Bool) : Dev :=
  let (num, den) := laneRate (laneType d.active l)
  let gate := 10 ^ d.fld (keyAt O.FREQ_CTRL l) 0 2
  let ok := valid && num != 0 && !d.gateBad l && !d.line.spoiled.contains l
  (d.wr (keyAt O.FREQ_OFFSET l) (if ok then ppmOffset count (num * gate) den else noReading)).onLine (fun x =>
    { x with spoiled := if d.gateBad l then addOnce x.spoiled l else x.spoiled.filter (· != l) })

def execFreqGateEnd (l : Fin 64) (count : Nat) (valid : Bool) (s : State) : Host.Outcome State Fault Refusal :=
  done s (freqGateEnd s.dev l.val count valid)

/-! ## Equalisation and lane test (R125 to R127) -/

/-- Whether a TFI lane has channels in force, or is kept (R297). -/
def Dev.tfiLaneOn (d : Dev) (l : Nat) : Bool :=
  d.genBit (keyAt O.TFI_LANE_CTRL l) 0 || d.active.numbers.any (fun e =>
    let v := d.genA (keyCtx O.MAP_ENTRY e.1)
    bits v 62 2 == 1 && bits v 32 5 == l)

/-- The equaliser object of a receiver, whether its block has a clock, and whether it adapts now: its CDR is locked. -/
def rxEqOf (d : Dev) : RxLane → Key × Bool × Bool
  | .line l => (keyAt O.RX_EQ l.val, d.quadGate (l.val / 4), d.rxPowered l.val && d.flag (keyAt O.LANE_STATUS l.val) 3)
  | .tfi l => (keyAt O.TFI_RX_EQ l.val, d.gateOn gTfi, d.runs gTfi && d.tfiLaneOn l.val)
  | .mate k => (keyAt O.MATE_RX_EQ k.val, d.gateOn gMate, d.gateOn gMate && (d.inService || d.inShadow) && !d.clamped)

/-- Adapted values are written into the `hwrw` fields in mode 0 (R126). -/
def rxAdapted (d : Dev) (l : RxLane) (v : Nat) : Dev :=
  let (k, _, run) := rxEqOf d l
  if run && d.fld k 26 2 == 0 then d.wr k (putBits (d.rd k) 1 25 v) else d

/-- A host write of an equaliser object in the cycle of an update (R45, R126): discarded while gated, aborted with ADAPT_MODE 3; the
`hwrw` fields of a value that is written lose to the update of mode 0, and OVERTAKEN is set. -/
def rxCollide (l : RxLane) (v w : Nat) (d : Dev) : Dev × Nat :=
  let (k, gate, run) := rxEqOf d l
  if !gate then (d, 0)
  else if bits w 26 2 == 3 then (rxAdapted d l v, abRange)
  else
    let old := d.rd k
    let bad := (old ^^^ w) &&& 0x70000001 != 0
    let d1 := d.wr k ((w &&& 0x7FFFFFFF) ||| (old &&& 0x80000000 &&& (0xFFFFFFFF ^^^ w)))
    let d2 := { d1 with undoc := d1.undoc || bad }
    (if run && d.fld k 26 2 == 0 then (d2.wr k (putBits (d2.rd k) 1 25 v)).set1 k 31 else d2, 0)

def execRxAdaptation (l : RxLane) (values : BitVec 25) (host : Option (Master × BitVec 32)) (s : State) :
    Host.Outcome State Fault Refusal :=
  match host with
  | none => done s (rxAdapted s.dev l values.toNat)
  | some (m, w) =>
    let k := (rxEqOf s.dev l).1
    if s.dev.turnOf m && !s.dev.inBoot then
      hostWrite s m (Key.idx k) (Key.sub k) (bytesLE 4 w.toNat) (rxCollide l values.toNat w.toNat)
    else
      hostWrite { s with dev := rxAdapted s.dev l values.toNat } m (Key.idx k) (Key.sub k) (bytesLE 4 w.toNat) (fun d => (d, 0))

/-- A plain write to an object of a quad's SerDes block, discarded while the quad is gated (R59). -/
def Dev.quadWrite (d : Dev) (m : Master) (l : Nat) (f : Dev → Dev × Nat) : Dev × Nat :=
  d.plainWrite m (fun x => if x.quadGate (l / 4) then f x else (x, 0))

/-- TX_SQUELCH takes a value (R118). -/
def squelchWrite (p v : Nat) (d : Dev) : Dev × Nat :=
  if v > 1 then (d, abRange) else (d.wr (keyAt O.TX_SQUELCH p) v, 0)

def execTxSquelch (m : Master) (p : Fin 64) (v : BitVec 8) (s : State) : Host.Outcome State Fault Refusal :=
  hostTurn s m (writeReq (Key.idx (keyAt O.TX_SQUELCH p.val)) (Key.sub O.TX_SQUELCH) (bytesLE 1 v.toNat))
    (s.dev.quadWrite m p.val (squelchWrite p.val v.toNat))

/-- PRBS_CTRL takes a value (R127; a checker or generator that is off holds nothing): the checker only on a lane whose port is disabled, the generator only in Bisque. -/
def prbsWrite (l v : Nat) (d : Dev) : Dev × Nat :=
  let old := d.rd (keyAt O.PRBS_CTRL l)
  if bits v 0 2 == 3 || bits v 2 2 == 3 then (d, abRange)
  else if (bits v 0 2 != 0 && laneOn d.active l) || (bits v 2 2 != 0 && !d.inBisque) then (d, abRefused)
  else
    let check := bits v 0 2 == bits old 0 2 && bits v 0 2 != 0
    let gen := bits v 2 2 == bits old 2 2 && bits v 2 2 != 0
    ((d.wr (keyAt O.PRBS_CTRL l) ((v &&& 0xF) + (if check then old &&& 0x10 else 0))).onLine (fun x => { x with
      check := if check then x.check else smDrop x.check l, gen := if gen then x.gen else smDrop x.gen l }), 0)

def execPrbsCtrl (m : Master) (l : Fin 64) (v : BitVec 8) (s : State) : Host.Outcome State Fault Refusal :=
  hostTurn s m (writeReq (Key.idx (keyAt O.PRBS_CTRL l.val)) (Key.sub O.PRBS_CTRL) (bytesLE 1 v.toNat))
    (s.dev.quadWrite m l.val (prbsWrite l.val v.toNat))

/-! ## PRBS (R127) -/

/-- The register's length and the second tap of a pattern: x^7 + x^6 + 1, or x^31 + x^28 + 1. -/
def prbsShape (mode : Nat) : Nat × Nat := if mode == 1 then (7, 6) else (31, 28)

/-- The next bit of a pattern, and the register after a bit. -/
def prbsNext (s : Nat × Nat) (reg : Nat) : Bool := bit reg (s.1 - 1) != bit reg (s.2 - 1)
def prbsShift (s : Nat × Nat) (reg : Nat) (b : Bool) : Nat := (reg * 2 + ofBit b) % 2 ^ s.1

/-- One received bit in a checker: the register follows the received bits until as many again agree with the pattern, then runs by
itself and counts the bits that differ (log entry 135). -/
def checkBit (s : Nat × Nat) (c : Checker × Nat) (b : Bool) : Checker × Nat :=
  let want := prbsNext s c.1.reg
  if c.1.lock then ({ c.1 with reg := prbsShift s c.1.reg want }, c.2 + ofBit (b != want))
  else
    let good := if c.1.good < s.1 then c.1.good + 1 else if b == want && c.1.reg != 0 then c.1.good + 1 else 0
    ({ reg := prbsShift s c.1.reg b, good := good, lock := 2 * s.1 ≤ good }, c.2)

/-- The bits of bytes, the most significant first. -/
def bitsOf (l : List Byte) : List Bool := l.flatMap (fun b => [7, 6, 5, 4, 3, 2, 1, 0].map (fun i => b.getLsbD i))

/-- Bytes that a lane with its checker on receives: errors are counted and PRBS_LOCK follows; the port is disabled in the active
generation. -/
def Dev.prbsCheck (d : Dev) (l : Nat) (bytes : List Byte) : Dev :=
  let mode := d.fld (keyAt O.PRBS_CTRL l) 0 2
  if mode == 0 || laneOn d.active l || !d.rxPowered l then d
  else
    let r := (bitsOf bytes).foldl (checkBit (prbsShape mode)) (smLook {} d.line.check l, 0)
    ((d.count (keyAt O.PRBS_ERRORS l) r.2).putFlag (keyAt O.PRBS_CTRL l) 4 r.1.lock).onLine (fun x =>
      { x with check := smPut {} x.check l r.1 })

/-- `n` bits of a pattern from a register on, the latest first, and the register after them. -/
def prbsBits (s : Nat × Nat) : Nat → Nat → Nat × List Bool
  | 0, reg => (reg, [])
  | n + 1, reg =>
    let r := prbsBits s n reg
    let b := prbsNext s r.1
    (prbsShift s r.1 b, b :: r.2)

/-- Bits as bytes, the first bit the most significant. -/
def packMsb : Nat → List Bool → List Byte
  | 0, _ => []
  | n + 1, l => BitVec.ofNat 8 ((l.take 8).foldl (fun v b => 2 * v + ofBit b) 0) :: packMsb n (l.drop 8)

/-- `n` bytes of a lane's generator; the place in the pattern at which it starts is a free value, by lane and by the device's frame
(log entry 135). -/
def Dev.prbsSend (d : Dev) (l n : Nat) : Dev × List Byte :=
  let s := prbsShape (d.fld (keyAt O.PRBS_CTRL l) 2 2)
  let old := smLook 0 d.line.gen l
  let fresh := old % 2 ^ s.1 == 0
  let reg := if fresh then (Config.outWord (2 ^ 33 + l) d.frames).toNat % (2 ^ s.1 - 1) + 1 else old % 2 ^ s.1
  let r := prbsBits s (8 * n) reg
  (d.onLine (fun x => { x with gen := smPut 0 x.gen l r.1 }), packMsb n r.2.reverse)

/-! ## Polarity (R119) -/

/-- Bytes as a lane's receiver or transmitter passes them: inverted with RX_INVERT or TX_INVERT (Table LN-5). -/
def Dev.polarity (d : Dev) (l i : Nat) (bytes : List Byte) : List Byte :=
  if d.genBit (keyAt O.LANE_CTRL l) i then bytes.map (fun b => ~~~b) else bytes

/-! ## Bonded ports (R109, R110) -/

/-- An increment of 16 bytes. -/
def otlChunk (l : List Byte) (i : Nat) : List Byte := fitBytes 16 (l.drop (16 * i))

/-- What logical lane `j` carries of an OTU3 frame: increment i is on lane (i + MFAS) mod 4 (R109; G.709 Annex C, log entry 134). -/
def otlStripe (mfas : Nat) (f : List Byte) (j : Nat) : List Byte :=
  (List.range 255).flatMap (fun g => otlChunk f (4 * g + (j + 4 - mfas % 4) % 4))

/-- An OTU3 frame from what its logical lanes carry of it. -/
def otlFrame (mfas : Nat) (lane : Nat → List Byte) : List Byte :=
  (List.range 1020).flatMap (fun i => otlChunk (lane ((i + mfas) % 4)) (i / 4))

/-- The MFAS with which a lane's part of a frame begins, once in four frames, after the FAS (R109, Table FA-1). -/
def otlMarker (l : List Byte) : Option Nat :=
  if l.take 6 == bytesBE 6 framing then some ((otuScramble (l.take 7)).getD 6 0).toNat else none

/-- LOL is declared on a bonded port after three OTU3 frames with a condition: OTL_STATUS bit 15 of each lane. The logical lanes
and skews go on showing what is received (log entry 132). -/
def lolDeclared (d : Dev) (q : Nat) : Dev :=
  if d.traffic && d.quadGate q && bonded d.active q && 3 ≤ (smLook (0, 0) d.line.lol q).1 then
    (portLanes d.active (4 * q)).foldl (fun x l => x.putFlag (keyAt O.OTL_STATUS l) 15 true) d
  else d

def execLolDeclare (q : Fin 16) (s : State) : Host.Outcome State Fault Refusal := done s (lolDeclared s.dev q.val)

/-- LOL clears after three OTU3 frames without a condition. -/
def lolCleared (d : Dev) (q : Nat) : Dev :=
  if d.traffic && d.quadGate q && bonded d.active q && 3 ≤ (smLook (0, 0) d.line.lol q).2 then
    (portLanes d.active (4 * q)).foldl (fun x l => x.putFlag (keyAt O.OTL_STATUS l) 15 false) d
  else d

def execLolClear (q : Fin 16) (s : State) : Host.Outcome State Fault Refusal := done s (lolCleared s.dev q.val)

/-- The marker and measured skew of a physical lane in one OTU3 frame: OTL_STATUS follows (R109, R110). -/
def Dev.laneMarked (d : Dev) (l skew : Nat) (bytes : List Byte) : Dev :=
  if (d.syz l).phase.isNone then d
  else
    let d1 := d.putFld (keyAt O.OTL_STATUS l) 0 12 skew
    match otlMarker bytes with
    | none => d1
    | some m => (d1.putFld (keyAt O.OTL_STATUS l) 12 2 m).onLine (fun x => { x with marked := addOnce x.marked l })

/-- One OTU3 frame toward LOL (R110): a condition is a set of lanes other than 0 to 3 once each, or a skew above 512 ns, with all
lanes in frame and identified; an OOF lane keeps LOL from clearing (log entry 131). -/
def Dev.lolFrame (d : Dev) (q : Nat) : Dev :=
  let ls := [4 * q, 4 * q + 1, 4 * q + 2, 4 * q + 3]
  let st := fun (l : Nat) => d.rd (keyAt O.OTL_STATUS l)
  let known := ls.all (fun l => (d.syz l).phase.isSome && d.line.marked.contains l)
  let each := [0, 1, 2, 3].all (fun j => (ls.filter (fun l => bits (st l) 12 2 == j)).length == 1)
  let bad := !each || ls.any (fun l => bits (st l) 0 12 > 512)
  let r := smLook (0, 0) d.line.lol q
  let next := (if known && bad then min 3 (r.1 + 1) else 0, if known && !bad then min 3 (r.2 + 1) else 0)
  lolCleared (lolDeclared (d.onLine (fun x => { x with lol := smPut (0, 0) x.lol q next })) q) q

/-- What the four lanes of a bonded port bring of one OTU3 frame, deskewed (R109): the lanes are identified, LOL follows, and the
frame is reassembled. Where no lane, or more than one, carries a logical lane, the bytes are free values. -/
def Dev.otlReceive (d : Dev) (q : Nat) (raw : List Byte) (skews : List (BitVec 12)) : Dev × List Byte :=
  let part := fun (k : Nat) => d.polarity (4 * q + k) 0 (fitBytes 4080 (raw.drop (4080 * k)))
  let d1 := ([0, 1, 2, 3].foldl (fun (x : Dev) k => x.laneMarked (4 * q + k) ((skews.getD k 0).toNat) (part k)) d).lolFrame q
  let mfas := (([0, 1, 2, 3].filterMap (fun k => otlMarker (part k))).head?).getD ((smLook {} d.align.mf (4 * q)).fly + 1)
  let carriers := fun (j : Nat) => [0, 1, 2, 3].filter (fun k => d1.fld (keyAt O.OTL_STATUS (4 * q + k)) 12 2 == j)
  let lane := fun (j : Nat) => match carriers j with
    | [k] => part k
    | _ => (List.range 4080).map (fun i => Config.lostByte d.line.short (4080 * j + i))
  let lost := [0, 1, 2, 3].any (fun j => (carriers j).length != 1)
  (d1.when lost (fun x => x.onLine (fun y => { y with short := y.short + 1 })), otlFrame mfas lane)

end Sys2Proof.Machine
end

