-- ==== Sys2Proof/Machine/Container.lean ====
section
/-!
DEFINITION. Where bytes and bits lie: the AU-4s and AU-3s of an STM-N frame, the tributary units of a container, path overhead
(Tables MP-3, PO-4, PO-5), the OPUk (R196), the asynchronous mappings of E1 and DS1 (R283), and the internal E1 and C37.94 frames of
a client (R280). The places are those of G.707, G.709, G.704 and IEEE C37.94, which the manual names and does not repeat (log entry
140).
-/
namespace Sys2Proof.Machine

/-! ## Interleaving -/

/-- Of each group of `n` bytes, those at places `i` to `i + c - 1`; `k` is the place of the first byte of the list. -/
def pick (n i c : Nat) : Nat → List Byte → List Byte
  | _, [] => []
  | k, b :: r =>
    if i ≤ k && k < i + c then b :: pick n i c ((k + 1) % n) r else pick n i c ((k + 1) % n) r

/-- `n` rounds over lists, one byte of each in turn. -/
def interleave : Nat → List (List Byte) → List Byte
  | 0, _ => []
  | n + 1, ls => ls.map (fun l => l.headD 0) ++ interleave n (ls.map (fun l => l.drop 1))

/-- `r` rows of `w` bytes. -/
def rowsOf (w : Nat) : Nat → List Byte → List (List Byte)
  | 0, _ => []
  | r + 1, l => l.take w :: rowsOf w r (l.drop w)

/-- `n` zeros and `n` ones, by bytes. -/
def zeros (n : Nat) : List Byte := List.replicate n 0
def allOnes (n : Nat) : List Byte := List.replicate n 0xFF

/-! ## Path types (Tables MP-1, MP-3) -/

/-- The number of AU-4s of a level-2 path type. -/
def auCount (pt : Nat) : Nat := if pt == 2 then 4 else if pt == 3 then 16 else if pt == 4 then 64 else 1

/-- The range of offsets of a path type (Table MP-3). -/
def ptrRange (pt : Nat) : Nat := if pt == 6 then 765 else if pt == 7 then 140 else if pt == 8 then 104 else 783

/-- Whether a path type has a multiframe period (Table MP-3). -/
def isTu1 (pt : Nat) : Bool := pt == 7 || pt == 8

/-- The justification unit J in bytes (Table MP-3). -/
def unitJ (pt : Nat) : Nat := if 1 ≤ pt && pt ≤ 4 then 3 * auCount pt else 1

/-- The bytes of a period's payload: the range of offsets in units of J. -/
def payLen (pt : Nat) : Nat := ptrRange pt * unitJ pt

/-- The bytes of a container; that of a VC-3 in an AU-3 is without the two columns of fixed stuff of the AU-3. -/
def contLen (pt : Nat) : Nat := if pt == 5 then 765 else payLen pt

/-- The bytes of a row of a container carried at 125 µs. -/
def contRow (pt : Nat) : Nat := if pt == 5 || pt == 6 then 85 else 261 * auCount pt

/-- The places of the overhead bytes: J1 to N1, or V5, J2, N2 and K4. -/
def pohPlaces (pt : Nat) : List Nat :=
  if isTu1 pt then (List.range 4).map (fun i => i * (contLen pt / 4)) else (List.range 9).map (fun i => i * contRow pt)

/-- The overhead bytes of a container, in that order. -/
def pohOfCont (pt : Nat) (c : List Byte) : List Byte := (pohPlaces pt).map (fun i => c.getD i 0)

/-- A container with overhead bytes in their places. -/
def putPoh (pt : Nat) (c l : List Byte) : List Byte :=
  ((pohPlaces pt).zip l).foldl (fun x e => x.set e.1 e.2) c

/-- BIP-2, in bits 1 and 2 of a byte: the parity of the odd bits and of the even bits (Table PO-5). -/
def bip2 (l : List Byte) : Byte :=
  let x := bip8 l
  BitVec.ofNat 8 (ones (x &&& 0xAA) % 2 * 128 + ones (x &&& 0x55) % 2 * 64)

/-- The parity of a container as B3 or V5 carries it. -/
def contBip (pt : Nat) (c : List Byte) : Byte := if isTu1 pt then bip2 c else bip8 c

/-- A VC-3's container with the fixed stuff of columns 30 and 59 of the AU-3, and without. -/
def stuffed (c : List Byte) : List Byte :=
  (rowsOf 85 9 c).flatMap (fun r => r.take 29 ++ [0] ++ (r.drop 29).take 28 ++ [0] ++ r.drop 57)
def unstuffed (c : List Byte) : List Byte :=
  (rowsOf 87 9 c).flatMap (fun r => r.take 29 ++ (r.drop 30).take 28 ++ r.drop 59)

/-- A container as the payload of its period carries it, and back. -/
def toPay (pt : Nat) (c : List Byte) : List Byte := if pt == 5 then stuffed c else c
def ofPay (pt : Nat) (c : List Byte) : List Byte := if pt == 5 then unstuffed c else c

/-! ## Periods -/

/-- One period of a pointer as it is received: the word with those of the members of a concatenation, and the bytes, with the time
at which each part came: those before the pointer, those after it up to the justification opportunity, the opportunity, and the
rest. Offset 0 is the first byte after the pointer that is not the opportunity. -/
structure Period where
  word    : Nat
  members : List Nat
  pre     : Nat × List Byte
  ahead   : Nat × List Byte
  opp     : Nat × List Byte
  rest    : List (Nat × List Byte)
deriving DecidableEq, Repr

/-- A word from two bytes. -/
def wordOf (h l : Byte) : Nat := h.toNat * 256 + l.toNat

/-- The period of a level-2 context in a frame: `c` AU-4s from number `i` on, or with `k` an AU-3 of AU-4 `i`. -/
def auPeriod (n i k c time : Nat) (f : RxFrame) : Period :=
  let ptr := pick n i c 0 f.ptr
  let row := fun (r : Nat) => pick n i c 0 (f.pay.getD r [])
  if k == 0 then
    let w := fun (m : Nat) => wordOf (ptr.getD m 0) (ptr.getD (3 * c + m) 0)
    { word := w 0, members := (List.range (c - 1)).map (fun m => w (m + 1)), pre := (time, (List.range 3).flatMap row)
      ahead := (time, []), opp := (time, ptr.drop (6 * c)), rest := [(time, (List.range 6).flatMap (fun r => row (r + 3)))] }
  else
    let col := fun (r : Nat) => pick 3 (k - 1) 1 0 (row r)
    { word := wordOf (ptr.getD (k - 1) 0) (ptr.getD (k + 2) 0), members := [], pre := (time, (List.range 3).flatMap col)
      ahead := (time, []), opp := (time, [ptr.getD (k + 5) 0]), rest := [(time, (List.range 6).flatMap (fun r => col (r + 3)))] }

/-- The nine rows of TUG-3 `k` in a VC-4. -/
def tug3Rows (k : Nat) (c : List Byte) : List (List Byte) := (rowsOf 261 9 c).map (fun r => pick 3 (k - 1) 1 0 (r.drop 3))

/-- The nine rows of seven TUG-2s: of TUG-3 `k` in a VC-4, or of a VC-3 in an AU-3. -/
def tug2Rows (pt k : Nat) (c : List Byte) : List (List Byte) :=
  if pt == 5 then (rowsOf 85 9 c).map (fun r => r.drop 1) else (tug3Rows k c).map (fun r => r.drop 2)

/-- The number of TUs of a TUG-2: three TU-12s or four TU-11s. -/
def tusOf (pt : Nat) : Nat := if pt == 8 then 4 else 3

/-- The bytes of TU `m` of TUG-2 `l` in a container of the parent: the V byte and those after it. -/
def tuBytes (parent k l m pt : Nat) (c : List Byte) : List Byte :=
  (tug2Rows parent k c).flatMap (fun r => pick (tusOf pt) (m - 1) 1 0 (pick 7 (l - 1) 1 0 r))

/-- The period of a TU-3 in a container of its parent. -/
def tu3Period (k : Nat) (c : Nat × List Byte) : Period :=
  let rows := tug3Rows k c.2
  let p := fun (r : Nat) => (rows.getD r []).headD 0
  { word := wordOf (p 0) (p 1), members := [], pre := (c.1, (rows.take 2).flatMap (fun r => r.drop 1)), ahead := (c.1, [])
    opp := (c.1, [p 2]), rest := [(c.1, (rows.drop 2).flatMap (fun r => r.drop 1))] }

/-- The period of a TU-12 or TU-11 in the four containers of a multiframe, which carry V1 to V4. -/
def tu1Period (parent k l m pt : Nat) (cs : List (Nat × List Byte)) : Period :=
  let q := cs.map (fun c => (c.1, tuBytes parent k l m pt c.2))
  let at_ := fun (i : Nat) => q.getD i (0, [])
  let body := fun (i : Nat) => ((at_ i).1, (at_ i).2.drop 1)
  { word := wordOf ((at_ 0).2.headD 0) ((at_ 1).2.headD 0), members := [], pre := body 0, ahead := body 1
    opp := ((at_ 2).1, (at_ 2).2.take 1), rest := [body 2, body 3] }

/-! ## Building containers and frames -/

/-- The 84 columns of seven TUG-2s from the bytes of their TUs, TUG-2 by TUG-2. -/
def tug2Build (tugs : List (List (List Byte))) : List (List Byte) :=
  rowsOf 84 9 (interleave 108 (tugs.map (fun tus => interleave (108 / tus.length) tus)))

/-- A VC-4 from its three TUG-3s' rows, and a VC-3 of TUG-2s, overhead and fixed stuff zero. -/
def vc4Build (tug3s : List (List (List Byte))) : List Byte :=
  (List.range 9).flatMap (fun r => [0, 0, 0] ++ interleave 86 (tug3s.map (fun t => t.getD r [])))
def vc3Build (rows : List (List Byte)) : List Byte := (List.range 9).flatMap (fun r => 0 :: fitBytes 84 (rows.getD r []))

/-- The nine pointer bytes and the nine rows of 261 of one AU-4. -/
structure AuPart where
  ptr  : List Byte
  rows : List (List Byte)
deriving DecidableEq, Repr

/-- The AU-4s of a concatenation from its pointer bytes and rows. -/
def splitAus (c : Nat) (ptr : List Byte) (rows : List (List Byte)) : List AuPart :=
  (List.range c).map (fun m => { ptr := pick c m 1 0 ptr, rows := rows.map (pick c m 1 0) })

/-- Three AU-3s as one AU-4's place. -/
def joinAu3s (l : List AuPart) : AuPart :=
  { ptr := interleave 3 (l.map (·.ptr)), rows := (List.range 9).map (fun r => interleave 87 (l.map (fun x => x.rows.getD r []))) }

/-- The pointer row and payload of an STM-N frame, row by row as the section layers take them. -/
def framePay (aus : List AuPart) : List Byte :=
  (List.range 9).flatMap (fun r =>
    (if r == 3 then interleave 9 (aus.map (·.ptr)) else []) ++ interleave 261 (aus.map (fun x => x.rows.getD r [])))

/-- A pointer word: NDF, size bits, offset. -/
def ptrWord (ndf ss off : Nat) : Nat := ndf * 4096 + ss * 1024 + off % 1024

/-! ## The OPUk (R196) -/

/-- The columns of fixed stuff of an OPUk with an STM-N client. -/
def opuStuff (otu3 : Bool) (col : Nat) : Bool :=
  if otu3 then (1265 ≤ col && col ≤ 1280) || (2545 ≤ col && col ≤ 2560) else 1905 ≤ col && col ≤ 1920

/-- The payload bytes of a row of an OTU frame's OPUk, fixed stuff apart; `row` starts at column 17. -/
def opuRow (otu3 : Bool) (row : List Byte) : List Byte :=
  (((List.range 3808).zip row).filter (fun e => !opuStuff otu3 (e.1 + 17))).map (·.2)

/-- The justification decision of JC bits 7 and 8 by 2-of-3 majority: 0 to 3. -/
def jcValue (j : List Byte) : Nat :=
  let maj := fun (i : Nat) => ofBit ((j.filter (fun b => b.getLsbD i)).length ≥ 2)
  2 * maj 1 + maj 0

/-- The client bytes of an OTU frame: NJO and PJO as the justification control says (R196). -/
def opuTake (otu3 : Bool) (f : List Byte) : List Byte :=
  let row := fun (r : Nat) => opuRow otu3 ((f.drop (r * 4080 + 16)).take 3808)
  let jc := jcValue ((List.range 3).map (fun r => f.getD (r * 4080 + 15) 0))
  let last := row 3
  row 0 ++ row 1 ++ row 2
    ++ (if jc == 1 then f.getD (3 * 4080 + 15) 0 :: last else if jc == 3 then last.drop 1 else last)

/-- The client bytes that an OTU frame takes with JC 0b00. -/
def opuNeed (otu3 : Bool) : Nat := if otu3 then 4 * 3776 else 4 * 3792

/-- Client bytes into the payload columns of a row, fixed stuff zero: the row and the bytes left. -/
def opuFill (otu3 : Bool) : List Nat → List Byte → List Byte
  | [], _ => []
  | c :: r, l => if opuStuff otu3 c then 0 :: opuFill otu3 r l else l.headD 0 :: opuFill otu3 r (l.drop 1)

/-- The four rows of 3,808 payload bytes of an OTU frame, JC 0b00: PJO carries data, NJO is a justification byte (R196). -/
def opuPut (otu3 : Bool) (l : List Byte) : List Byte :=
  opuFill otu3 ((List.range 4).flatMap (fun _ => (List.range 3808).map (· + 17))) l

/-! ## Asynchronous mapping of clients (R283) -/

/-- Data bits of a multiframe apart from S1 and S2: of a VC-12, and of a VC-11. -/
def fixedBits (pt : Nat) : Nat := if pt == 8 then 771 else 1023

/-- A container of a client: C bits of `c1` and `c2`, S1 and S2 data where they are clear; overhead bytes zero. -/
def mapBits (pt : Nat) (c1 c2 : Bool) (l : List Bool) : List Byte :=
  if pt == 8 then
    let part := fun (i : Nat) (x : List Bool) => BitVec.ofNat 8 0 ::
      packMsb 25 ([i != 0 && c1, i != 0 && c2, false, false, false, false, x.headD false, false] ++ x.drop 1)
    let tail := l.drop 579
    let t1 := if c1 then tail else tail.drop 1
    let t2 := if c2 then t1 else t1.drop 1
    part 0 (l.take 193) ++ part 1 ((l.drop 193).take 193) ++ part 2 ((l.drop 386).take 193)
      ++ (0 :: packMsb 25 ([c1, c2, false, false, false, !c1 && tail.headD false, !c2 && t1.headD false, false] ++ t2.take 192))
  else
    let data := fun (i : Nat) => packMsb 32 ((l.drop (256 * i)).take 256)
    let ctl : Byte := BitVec.ofNat 8 (ofBit c1 * 128 + ofBit c2 * 64)
    let tail := l.drop 768
    let t1 := if c1 then tail else tail.drop 1
    let t2 := if c2 then t1 else t1.drop 1
    [0, 0] ++ data 0 ++ [0] ++ [0, ctl] ++ data 1 ++ [0] ++ [0, ctl] ++ data 2 ++ [0]
      ++ [0, ctl ||| BitVec.ofNat 8 (ofBit (!c1 && tail.headD false))]
      ++ packMsb 32 ((!c2 && t1.headD false) :: t2.take 255) ++ [0]

/-- The majority of three bits. -/
def major3 (a b c : Bool) : Bool := (a && b) || (a && c) || (b && c)

/-- The client bits of a container: each set of C bits decides by majority of three. -/
def demapBits (pt : Nat) (c : List Byte) : List Bool :=
  let at_ := fun (i : Nat) => c.getD i 0
  let span := fun (i n : Nat) => bitsOf ((c.drop i).take n)
  if pt == 8 then
    let maj := fun (i : Nat) => major3 ((at_ 27).getLsbD i) ((at_ 53).getLsbD i) ((at_ 79).getLsbD i)
    ((at_ 1).getLsbD 1 :: span 2 24) ++ ((at_ 27).getLsbD 1 :: span 28 24) ++ ((at_ 53).getLsbD 1 :: span 54 24)
      ++ (if maj 7 then [] else [(at_ 79).getLsbD 2]) ++ (if maj 6 then [] else [(at_ 79).getLsbD 1]) ++ span 80 24
  else
    let maj := fun (i : Nat) => major3 ((at_ 36).getLsbD i) ((at_ 71).getLsbD i) ((at_ 106).getLsbD i)
    span 2 32 ++ span 37 32 ++ span 72 32
      ++ (if maj 7 then [] else [(at_ 106).getLsbD 0]) ++ (if maj 6 then [] else [(at_ 107).getLsbD 7])
      ++ (span 107 1).drop 1 ++ span 108 31

/-! ## The internal E1 of a C37.94 client (R280) -/

/-- One bit into the CRC-4 register of x^4 + x + 1. -/
def crc4Bit (r : Nat) (b : Bool) : Nat := (r * 2 % 16) ^^^ (if bit r 3 != b then 3 else 0)

/-- Time slot 0 of frame `n` of a CRC-4 multiframe: the frame alignment word behind a bit of the CRC-4 of the submultiframe before, or
the multiframe alignment word and E bits before 0b1, A = 0 and ones. -/
def slot0 (n crc : Nat) : Byte :=
  if n % 2 == 0 then BitVec.ofNat 8 (ofBit (bit crc (3 - n / 2 % 4)) * 128 + 0x1B)
  else BitVec.ofNat 8 (ofBit (n == 5 || n == 9 || 11 ≤ n) * 128 + 0x5F)

/-- One frame of the internal E1: the channels in time slots 1 to N, 0xFF after them; and the builder after it. -/
def e1Frame (x : E1Tx) (chans : List Byte) : E1Tx × List Bool :=
  let ts := (chans ++ allOnes 31).take 31
  let head := slot0 x.frame x.crc
  let clean : Byte := if x.frame % 2 == 0 then head &&& 0x7F else head
  let run := (bitsOf (clean :: ts)).foldl crc4Bit x.run
  let endS := x.frame % 8 == 7
  ({ x with frame := (x.frame + 1) % 16, run := if endS then 0 else run, crc := if endS then run else x.crc }, bitsOf (head :: ts))

/-- Whether a frame alignment word stands at the head of bits, and the second bit of the frame after it is 1 (G.706 clause 4.1.2). -/
def fasAt (l : List Bool) : Bool :=
  let w := [false, false, true, true, false, true, true]
  (l.drop 1).take 7 == w && ((l.drop 257).headD false) && (l.drop 513).take 7 == w

/-- The bits from the first place on at which an E1 is found aligned. -/
def e1Search : List Bool → Option (List Bool)
  | [] => none
  | b :: r => if fasAt (b :: r) then some (b :: r) else e1Search r

/-! ## C37.94 frames (R280) -/

/-- Every other bit, from the first on. -/
def evens : List Bool → List Bool
  | a :: _ :: r => a :: evens r
  | [a] => [a]
  | [] => []

/-- The channel bytes of a C37.94 frame: the bits after the 64 of header and overhead data, each followed by its complement. -/
def relayChannels (n : Nat) (f : List Bool) : List Byte :=
  packMsb n ((evens (f.drop 64)).take (8 * n))

/-- A C37.94 frame of N channels with a yellow bit; `odd` names the second of two alternating headers. -/
def relayFrame (n : Nat) (odd yellow : Bool) (chans : List Byte) : List Bool :=
  let pairs := fun (l : List Bool) => l.flatMap (fun b => [b, !b])
  let head := (if odd then [true, true, yellow, true, true, true, true, true] else [true, false, false, true, true, false, true, true])
    ++ [false, false, false, false, true, true, true, true]
  let count := pairs [bit n 3, bit n 2, bit n 1, bit n 0]
  head ++ count ++ pairs (List.replicate 20 true) ++ pairs ((bitsOf chans ++ List.replicate 96 true).take 96)

end Sys2Proof.Machine
end

