-- ==== Sys2Proof/Machine/Trace.lean ====
section
/-!
DEFINITION. Repeated traces: the formats of R158, their delimiting and acceptance (R159, R168, R207), and sending them
untorn (R160).
-/
namespace Sys2Proof.Machine

/-- A trace has been received once more: three equal ones in a row are accepted. -/
def traceDone (t : TraceRx) (v : List Byte) : TraceRx × Option (List Byte) :=
  let run := if v == t.last then min (t.run + 1) 3 else 1
  let t1 := { t with last := v, run := run }
  if run ≥ 3 then ({ t1 with got := true }, some v) else (t1, none)

/-- A trace that does not end where its format ends it: the run of equal traces is broken (R159, log entry 141). -/
def TraceRx.broken (t : TraceRx) : TraceRx := { t with last := [], run := 0 }

/-- A 16-byte trace is complete: its CRC-7 covers the previous trace; a mismatch breaks the run (R159; log entry 19
where no previous trace is held). The result says whether the CRC failed. -/
def trace16 (t : TraceRx) (l : List Byte) : TraceRx × Option (List Byte) × Bool :=
  let crc := (l.headD 0).toNat % 128
  let t1 := { t with prev := l }
  if !t.prev.isEmpty && crc7 t.prev != crc then (t1.broken, none, true)
  else
    let r := traceDone t1 (fitBytes 64 (l.drop 1))
    (r.1, r.2, false)

/-- One received byte of a trace in mode 0 (one byte), 1 (16 bytes) or 2 (64 bytes): the reception after it, the trace
accepted, and whether a CRC-7 failed. -/
def traceByte (mode : Nat) (t : TraceRx) (b : Byte) : TraceRx × Option (List Byte) × Bool :=
  if mode == 0 then
    let r := traceDone t (fitBytes 64 [b])
    (r.1, r.2, false)
  else if mode == 1 then
    if b.toNat ≥ 128 then ({ (if t.buf.isEmpty then t else t.broken) with buf := [b] }, none, false)
    else if t.buf.isEmpty then (t.broken, none, false)
    else
      let l := t.buf ++ [b]
      if l.length == 16 then trace16 { t with buf := [] } l else ({ t with buf := l }, none, false)
  else
    let all := t.buf ++ [b]
    let l := all.drop (all.length - 64)
    if b == 0x0A && l.getD (l.length - 2) 0 == 0x0D && 2 ≤ l.length then
      if l.length == 64 then
        let r := traceDone { t with buf := [] } l
        (r.1, r.2, false)
      else ({ t.broken with buf := [] }, none, false)
    else ({ (if all.length < 64 then t else t.broken) with buf := l }, none, false)

/-- The bytes of an object that a mode compares. -/
def traceUsed (mode : Nat) : Nat := if mode == 0 then 1 else if mode == 1 then 15 else 64

/-- The trace that a mode sends for an object's content: in mode 1 the marker with the CRC-7 of the previous trace, then
15 characters with bit 1 forced to 0 (R158). The first trace sent has none before it, and its CRC-7 is its own (log entry 142). -/
def traceBytes (mode : Nat) (content prev : List Byte) : List Byte :=
  if mode == 0 then content.take 1
  else if mode == 1 then
    let chars := (content.take 15).map (fun b => b &&& 0x7F)
    let self := 0x80 :: chars
    BitVec.ofNat 8 (128 + crc7 (if prev.isEmpty then self else prev)) :: chars
  else content.take 64

/-- The next byte of a transmitted trace; a new content is taken at a trace boundary only (R160). -/
def traceSend (mode : Nat) (content : List Byte) (t : TraceTx) : TraceTx × Byte :=
  let t1 := if t.pos == 0 then { t with cur := traceBytes mode content t.prev, prev := [] } else t
  let b := t1.cur.getD t1.pos 0
  if t1.pos + 1 ≥ t1.cur.length then ({ t1 with pos := 0, prev := if t1.cur.length == 16 then t1.cur else [] }, b)
  else ({ t1 with pos := t1.pos + 1 }, b)

/-- The mismatch status of an accepted trace: compared, accepted once, and different in the bytes used. -/
def traceDiffers (compare : Bool) (t : TraceRx) (mode : Nat) (accepted expected : List Byte) : Bool :=
  compare && t.got && accepted.take (traceUsed mode) != expected.take (traceUsed mode)

end Sys2Proof.Machine
end

