-- ==== Sys2Proof/Machine/Section.lean ====
section
/-!
DEFINITION. Section overhead and the OTN line layer, receive side: pipelines, holds, acceptance and counting, DCC
(R149 to R171).
-/
namespace Sys2Proof.Machine

/-! ## Frames -/

/-- The byte of a frame of `cols` columns at a row and column, both from 1. -/
def byteAt (f : List Byte) (cols row col : Nat) : Byte := f.getD ((row - 1) * cols + col - 1) 0

/-- The columns of an STM-N frame. -/
abbrev sdhCols (n : Nat) : Nat := 270 * n

/-- An STM-N frame without its RSOH: what B2 covers (Table SO-3). -/
def withoutRsoh (n : Nat) (f : List Byte) : List Byte :=
  (List.range 3).flatMap (fun r => (f.drop (r * sdhCols n + 9 * n)).take (261 * n)) ++ f.drop (3 * sdhCols n)

/-- The B2 of a frame before scrambling: BIP-24N. -/
def b2Of (n : Nat) (f : List Byte) : List Byte := bipN (3 * n) (withoutRsoh n f)

/-- The B2 bytes that a frame carries. -/
def b2Bytes (n : Nat) (f : List Byte) : List Byte := (f.drop (4 * sdhCols n)).take (3 * n)

/-- The OPUk of an OTU frame, columns 15 to 3824. -/
def opuk (f : List Byte) : List Byte := (List.range 4).flatMap (fun r => (f.drop (r * 4080 + 14)).take 3810)

/-- The DCC bytes of a frame, in byte order: D1 to D3, or D4 to D12 (Table SO-3). -/
def dccBytes (n : Nat) (f : List Byte) (multiplex : Bool) : List Byte :=
  let row := fun r => [byteAt f (sdhCols n) r 1, byteAt f (sdhCols n) r (3 * n + 1), byteAt f (sdhCols n) r (6 * n + 1)]
  if multiplex then row 6 ++ row 7 ++ row 8 else row 3

/-! ## Section state of a port -/

def Dev.secRx (d : Dev) (p : Nat) : SecRx := smLook {} d.oh.rx p
def Dev.secTx (d : Dev) (p : Nat) : SecTx := smLook {} d.oh.tx p
def Dev.onSecRx (d : Dev) (p : Nat) (f : SecRx → SecRx) : Dev :=
  d.onOh (fun o => { o with rx := smPut {} o.rx p (f (smLook {} o.rx p)) })
def Dev.onSecTx (d : Dev) (p : Nat) (f : SecTx → SecTx) : Dev :=
  d.onOh (fun o => { o with tx := smPut {} o.tx p (f (smLook {} o.tx p)) })

/-- PORT_TYPE in force. -/
def Dev.portTy (d : Dev) (p : Nat) : Nat := portType d.active p

/-- The action bits of a port or path that the pipelines apply: ACTION_STATUS as it stood at the latest boundary of the port or path
(R16), with a path's H4_LOM in bit 16. -/
def Dev.act (d : Dev) (a : Nat) : Nat := smLook 0 d.acts a

/-- Whether the section processor works on a port: its block runs and the port is enabled. -/
def Dev.secRuns (d : Dev) (p : Nat) : Bool := d.runs gSection && portOn d.active p

/-- Whether a port's frame is marked OOF: the port is OOF, or a lock at another phase has cut the frame (R137). -/
def Dev.frameMarked (d : Dev) (p : Nat) : Bool := d.portOof p || d.align.cut.contains p

/-- Whether the client frame of an OTU port is marked OOF (R137, R198). -/
def Dev.clientMarked (d : Dev) (p : Nat) : Bool := d.clientOof p || d.align.cut.contains (64 + p)

/-- The hold of Table SO-2 row 1: the frame is marked OOF or LOS is declared on the port. -/
def Dev.soHold (d : Dev) (p : Nat) : Bool := d.frameMarked p || d.portLos p

/-- SO_STATUS as a read returns it. -/
def Dev.soStatus (d : Dev) (p : Nat) : Nat :=
  putBits (d.rd (keyAt O.SO_STATUS p)) 7 1 (ofBit (d.secRuns p && d.soHold p))

/-- The raw defects of a port (Table DF-1). -/
def Dev.portRaw (d : Dev) (p : Nat) : Nat := d.rd (keyCtx O.DEFECT_RAW (portAddr p))

/-- MS-AIS declared; ODU-AIS, ODU-OCI or ODU-LCK declared (Table SO-2). -/
def Dev.msAisDeclared (d : Dev) (p : Nat) : Bool := bit (d.portRaw p) 5
def Dev.oduDown (d : Dev) (p : Nat) : Bool := d.portRaw p &&& 0x1C00 != 0

/-! ## DCC queues (R161 to R164) -/

/-- The queue that a port's channel names; 0xFF for none. -/
def Dev.dccQueue (d : Dev) (p : Nat) (multiplex : Bool) : Nat :=
  d.genA (keyAt (if multiplex then O.DCC_QUEUE_M else O.DCC_QUEUE_R) p)

def Dev.dccRx (d : Dev) (q : Nat) : List Byte := smLook [] d.oh.dccRx q
def Dev.dccTx (d : Dev) (q : Nat) : List Byte := smLook [] d.oh.dccTx q
def Dev.putDccRx (d : Dev) (q : Nat) (l : List Byte) : Dev := d.onOh (fun o => { o with dccRx := smPut [] o.dccRx q l })
def Dev.putDccTx (d : Dev) (q : Nat) (l : List Byte) : Dev := d.onOh (fun o => { o with dccTx := smPut [] o.dccTx q l })

/-- Whether a port's channel has a queue: one is named and the port is enabled (R161). -/
def Dev.dccOn (d : Dev) (p : Nat) (multiplex : Bool) : Bool := portOn d.active p && d.dccQueue p multiplex < 16

/-- A frame's DCC bytes are appended, or dropped whole, which the visit counts (R162, Table SO-9). -/
def Dev.dccCapture (d : Dev) (p : Nat) (multiplex : Bool) (l : List Byte) : Dev :=
  if !d.dccOn p multiplex then d
  else
    let q := d.dccQueue p multiplex
    let old := d.dccRx q
    if old.length + l.length > 4096 then
      d.onSecRx p (fun x => { x with recs := x.recs ++ [.dccLost l.length] })
    else d.putDccRx q (old ++ l)

/-- Bytes that paired writes bring a channel's transmit queue at a boundary still to come (R164, R173). -/
def Dev.dccComing (d : Dev) (p : Nat) (multiplex : Bool) : Nat :=
  (d.pairWait.filter (fun w => w.idx == 0x28C0 + p && w.sub == (if multiplex then 0xC else 0xB))).foldl (fun n w => n + w.data.length) 0

/-- Free bytes of a channel's transmit queue, those that are coming taken up already (log entry 144); 0 where it has none (Table
SO-8). -/
def Dev.dccFree (d : Dev) (p : Nat) (multiplex : Bool) : Nat :=
  if d.dccOn p multiplex then 4096 - (d.dccTx (d.dccQueue p multiplex)).length - d.dccComing p multiplex else 0

/-- DCC_LEVELS (Table SO-8). -/
def Dev.dccLevels (d : Dev) (p : Nat) : Nat :=
  let rx := fun m => if d.dccOn p m then (d.dccRx (d.dccQueue p m)).length else 0
  rx false * 2 ^ 48 + d.dccFree p false * 2 ^ 32 + rx true * 2 ^ 16 + d.dccFree p true

/-- The value of DCC_RX_R or DCC_RX_M: the oldest queued bytes, at most `n` (R163). -/
def Dev.dccRead (d : Dev) (p : Nat) (multiplex : Bool) (n : Nat) : List Byte :=
  if d.dccOn p multiplex then (d.dccRx (d.dccQueue p multiplex)).take (min n 4096) else []

/-- The bytes that have left receive queue `q`. -/
def Dev.dccGone (d : Dev) (q : Nat) : Nat := smLook 0 d.oh.dccPos q

/-- The oldest `n` bytes leave receive queue `q`. -/
def Dev.dccDrop (d : Dev) (q n : Nat) : Dev :=
  let k := min n (d.dccRx q).length
  (d.putDccRx q ((d.dccRx q).drop k)).onOh (fun o => { o with dccPos := smPut 0 o.dccPos q (d.dccGone q + k) })

/-- The bytes that a read latched, up to place `upTo` of the queue's stream, leave the queue as the read completes (R163);
those that an earlier completion took are gone already (R57). -/
def Dev.dccConsume (d : Dev) (q upTo : Nat) : Dev := d.dccDrop q (upTo - d.dccGone q)

/-- The next `n` transmit bytes of a channel: queued bytes, then DCC_IDLE (R164). -/
def Dev.dccSend (d : Dev) (p : Nat) (multiplex : Bool) (n : Nat) : Dev × List Byte :=
  let idle : Byte := BitVec.ofNat 8 (d.genA (keyAt O.DCC_IDLE p))
  if !d.dccOn p multiplex then (d, List.replicate n idle)
  else
    let q := d.dccQueue p multiplex
    let l := (d.dccTx q).take n
    let d1 := d.putDccTx q ((d.dccTx q).drop n)
    (d1.when (l.length < n) (fun x => x.set1 (keyAt O.SO_STATUS p) 6), l ++ List.replicate (n - l.length) idle)

/-! ## Receive pipelines -/

/-- A run of equal values: its value and length. -/
def runStep (r : Nat × Nat) (v : Nat) : Nat × Nat := if r.1 == v && r.2 != 0 then (v, min (r.2 + 1) 255) else (v, 1)

/-- An integrated bit: `n` consecutive frames with the contrary value change the state (Table DF-2). -/
def integrate (s : Bool × Nat) (now : Bool) (n : Nat) : Bool × Nat :=
  if now == s.1 then (s.1, 0) else if s.2 + 1 ≥ n then (now, 0) else (s.1, s.2 + 1)

/-- The REI that M1 and M0 carry; a value above the range counts as 0 (Table SO-4). -/
def reiValue (n mode m0 m1 : Nat) : Nat :=
  let v := if n == 1 then m1 % 128 else if n == 256 || (n == 64 && mode == 1) then m0 * 256 + m1 else m1
  let top := if n == 1 then 24 else if n == 4 then 96 else if n == 16 then 255
    else if n == 64 then (if mode == 1 then 1536 else 255) else 6144
  if v > top then 0 else v

/-- REI_MODE of a port in force. -/
def Dev.reiMode (d : Dev) (p : Nat) : Nat := d.genFld (keyAt O.SO_CTRL p) 8 1

def Dev.onRxFrame (d : Dev) (p : Nat) (f : RxFrame → RxFrame) : Dev :=
  { d with rxFrames := smPut {} d.rxFrames p (f (smLook {} d.rxFrames p)) }

/-- The AU-4 positions of a received STM-N go to the pointer processor (R14): all ones while the frame is marked OOF (R226) or the
port is in AIS_OUT (R225). -/
def Dev.takeFrame (d : Dev) (p n : Nat) (g : List Byte) : Dev :=
  let dark := d.frameMarked p || (isOtu (d.portTy p) && d.clientMarked p) || bit (d.act (portAddr p)) 4
  let f := if dark then allOnes (9 * sdhCols n) else g
  d.onRxFrame p (fun x => {
    num := x.num + 1, time := d.time, ptr := (f.drop (3 * sdhCols n)).take (9 * n)
    pay := (List.range 9).map (fun r => (f.drop (r * sdhCols n + 9 * n)).take (261 * n)) })

/-- One STM-N frame, as received: B1, B2, overhead bytes, DCC capture, the runs of MS-AIS and MS-RDI, and the AU-4 positions. -/
def sdhReceive (d : Dev) (p : Nat) (raw : List Byte) : Dev :=
  let n := stmN (d.portTy p)
  let f := fitBytes (9 * sdhCols n) raw
  let g := sdhScramble n f
  let at_ := byteAt g (sdhCols n)
  let x := d.secRx p
  let hold := d.soHold p || (isOtu (d.portTy p) && d.clientMarked p)
  let ms := d.msAisDeclared p
  let b1 := match x.b1 with
    | some b => ones (b ^^^ at_ 2 1)
    | none => 0
  let b2 := match x.b2 with
    | some l => parityErrors l (b2Bytes n g)
    | none => 0
  let k1 := at_ 5 (3 * n + 1)
  let k2 := at_ 5 (6 * n + 1)
  let base := { x with b1 := some (bip8 f), b2 := some (b2Of n g) }
  let d0 := d.takeFrame p n g
  if hold then d0.onSecRx p (fun _ => { base with recs := x.recs ++ [.gap], rei := some 0 })
  else
    let r : SdhRec := {
      b1 := b1, b2 := if ms then 0 else b2
      rei := if ms then 0 else reiValue n (d.reiMode p) (at_ 9 (3 * n + 2)).toNat (at_ 9 (3 * n + 3)).toNat
      j0 := at_ 1 (6 * n + 1), k := k1.toNat * 256 + k2.toNat, s1 := (at_ 9 1).toNat % 16, ms := ms }
    let d1 := d0.onSecRx p (fun _ => { base with
      recs := x.recs ++ [.sdh r], rei := some (if ms then 0 else b2)
      msAis := integrate x.msAis (k2.toNat % 8 == 7) 3, msRdi := integrate x.msRdi (k2.toNat % 8 == 6) 5 })
    let d2 := d1.dccCapture p false (dccBytes n g false)
    if ms then d2 else d2.dccCapture p true (dccBytes n g true)

/-- A frame's rows after GFEC decoding: the rows, corrected bits, uncorrectable codewords, codewords (R170, R171). -/
def fecReceive (rx correct : Bool) (f : List Byte) : List Byte × Nat × Nat × Nat :=
  if !rx then (f, 0, 0, 0)
  else
    (List.range 4).foldl (fun (acc : List Byte × Nat × Nat × Nat) r =>
      let row := (f.drop (r * 4080)).take 4080
      let ws := (fecWords row).map (fun w => (w, rsDecode w))
      let out := fecRow (ws.map (fun e => match e.2 with
        | some c => if correct then c.1 else e.1
        | none => e.1))
      let fixed := ws.foldl (fun n e => match e.2 with
        | some c => n + c.2
        | none => n) 0
      let bad := (ws.filter (fun e => e.2.isNone)).length
      (acc.1 ++ out, acc.2.1 + fixed, acc.2.2.1 + bad, acc.2.2.2 + 16)) ([], 0, 0, 0)

/-- A justification decision of R196 by 2-of-3 majority of JC bits 7 and 8: whether it is other than 0b00. -/
def justified (j : List Byte) : Bool :=
  let maj := fun i => (j.filter (fun b => b.getLsbD i)).length ≥ 2
  maj 0 || maj 1

/-- PT_MISMATCH by the comparison in force (R197). -/
def Dev.comparePt (d : Dev) (p : Nat) : Dev :=
  let k := keyAt O.OPU_STATUS p
  let expect := if d.genBit (keyAt O.OPU_CTRL p) 0 then 3 else 2
  d.putFlag k 0 (d.genBit (keyAt O.OPU_CTRL p) 1 && (d.secRx p).ptGot && d.fld k 8 8 != expect)

/-- The payload type of a multiframe (R197): accepted after three equal ones. -/
def Dev.payloadType (d : Dev) (p v : Nat) : Dev :=
  let x := d.secRx p
  let r := runStep x.pt v
  let d1 := d.onSecRx p (fun s => { s with pt := (r.1, min r.2 3) })
  if r.2 < 3 then d1
  else
    let k := keyAt O.OPU_STATUS p
    let d2 := d1.when (d1.fld k 8 8 != v) (fun y => y.set1 k 1)
    ((d2.putFld k 8 8 v).onSecRx p (fun s => { s with ptGot := true })).comparePt p

/-! ### The demapped client stream (R196, R198) -/

/-- Bytes that start `r` bits into the first. -/
def shiftBits (r : Nat) : List Byte → List Byte
  | a :: b :: t => (a <<< r ||| b >>> (8 - r)) :: shiftBits r (b :: t)
  | [a] => [a <<< r]
  | [] => []

/-- Bytes leave the head of the demapped stream. -/
def SecRx.opuDrop (x : SecRx) (period n : Nat) : SecRx := { x with opu := x.opu.drop n, opuAt := (x.opuAt + 8 * n) % period }

/-- Demapped bytes join the stream; what is older than two client frames gives way. -/
def Dev.opuJoin (d : Dev) (p : Nat) (l : List Byte) : Dev :=
  let len := 9 * sdhCols (stmN (d.portTy p))
  d.onSecRx p (fun x =>
    let y := { x with opu := x.opu ++ l }
    y.opuDrop (8 * len) (y.opu.length - 2 * len))

/-- The client frame at the phase of the demapper's search, in frame or of reference; none before all of it has come. -/
def Dev.clientFrame (d : Dev) (p : Nat) : Option (List Byte × Dev) :=
  let n := stmN (d.portTy p)
  let len := 9 * sdhCols n
  let period := 8 * len
  let z := d.syz (64 + p)
  let x := d.secRx p
  let start := (z.phase.getD z.pref + period - 24 * (n - 1)) % period
  let skip := (start + period - x.opuAt) % period
  let rest := x.opu.drop (skip / 8)
  let f := if skip % 8 == 0 then rest else shiftBits (skip % 8) rest
  if rest.length < len + ofBit (skip % 8 != 0) then none
  else some (f.take len, d.onSecRx p (fun y => y.opuDrop period (skip / 8 + len)))

/-- One OTU frame, as received: descrambling, GFEC, multiframe, SM, PM and OPU overhead, and the client's bytes. -/
def otuReceive (d0 : Dev) (p : Nat) (raw : List Byte) : Dev :=
  let ctl := d0.genA (keyAt O.OTN_CTRL p)
  let (f, fixed, bad, words) := fecReceive (bit ctl 1) (bit ctl 2) (otuScramble (fitBytes 16320 raw))
  let d := d0.when (d0.runs gMapping) (fun y => y.opuJoin p (opuTake (d0.portTy p == 6) f))
  let at_ := byteAt f 4080
  let mfas := (at_ 1 7).toNat
  let x := d.secRx p
  let bip := bip8 (opuk f)
  let sm3 := at_ 1 10
  let pm3 := at_ 3 12
  let iae := sm3.getLsbD 2
  let odu := d.oduDown p
  let errs := fun (l : List Byte) (b : Byte) => match l[1]? with
    | some e => ones (e ^^^ b)
    | none => 0
  let base := { x with smB := (bip :: x.smB).take 2, pmB := (bip :: x.pmB).take 2 }
  if d.soHold p then
    (d.onSecRx p (fun _ => { base with recs := x.recs ++ [.gap], smBei := some 0, pmBei := some 0, iae := false })).mfasSeen p mfas (d.frameMarked p)
  else
    let sm := if iae then 0 else errs x.smB (at_ 1 9)
    let pm := if odu then 0 else errs x.pmB (at_ 3 11)
    let r : OtnRec := {
      sm := sm, pm := pm, smByte := sm3, pmByte := pm3, smTti := at_ 1 8, pmTti := at_ 3 10, mfas := mfas, odu := odu
      fixed := fixed, bad := bad, words := words }
    let d1 := (d.onSecRx p (fun _ => { base with
      recs := x.recs ++ [.otn r], smBei := some sm, pmBei := some pm, iae := iae
      smBdi := integrate x.smBdi (sm3.getLsbD 3) 5, pmBdi := integrate x.pmBdi (pm3.getLsbD 3) 5 })).mfasSeen p mfas false
    if !d.runs gMapping then d1
    else
      let d2 := d1.when (justified [at_ 1 16, at_ 2 16, at_ 3 16]) (fun y => y.set1 (keyAt O.OPU_STATUS p) 2)
      if mfas == 0 then d2.payloadType p (at_ 4 15).toNat else d2

/-- The frame that a lock at another phase cut has passed (R137). -/
def Dev.cutPassed (d : Dev) (k : Nat) : Dev := d.onAlign (fun a => { a with cut := a.cut.filter (· != k) })

/-- One received frame (R14). A line frame is the bytes at a port's receive pins; a bonded port's are those of its four lanes in order,
with the lanes' measured skews (R109); a lane without an enabled port feeds its PRBS checker (R127). A client frame comes from the
demapped stream of an OTU port, and waits until all of it is there; one marked OOF does not (R198). -/
def lineReceive (d : Dev) (p : Nat) (signal : RxSignal) : Dev :=
  let otu := isOtu (d.portTy p)
  match signal with
  | .line raw skews =>
    if !laneOn d.active p then d.prbsCheck p (d.polarity p 0 raw)
    else if !d.secRuns p then d
    else
      let x := if bonded d.active (p / 4) then d.otlReceive (p / 4) raw skews else (d, d.polarity p 0 raw)
      (if otu then otuReceive x.1 p x.2 else sdhReceive x.1 p x.2).cutPassed p
  | .client =>
    if !d.secRuns p || !otu then d
    else match d.clientFrame p with
      | some (f, x) => (sdhReceive x p f).cutPassed (64 + p)
      | none => if d.clientMarked p then (sdhReceive d p []).cutPassed (64 + p) else d

def execLineReceiveFrame (p : Fin 64) (signal : RxSignal) (s : State) : Host.Outcome State Fault Refusal :=
  done s (lineReceive s.dev p.val signal)

/-! ## The section visit: accepting, comparing, counting (R156 to R159, R167 to R171) -/

/-- J0_MODE in force. -/
def Dev.j0Mode (d : Dev) (p : Nat) : Nat := d.genFld (keyAt O.SO_CTRL p) 0 2

/-- The J0 comparison (R159). -/
def Dev.compareJ0 (d : Dev) (p : Nat) : Dev :=
  d.putFlag (keyAt O.SO_STATUS p) 0 (traceDiffers (d.genBit (keyAt O.SO_CTRL p) 2) (d.secRx p).j0 (d.j0Mode p)
    (d.rdStr (keyAt O.J0_ACCEPTED p)) (d.genStr (keyAt O.J0_EXPECTED p)))

/-- The bytes that a TTI comparison selects (R168). -/
def ttiSelected (sel : Nat) (l : List Byte) : List Byte :=
  (if bit sel 0 then l.take 16 else []) ++ (if bit sel 1 then (l.drop 16).take 16 else [])

/-- The TTI comparisons of a port (R168). -/
def Dev.compareTti (d : Dev) (p : Nat) : Dev :=
  let ctl := d.genA (keyAt O.OTN_CTRL p)
  let differs := fun (sel : Nat) (t : TraceRx) (acc exp : ObjId) =>
    t.got && ttiSelected sel (d.rdStr (keyAt acc p)) != ttiSelected sel (d.genStr (keyAt exp p))
  (d.putFlag (keyAt O.OTN_STATUS p) 0 (differs (bits ctl 4 2) (d.secRx p).smT O.SM_TTI_ACCEPTED O.SM_TTI_EXPECTED)).putFlag
    (keyAt O.OTN_STATUS p) 1 (differs (bits ctl 6 2) (d.secRx p).pmT O.PM_TTI_ACCEPTED O.PM_TTI_EXPECTED)

/-- An accepted string replaces the held one, with its CHANGED event. -/
def Dev.acceptStr (d : Dev) (k status : Key) (ev : Nat) (v : Option (List Byte)) : Dev :=
  match v with
  | none => d
  | some l => (d.when (d.rdStr k != l) (fun x => x.set1 status ev)).wrStr k l

/-- An accepted value replaces the held one, with its CHANGED event. -/
def Dev.acceptVal (d : Dev) (k status : Key) (ev : Nat) (v : Nat) : Dev :=
  (d.when (d.rd k != v) (fun x => x.set1 status ev)).wr k v

/-- The BIP that a port's SD and SF use (Table DF-6): 0 B2, 1 SM, 2 PM. -/
def Dev.berSource (d : Dev) (p : Nat) : Nat :=
  if isOtu (d.portTy p) then d.genFld (keyCtx O.DEFECT_CTRL (portAddr p)) 6 2 else 0

/-! ### Error-rate blocks (R223) -/

/-- The rate in kb/s of a port type or path type for E (Tables PV-5, PV-6; 39,813,120 for an STM-256). -/
def portRate (t : Nat) : Nat := if t == 6 then 39813120 else if t == 5 then 9953280 else 155520 * stmN t
def pathRate (pt : Nat) : Nat :=
  if pt == 1 then 150336 else if pt == 2 then 601344 else if pt == 3 then 2405376 else if pt == 4 then 9621504
  else if pt == 7 then 2240 else if pt == 8 then 1664 else if pt == 0 then 0 else 48960

/-- b, the block length in periods. -/
def blockLength (rate : Nat) (multi : Bool) (n : Nat) : Nat :=
  let e := if multi then 4 * rate else rate
  (10 ^ (n + 1) + e - 1) / e

/-- The thresholds of a context in a bank: SD_THRESH or SF_THRESH. -/
def threshOf (b : Bank) (a : Nat) (sf : Bool) : Nat := bits (bankRd b (keyCtx O.DEFECT_CTRL a)) (if sf then 12 else 8) 4

/-- The block length of SD or SF of a port or context in force; 0 while its threshold is off. On an OTU port E is that of the client. -/
def Dev.berLen (d : Dev) (a : Nat) (sf : Bool) : Nat :=
  let n := threshOf d.active a sf
  if n == 0 then 0
  else if adLevel a == 3 then blockLength (portRate (d.portTy (adPort a))) false n
  else
    let pt := d.genA (keyCtx O.PATH_TYPE a)
    blockLength (pathRate pt) (isTu1 pt) n

/-- One period that is not held, with its errors, joins the block in progress; one of `len` periods is complete. -/
def Ber.period (len errs : Nat) (b : Ber) : Ber :=
  let e := b.errs + errs
  if len == 0 then b
  else if b.periods + 1 < len then { b with errs := e, periods := b.periods + 1 }
  else { b with errs := 0, periods := 0, full := b.full ++ [e] }

/-- A period that is not held passes for SD and SF. -/
def Dev.berPeriod (d : Dev) (a errs : Nat) : Dev :=
  let b := smLook ({}, {}) d.ber a
  { d with ber := smPut ({}, {}) d.ber a (b.1.period (d.berLen a false) errs, b.2.period (d.berLen a true) errs) }

/-- One RS/MS frame's results at the visit. -/
def sdhVisit (p : Nat) (d : Dev) (r : SdhRec) : Dev :=
  let st := keyAt O.SO_STATUS p
  let x := d.secRx p
  let d0 := d.when (d.berSource p == 0) (fun y => y.berPeriod (portAddr p) r.b2)
  let d1 := ((d0.count (keyAt O.B1_ERRORS p) r.b1).count (keyAt O.B2_ERRORS p) r.b2).count (keyAt O.REI_MS p) r.rei
  let (t, acc, crcBad) := traceByte (d.j0Mode p) x.j0 r.j0
  let d2 := ((d1.onSecRx p (fun s => { s with j0 := t })).acceptStr (keyAt O.J0_ACCEPTED p) st 2 acc).when crcBad
    (fun y => y.set1 st 1)
  if r.ms then d2
  else
    let kr := runStep x.k r.k
    let sr := runStep x.s1 r.s1
    let d3 := d2.onSecRx p (fun s => { s with k := kr, s1 := sr })
    let d4 := d3.when (kr.2 ≥ d.genFld (keyAt O.SO_CTRL p) 16 4) (fun y => y.acceptVal (keyAt O.K1K2_ACCEPTED p) st 3 r.k)
    d4.when (sr.2 ≥ d.genFld (keyAt O.SO_CTRL p) 20 4) (fun y => y.acceptVal (keyAt O.S1_ACCEPTED p) st 4 r.s1)

/-- One byte of a TTI at its place of the 64-frame trace; whole traces of 64 bytes count, and one that a jump of MFAS breaks ends the
run (R168). -/
def ttiByte (t : TraceRx) (mfas : Nat) (b : Byte) : TraceRx × Option (List Byte) :=
  let m := mfas % 64
  let ok := t.buf.length == m
  let x := if ok then t else t.broken
  let buf := if ok then t.buf ++ [b] else if m == 0 then [b] else []
  if buf.length == 64 then traceDone { x with buf := [] } buf else ({ x with buf := buf }, none)

/-- The traces in reception end, with their runs, at a held frame (R159, R168). -/
def SecRx.heldTraces (x : SecRx) : SecRx :=
  let cut := fun (t : TraceRx) => { t.broken with buf := [] }
  { x with j0 := cut x.j0, smT := cut x.smT, pmT := cut x.pmT }

/-- A BEI nibble: 0 to 8 count (Table SO-6). -/
def beiCount (v : Nat) : Nat := if v ≤ 8 then v else 0

/-- One OTU frame's results at the visit. -/
def otnVisit (p : Nat) (d : Dev) (r : OtnRec) : Dev :=
  let st := keyAt O.OTN_STATUS p
  let x := d.secRx p
  let sm := r.smByte.toNat
  let pm := r.pmByte.toNat
  let src := d.berSource p
  let d0 := d.when (src != 0) (fun y => y.berAdd (portAddr p) (if src == 1 then r.sm else r.pm))
  let d1 := (((d0.count (keyAt O.SM_BIP_ERRORS p) r.sm).count (keyAt O.PM_BIP_ERRORS p) r.pm).count (keyAt O.SM_BEI p)
    (beiCount (sm / 16))).count (keyAt O.PM_BEI p) (if r.odu then 0 else beiCount (pm / 16))
  let d2 := ((d1.count (keyAt O.FEC_CORRECTED_BITS p) r.fixed).count (keyAt O.FEC_UNCORRECTABLE p) r.bad).count
    (keyAt O.FEC_CODEWORDS p) r.words
  let d3 := ((d2.when (r.bad != 0) (fun y => y.set1 st 15)).putFlag st 11 (bit sm 2)).putFlag st 12 (sm / 16 == 11)
  let d4 := (d3.putFlag st 13 (bit sm 3)).putFlag st 14 (bit pm 3)
  let (ts, accS) := ttiByte x.smT r.mfas r.smTti
  let (tp, accP) := if r.odu then ({ x.pmT.broken with buf := [] }, none) else ttiByte x.pmT r.mfas r.pmTti
  let sr := runStep x.stat (pm % 8)
  let d5 := (d4.onSecRx p (fun s => { s with smT := ts, pmT := tp, stat := sr })).acceptStr (keyAt O.SM_TTI_ACCEPTED p) st 2 accS
  let d6 := d5.acceptStr (keyAt O.PM_TTI_ACCEPTED p) st 3 accP
  if sr.2 ≥ 3 then (d6.when (d6.fld st 8 3 != pm % 8) (fun y => y.set1 st 4)).putFld st 8 3 (pm % 8) else d6

/-- One frame's results at the visit. -/
def recVisit (p : Nat) (d : Dev) : RxRec → Dev
  | .sdh r => sdhVisit p d r
  | .otn r => otnVisit p d r
  | .gap => d.onSecRx p SecRx.heldTraces
  | .dccLost n => (d.count (keyAt O.DCC_RX_DROPPED p) n).set1 (keyAt O.SO_STATUS p) 5

/-- The section's part of a port's visit (R16): everything received since the last one is accepted, compared and
counted. Blocks on SM or PM BIP advance one period of 125 µs with a visit that OTU frames fed (R223, log entry 148). -/
def Dev.sectionWork (d : Dev) (p : Nat) : Dev :=
  if !d.secRuns p then d
  else
    let l := (d.secRx p).recs
    let otn := l.any (fun r => match r with
      | .otn _ => true
      | _ => false)
    let d0 := (l.foldl (recVisit p) d).onSecRx p (fun s => { s with recs := [] })
    let d1 := d0.when (otn && d.berSource p != 0) (fun y => y.berPeriod (portAddr p) 0)
    let d2 := d1.compareJ0 p
    if isOtu (d.portTy p) then d2.compareTti p else d2

/-- The section processor's receive side starts: nothing accepted, every run at 0 (R472); the demapped stream goes on. -/
def Dev.sectionStart (d : Dev) (p : Nat) : Dev :=
  let o := keyAt O.OPU_STATUS p
  let d1 := ((d.wr o (d.rd o &&& 0xFE)).onSecRx p (fun x => { opu := x.opu, opuAt := x.opuAt })).wrStr (keyAt O.J0_ACCEPTED p) (List.replicate 64 0)
  let d2 := ((d1.wr (keyAt O.S1_ACCEPTED p) 0).wr (keyAt O.K1K2_ACCEPTED p) 0).putFlag (keyAt O.SO_STATUS p) 0 false
  let d3 := (d2.wrStr (keyAt O.SM_TTI_ACCEPTED p) (List.replicate 64 0)).wrStr (keyAt O.PM_TTI_ACCEPTED p) (List.replicate 64 0)
  d3.wr (keyAt O.OTN_STATUS p) (d3.rd (keyAt O.OTN_STATUS p) &&& 0x801C)

end Sys2Proof.Machine
end

