-- ==== Sys2Proof/Machine/SectionTx.lean ====
section
/-!
DEFINITION. Section overhead and the OTN line layer, transmit side: overhead, overrides, parities, inversions, GFEC,
scrambling (R152 to R173), and the writes of transmitted bits that both units of a pair apply together (R173).
-/
namespace Sys2Proof.Machine

/-! ## Signatures (R328) -/

/-- Bytes sent by a source enter its running CRC-32C; a set bit 32 marks a source that has sent something. -/
def Dev.signBytes (d : Dev) (src : Nat) (l : List Byte) : Dev :=
  if l.isEmpty then d
  else
    let v := (smLook 0 d.pair.sigs src).toNat
    let run := if v == 0 then 0xFFFFFFFF else v % 2 ^ 32
    d.onPair (fun p => { p with sigs := smPut 0 p.sigs src (BitVec.ofNat 64 (2 ^ 32 + crcFeed 0 run l)) })

/-- The signatures of a frame are complete: the values are kept for the comparison, and running values start again. -/
def Dev.latchSignatures (d : Dev) (frame : Nat) : Dev :=
  d.onPair (fun p =>
    let vals : SMap Word := p.sigs.map (fun e => (e.1, BitVec.ofNat 64 ((e.2.toNat % 2 ^ 32) ^^^ 0xFFFFFFFF)))
    { p with sigs := [], sigHist := ((frame, vals) :: p.sigHist).take 4 })

/-! ## Writes that both units apply (R173) -/

/-- The mate is a Shadow in READY with the link up. -/
def Dev.shadowReady (d : Dev) : Bool := d.flag O.PAIR_STATUS 10 && d.fld O.MATE_STATUS 0 4 == 6

/-- A write of transmitted bits (R173): refused in Shadow; in Service with a READY Shadow it goes over the mate link and
both apply it at the boundary that it names, two frames on; otherwise it executes at once. `check` is the object's range check. -/
def Dev.writeTogether (d : Dev) (w : PairedWrite) (check : Nat) (apply : Dev → Dev) : Dev × Nat :=
  if d.inShadow then (d, abRefused)
  else if check != 0 then (d, check)
  else if d.inService && d.paired && d.shadowReady then
    let b := (d.rd O.PAIR_FRAME + 2) % 2 ^ 32
    ({ d.sendMate (.pairedWrite w.idx w.sub w.addr w.data b) with pairWait := d.pairWait ++ [{ w with at_ := b }] }, 0)
  else (apply d, 0)

/-- A write that succeeds and changes a `rsvd` field of the mask is marked (R47). -/
def rsvdCheck (old v mask : Nat) (r : Dev × Nat) : Dev × Nat :=
  if r.2 == 0 then ({ r.1 with undoc := r.1.undoc || (old ^^^ v) &&& mask != 0 }, 0) else r

/-- SO_TEST takes a value: `trg` bits that still wait stay set (R172, Table DI-3). -/
def soTestApply (p v : Nat) (d : Dev) : Dev :=
  let k := keyAt O.SO_TEST p
  d.wr k (v ||| (d.rd k &&& 0xF0))

/-- The range check of SO_TEST (Table SO-12). -/
def soTestCheck (v : Nat) : Nat := if bits v 16 4 > 9 then abRange else 0

/-- A write of SO_TEST (R172, R173). -/
def soTestWrite (p v : Nat) (d : Dev) : Dev × Nat :=
  rsvdCheck (d.rd (keyAt O.SO_TEST p)) v 0xFFF00000
    (d.writeTogether { idx := 0x28C0 + p, sub := 8, addr := 0, data := bytesLE 4 v } (soTestCheck v) (soTestApply p v))

/-- A write that fires one `trg` bit of SO_TEST, every other field as it is. -/
def oneShot (p i : Nat) (d : Dev) : Dev × Nat :=
  if !d.gateOn gSection || d.bondedIndex (0x28C0 + p) then (d, 0)
  else soTestWrite p ((d.rd (keyAt O.SO_TEST p) &&& 0xFFFFFF0F) + 2 ^ i) d

/-- A row that fires one `trg` bit of SO_TEST. -/
def hostShot (s : State) (m : Master) (p i : Nat) : Host.Outcome State Fault Refusal :=
  hostNum s m (keyAt O.SO_TEST p) ((s.dev.rd (keyAt O.SO_TEST p) &&& 0xFFFFFF0F) + 2 ^ i) (oneShot p i)

def execOneB1 (m : Master) (p : Fin 64) (s : State) : Host.Outcome State Fault Refusal :=
  hostShot s m p.val 4
def execOneB2 (m : Master) (p : Fin 64) (s : State) : Host.Outcome State Fault Refusal :=
  hostShot s m p.val 5
def execOneSmBip (m : Master) (p : Fin 64) (s : State) : Host.Outcome State Fault Refusal :=
  hostShot s m p.val 6
def execOnePmBip (m : Master) (p : Fin 64) (s : State) : Host.Outcome State Fault Refusal :=
  hostShot s m p.val 7

/-- Bytes join a channel's transmit queue (R164). -/
def dccTxApply (p : Nat) (multiplex : Bool) (data : List Byte) (d : Dev) : Dev :=
  if d.dccOn p multiplex then
    let q := d.dccQueue p multiplex
    d.putDccTx q ((d.dccTx q ++ data).take 4096)
  else d

/-- A write of DCC_TX_R or DCC_TX_M (R164, R173). -/
def dccTxWrite (p : Nat) (multiplex : Bool) (data : List Byte) (d : Dev) : Dev × Nat :=
  let n := data.length
  let check := if n == 0 || n > 4096 || n > d.dccFree p multiplex then abLength else 0
  d.writeTogether { idx := 0x28C0 + p, sub := if multiplex then 0xC else 0xB, addr := 0, data := data } check
    (dccTxApply p multiplex data)

def execDccTxWrite (m : Master) (p : Fin 64) (multiplex : Bool) (data : List Byte) (s : State) :
    Host.Outcome State Fault Refusal :=
  let k := keyAt (if multiplex then O.DCC_TX_M else O.DCC_TX_R) p.val
  hostWrite s m (Key.idx k) (Key.sub k) data (fun d =>
    if !d.gateOn gSection || d.bondedIndex (0x28C0 + p.val) then (d, 0) else dccTxWrite p.val multiplex data d)

/-! ## STM-N transmit frames -/

/-- The MSP group that a port belongs to, named by its working port (R255). -/
def groupOf (b : Bank) (p : Nat) : Option Nat :=
  (List.range 64).find? (fun w => bit (bankRd b (keyAt O.MSP_CTRL w)) 31
    && (w == p || bankRd b (keyAt O.PROTECTION_PORT w) == p))

/-- The upstream indications of a port that are in force (Table DF-8, R16). -/
def Dev.portAction (d : Dev) (p : Nat) : Nat := d.act (portAddr p)

/-- The top of the range of Table SO-4. -/
def reiTop (n mode : Nat) : Nat :=
  if n == 1 then 24 else if n == 4 then 96 else if n == 16 then 255
  else if n == 64 then (if mode == 1 then 1536 else 255) else 6144

/-- K1 and K2 as sent before MS-AIS (Table SO-3, R172 steps 1 and 2; log entry 20 where both overrides are set). -/
def Dev.kBytes (d : Dev) (p : Nat) : Nat :=
  let test := d.rd (keyAt O.SO_TEST p)
  let group := match groupOf d.active p with
    | some w => d.rd (keyAt O.K_TX w)
    | none => 0
  let normal := if bit (d.portAction p) 3 then putBits group 0 3 6 else group
  let forced := if bit test 10 then d.rd (keyAt O.K1K2_FORCE_VALUE p) else normal
  if bit test 9 then putBits forced 0 3 6 else forced

/-- M0 and M1 as one number, as sent (R155, R172). -/
def Dev.m1Value (d : Dev) (p n : Nat) : Nat :=
  let top := reiTop n (d.reiMode p)
  let v := if bit (d.rd (keyAt O.SO_TEST p)) 11 then d.rd (keyAt O.M1_FORCE_VALUE p) else (d.secRx p).rei.getD 0
  min v top

/-- One STM-N transmit frame before scrambling: section overhead by Table SO-3 around the pointer row and payload that
the pointer processor supplies, row by row. -/
def sdhFrame (d : Dev) (p n : Nat) (j0 b1 : Byte) (b2 dccR dccM payload : List Byte) : List Byte :=
  let test := d.rd (keyAt O.SO_TEST p)
  let k := d.kBytes p
  let m := d.m1Value p n
  let ais := bit test 8
  let wide := n == 256 || (n == 64 && d.reiMode p == 1)
  let inv := fun (i j : Nat) (b : Byte) => if bit test i || bit test j then ~~~b else b
  let soh := fun (r c : Nat) =>
    if r == 1 then (if c ≤ 3 * n then 0xF6 else if c ≤ 6 * n then 0x28 else if c == 6 * n + 1 then j0 else 0xAA)
    else if r == 2 then (if c == 1 then inv 0 4 b1 else 0)
    else if r == 3 then
      (if c == 1 then dccR.getD 0 0 else if c == 3 * n + 1 then dccR.getD 1 0 else if c == 6 * n + 1 then dccR.getD 2 0 else 0)
    else if r == 5 && c ≤ 3 * n then inv 1 5 (if ais then 0xFF else b2.getD (c - 1) 0)
    else if ais then 0xFF
    else if r == 5 then (if c == 3 * n + 1 then BitVec.ofNat 8 (k / 256) else if c == 6 * n + 1 then BitVec.ofNat 8 k else 0)
    else if 6 ≤ r && r ≤ 8 then
      (if c == 1 then dccM.getD ((r - 6) * 3) 0 else if c == 3 * n + 1 then dccM.getD ((r - 6) * 3 + 1) 0
       else if c == 6 * n + 1 then dccM.getD ((r - 6) * 3 + 2) 0 else 0)
    else if r == 9 then
      (if c == 1 then BitVec.ofNat 8 (d.rd (keyAt O.S1_TX p) % 16)
       else if c == 3 * n + 2 && wide then BitVec.ofNat 8 (m / 256)
       else if c == 3 * n + 3 then BitVec.ofNat 8 m else 0)
    else 0
  (List.range 9).flatMap (fun i =>
    let r := i + 1
    let off := 261 * n * i + (if r > 4 then 9 * n else 0)
    let pay := fun (len : Nat) => if ais then List.replicate len 0xFF else fitBytes len (payload.drop off)
    if r == 4 then pay (270 * n) else (List.range (9 * n)).map (fun c => soh r (c + 1)) ++ pay (261 * n))

/-- One STM-N frame leaves: the line frame of an SDH port, or the client frame of an OTU port (R172). -/
def sdhTransmit (d : Dev) (p : Nat) (payload : List Byte) : Dev × List Byte :=
  let n := stmN (d.portTy p)
  let x := d.secTx p
  let (t, j0) := traceSend (d.j0Mode p) (d.genStr (keyAt O.J0_TX p)) x.j0
  let (d1, dccR) := d.dccSend p false 3
  let (d2, dccM) := d1.dccSend p true 9
  let f := sdhFrame d2 p n j0 (x.b1.getD 0) (x.b2.getD []) dccR dccM payload
  let sent := sdhScramble n f
  let d3 := (d2.onSecTx p (fun _ => { x with b1 := some (bip8 sent), b2 := some (b2Of n f), j0 := t })).onSecRx p
    (fun s => { s with rei := none })
  let k := keyAt O.SO_TEST p
  let done := if isOtu (d.portTy p) then 0xFFFFFFCF else 0xFFFFFF0F
  (d3.wr k (d3.rd k &&& done), sent)

/-! ## OTU transmit frames -/

/-- The ODUk of a frame replaced by a maintenance signal (R169): 1 ODU-AIS, 2 ODU-OCI, 3 ODU-LCK. -/
def oduByte (force : Nat) (b : Byte) : Byte := if force == 1 then 0xFF else if force == 2 then 0x66 else if force == 3 then 0x55 else b

/-- One OTU transmit frame up to GFEC: columns 1 to 3824 of each row (Table SO-6, R169, R172). -/
def otuRows (d : Dev) (p mfas : Nat) (smTti pmTti smBip pmBip : Byte) (payload : List Byte) : List (List Byte) :=
  let test := d.rd (keyAt O.SO_TEST p)
  let x := d.secRx p
  let act := d.portAction p
  let force := bits test 14 2
  let inv := fun (i j : Nat) (b : Byte) => if bit test i || bit test j then ~~~b else b
  let bei := fun (c : Option Nat) => c.getD 0
  let sm3 := (if x.iae then 11 else bei x.smBei) * 16 + 8 * ofBit (bit act 2 || bit test 12)
  let pm3 := bei x.pmBei * 16 + 8 * ofBit (bit act 1 || bit test 13)
    + (if force == 2 then 6 else if force == 3 then 5 else 1)
  let pt : Byte := if mfas == 0 then (if d.genBit (keyAt O.OPU_CTRL p) 0 then 3 else 2) else 0
  (List.range 4).map (fun r =>
    let oh := (List.range 16).map (fun i =>
      let c := i + 1
      let pmBytes := r == 2 && 10 ≤ c && c ≤ 12
      let base : Byte :=
        if r == 0 then
          (if c ≤ 3 then 0xF6 else if c ≤ 6 then 0x28 else if c == 7 then BitVec.ofNat 8 mfas
           else if c == 8 then smTti else if c == 9 then inv 2 6 smBip else if c == 10 then BitVec.ofNat 8 sm3 else 0)
        else if r == 2 then (if c == 10 then pmTti else if c == 11 then inv 3 7 pmBip else if c == 12 then BitVec.ofNat 8 pm3 else 0)
        else if r == 3 && c == 15 then pt else 0
      if r == 0 && c ≤ 14 then base
      else if force == 1 && pmBytes && c == 11 then inv 3 7 0xFF
      else if pmBytes && force != 1 then base
      else oduByte force base)
    oh ++ (fitBytes 3808 (payload.drop (3808 * r))).map (oduByte force))

/-- A row with its GFEC parity, and FEC_INJECT errors in row 1 (R170, R172 step 6). -/
def fecTransmit (on : Bool) (inject : Nat) (row : List Byte) : List Byte :=
  let ws := (List.range 16).map (fun k => (List.range 239).map (fun i => (row.getD (16 * i + k) 0).toNat))
  let full := ws.map (fun w => w ++ (if on then rsParity w else List.replicate 16 0))
  let hit := fun (i : Nat) => (i + 255 - Config.injectAt inject % 255) % 255 < inject
  fecRow (full.map (fun w => (List.range 255).map (fun i => if hit i then w.getD i 0 ^^^ 0x80 else w.getD i 0)))

/-- One OTU frame leaves (R172). -/
def otuTransmit (d : Dev) (p : Nat) (payload : List Byte) : Dev × List Byte :=
  let x := d.secTx p
  let k := keyAt O.SO_TEST p
  let start := x.mfas % 64 == 0
  let smT := if start || x.smT.isEmpty then d.genStr (keyAt O.SM_TTI_TX p) else x.smT
  let pmT := if start || x.pmT.isEmpty then d.genStr (keyAt O.PM_TTI_TX p) else x.pmT
  let rows := otuRows d p x.mfas (smT.getD (x.mfas % 64) 0) (pmT.getD (x.mfas % 64) 0) (x.smB.getD 1 0) (x.pmB.getD 1 0) payload
  let inject := d.fld k 16 4
  let on := d.genBit (keyAt O.OTN_CTRL p) 0
  let coded := (List.range 4).flatMap (fun r => fecTransmit on (if r == 0 then inject else 0) (rows.getD r []))
  let bip := bip8 (rows.flatMap (fun r => r.drop 14))
  let d1 := d.onSecTx p (fun _ => { x with
    smB := (bip :: x.smB).take 2, pmB := (bip :: x.pmB).take 2, smT := smT, pmT := pmT, mfas := (x.mfas + 1) % 256 })
  let d2 := d1.onSecRx p (fun s => { s with smBei := none, pmBei := none })
  (d2.wr k (d2.rd k &&& 0xFFFFFF3F), otuScramble coded)

end Sys2Proof.Machine
end

