-- ==== Sys2Proof/Machine/Paths.lean ====
section
/-!
DEFINITION. Paths and the mapping switch: contexts and their ports (R7), mapping entries (R192), selection and bridging (R256,
R257), the mode of path overhead (Table PO-1), consequent actions in force (R16), and the delivery of received containers
(Table MP-9).
-/
namespace Sys2Proof.Machine

/-! ## Contexts -/

/-- The port whose pipelines carry a context: port 4q for the client of a bonded port (R7). -/
def Dev.ctxPort (d : Dev) (a : Nat) : Nat := lanePort d.active (adPort a)

/-- The number, from 0, of a context's first AU-4 in its port's STM-N (R7). -/
def Dev.auIndex (d : Dev) (a : Nat) : Nat := (adPort a - d.ctxPort a) * 64 + adAu4 a

/-- PATH_TYPE in force (Table MP-1). -/
def Dev.pathType (d : Dev) (a : Nat) : Nat := d.genA (keyCtx O.PATH_TYPE a)

/-- Whether a context has a record in force: levels 1 and 2 provisioned in the active generation, level 3 an enabled
port. -/
def Dev.hasRecord (d : Dev) (a : Nat) : Bool :=
  if adLevel a == 3 then addrValid a && portOn d.active (adPort a) && lanePort d.active (adPort a) == adPort a
  else provisioned d.active a

/-- The contexts in force, by address. -/
def Dev.contexts (d : Dev) : List Nat := d.active.numbers.map (·.1)

/-- Whether a level-2 context has level-1 contexts under it in a bank. -/
def structured (b : Bank) (a : Nat) : Bool :=
  adLevel a == 2 && b.numbers.any (fun e => adLevel e.1 == 1 && parentOf b e.1 == a)

/-- PORT_STANDARD 1 (R107, R181). -/
def Dev.sonet (d : Dev) (p : Nat) : Bool := d.genA (keyAt O.PORT_STANDARD p) == 1

/-! ## Mapping entries (Tables MP-8, MP-9) -/

/-- A context's mapping entry in force. -/
def Dev.mapEntry (d : Dev) (a : Nat) : Nat := d.genA (keyCtx O.MAP_ENTRY a)

/-- KIND, UNIT and TARGET of an entry (Table MP-8). -/
def entryKind (e : Nat) : Nat := bits e 62 2
def entryUnit (e : Nat) : Nat := bits e 32 5
def entryTarget (e : Nat) : Nat := bits e 0 32

/-- The contexts whose KIND 3 entry names a context. -/
def Dev.namedBy (d : Dev) (a : Nat) : List Nat :=
  d.contexts.filter (fun c => entryKind (d.mapEntry c) == 3 && entryTarget (d.mapEntry c) == a)

/-! ## Selection (R256, R257) -/

/-- SELECTED of the selector of a working member, and of the group of a working port. -/
def Dev.sncpSelected (d : Dev) (w : Nat) : Bool := d.flag (keyCtx O.SNCP_STATUS w) 0
def Dev.mspSelected (d : Dev) (w : Nat) : Bool := d.flag (keyAt O.MSP_STATUS w) 0

/-- The same AU-4, K, L and M on another port. -/
def movePort (a p : Nat) : Nat := putBits a 23 6 p

/-- The same position on another port of a group; on a bonded port PORT keeps its place in the quad (R7, R255). -/
def Dev.placeOn (d : Dev) (a p : Nat) : Nat := movePort a (p + (adPort a - d.ctxPort a))

/-- The context whose destination a received container feeds: itself, or the working context that has selected it; none
while another member is selected. -/
def Dev.servedBy (d : Dev) (a : Nat) : List Nat :=
  let sncpWork := if d.genA (keyCtx O.SNCP_PROTECTING a) != 0 && d.sncpSelected a then [] else [a]
  let sncpProt := d.contexts.filter (fun w => d.genA (keyCtx O.SNCP_PROTECTING w) == a && d.sncpSelected w)
  match groupOf d.active (d.ctxPort a) with
  | some w =>
    if w == d.ctxPort a then (if d.mspSelected w then [] else sncpWork)
    else if d.mspSelected w then [d.placeOn a w] else sncpWork
  | none => sncpWork ++ sncpProt

/-- The working member whose selector names a context as its protecting member. -/
def workingOf (b : Bank) (a : Nat) : Option Nat :=
  (b.numbers.find? (fun e => a != 0 && bankRd b (keyCtx O.SNCP_PROTECTING e.1) == a)).map (·.1)

/-- The other member of a working context: its selector's, or the same position on its group's protection port; 0 for
none (R289). -/
def Dev.partnerOf (d : Dev) (w : Nat) : Nat :=
  let p := d.genA (keyCtx O.SNCP_PROTECTING w)
  if p != 0 then (if provisioned d.active p then p else 0)
  else match groupOf d.active (d.ctxPort w) with
    | some g => if g == d.ctxPort w then d.placeOn w (d.genA (keyAt O.PROTECTION_PORT g)) else 0
    | none => 0

/-- Whether the protecting member feeds a working context's destination. -/
def Dev.onProtecting (d : Dev) (w : Nat) : Bool :=
  if d.genA (keyCtx O.SNCP_PROTECTING w) != 0 then d.sncpSelected w
  else d.partnerOf w != 0 && d.mspSelected (d.ctxPort w)

/-- The member that feeds a working context's destination. -/
def Dev.feeding (d : Dev) (w : Nat) : Nat := if d.onProtecting w then d.partnerOf w else w

/-! ## Bridging and the overhead mode (Table PO-1, R256) -/

/-- The working context of a member: of a selector, or at its position on the working port of its group; itself for any other. -/
def Dev.workingAt (d : Dev) (a : Nat) : Nat :=
  match workingOf d.active a, groupOf d.active (d.ctxPort a) with
  | some w, _ => w
  | none, some g => if g != d.ctxPort a then d.placeOn a g else a
  | none, none => a

/-- The context whose container a context transmits, overhead included: itself, its working member (Table PO-1 row 1), or the context
at its position on the working port of a group that is bridged (R256). -/
def Dev.pohMaster (d : Dev) (a : Nat) : Nat :=
  match workingOf d.active a, groupOf d.active (d.ctxPort a) with
  | some w, _ => w
  | none, some g => if g != d.ctxPort a && d.flag (keyAt O.MSP_STATUS g) 1 then d.placeOn a g else a
  | none, none => a

/-- The contexts that transmit a context's container besides it. -/
def Dev.followers (d : Dev) (m : Nat) : List Nat := d.contexts.filter (fun a => a != m && d.pohMaster a == m)

/-- Terminate mode, by rows 2 to 6 of Table PO-1, of the context whose overhead is sent. -/
def Dev.terminates (d : Dev) (a : Nat) : Bool :=
  let w := d.pohMaster a
  let k := entryKind (d.mapEntry w)
  (d.namedBy w).isEmpty && k != 1 && k != 3

/-- The contexts whose transmit side a mapping entry connects to a context: its KIND 3 partner. -/
def Dev.targets (d : Dev) (a : Nat) : List Nat :=
  let e := d.mapEntry a
  (if entryKind e == 3 then [entryTarget e] else []) ++ d.namedBy a

/-- Those, with the contexts that send the same containers (R256, R257). -/
def Dev.partners (d : Dev) (a : Nat) : List Nat := (d.targets a).flatMap (fun t => t :: d.followers t)

/-- The context whose receive side feeds a context's transmit side: its KIND 3 partner. -/
def Dev.groomedFrom (d : Dev) (a : Nat) : Option Nat :=
  let w := d.pohMaster a
  let e := d.mapEntry w
  if entryKind e == 3 then some (entryTarget e) else (d.namedBy w).head?

/-! ## Consequent actions in force (R16, R225) -/

/-- AIS_OUT of a path in force. -/
def Dev.aisOut (d : Dev) (a : Nat) : Bool := bit (d.act a) 4

/-- Whether the transmit generator of a context sends AIS: the groomed source's feeding member is in AIS_OUT (R225), or the
TFI channel is not in RUN or carries AIS (R309). -/
def Dev.txAis (d : Dev) (a : Nat) : Bool :=
  let w := d.pohMaster a
  match d.groomedFrom a with
  | some t => d.aisOut (d.feeding t)
  | none => entryKind (d.mapEntry w) == 1 && d.rd (keyCtx O.TFI_CH_STATUS w) &&& 7 != 2

/-! ## Records of the data path -/

def Dev.pathRxOf (d : Dev) (a : Nat) : PathRx := smLook {} d.pathRx a
def Dev.onPathRx (d : Dev) (a : Nat) (f : PathRx → PathRx) : Dev :=
  { d with pathRx := smPut {} d.pathRx a (f (smLook {} d.pathRx a)) }
def Dev.pathTxOf (d : Dev) (a : Nat) : PathTx := smLook {} d.pathTx a
def Dev.onPathTx (d : Dev) (a : Nat) (f : PathTx → PathTx) : Dev :=
  { d with pathTx := smPut {} d.pathTx a (f (smLook {} d.pathTx a)) }
def Dev.clientOf (d : Dev) (c : Nat) : ClientSt := smLook {} d.clients c
def Dev.onClient (d : Dev) (c : Nat) (f : ClientSt → ClientSt) : Dev :=
  { d with clients := smPut {} d.clients c (f (smLook {} d.clients c)) }
def Dev.chOf (d : Dev) (a : Nat) : TfiCh := smLook {} d.tfiCh a
def Dev.onCh (d : Dev) (a : Nat) (f : TfiCh → TfiCh) : Dev := { d with tfiCh := smPut {} d.tfiCh a (f (smLook {} d.tfiCh a)) }

/-- CLIENT_TYPE in force; whether a client port works: the client block runs and the port is enabled (R278). -/
def Dev.clientType (d : Dev) (c : Nat) : Nat := d.genFld (keyAt O.CLIENT_CTRL c) 0 4
def Dev.clientRuns (d : Dev) (c : Nat) : Bool := d.runs gClient && d.clientType c != 0

/-- The bound path of a client, 0 for none (R279). -/
def Dev.boundPath (d : Dev) (c : Nat) : Nat :=
  ((d.contexts.find? (fun a => entryKind (d.mapEntry a) == 2 && entryUnit (d.mapEntry a) == c))).getD 0

/-- Whether a client defect is raw (R281): LOS, AIS_RX, LOF, LOMF or N_MISMATCH. -/
def Dev.clientDown (d : Dev) (c : Nat) : Bool := d.fld (keyAt O.CLIENT_STATUS c) 0 5 != 0

/-! ## Delivery (Table MP-9) -/

/-- The de-jitter buffer holds at most 65,536 bits (R284); the oldest give way. -/
def ClientSt.fit (x : ClientSt) : ClientSt :=
  let excess := x.lead + x.buf.length - 65536
  let ones := min excess x.lead
  { x with lead := x.lead - ones, buf := x.buf.drop (excess - ones) }

/-- Demapped bits enter a client's de-jitter buffer (R283). -/
def Dev.clientWrite (d : Dev) (c : Nat) (l : List Bool) : Dev :=
  if d.clientRuns c then d.onClient c (fun x => { x with buf := x.buf ++ l }.fit) else d

/-- The last `n` items of a list. -/
def lastOf {α : Type} (n : Nat) (l : List α) : List α := l.drop (l.length - n)

/-- A container reaches the destination of a context: bytes toward the channel's cells, the client's buffer, the transmit side of the
partner, or nothing; a structured context's payload is carried by its level-1 contexts (R192, R193). -/
def Dev.deliverTo (d : Dev) (w : Nat) (c : List Byte) : Dev :=
  if structured d.active w then d
  else
    let e := d.mapEntry w
    let d1 :=
      if entryKind e == 1 then
        (if d.runs gTfi then d.onCh w (fun x => { x with out := x.out ++ c, pos := if x.out.isEmpty then 0 else x.pos }) else d)
      else if entryKind e == 2 then d.clientWrite (entryUnit e) (demapBits (d.pathType w) c)
      else d
    (d1.targets w).foldl (fun y t => y.onPathTx t (fun x => { x with feed := lastOf 8 (x.feed ++ [c]) })) d1

/-- A received container leaves the mapping switch: to the destination of the context that has selected it, unless its path is in
AIS_OUT (R225). -/
def Dev.deliver (d : Dev) (a : Nat) (c : List Byte) : Dev :=
  if d.aisOut a then d else (d.servedBy a).foldl (fun x w => x.deliverTo w c) d

end Sys2Proof.Machine
end

