-- ==== Sys2Proof/Machine/Pointer.lean ====
section
/-!
DEFINITION. Pointer interpretation and delimiting of received containers (R182 to R188), pointer generation (R189 to R191).
-/
namespace Sys2Proof.Machine

/-- Whether a context's pointer is interpreted: provisioned, on an enabled port, with the pointer processor running. -/
def Dev.ptrRuns (d : Dev) (a : Nat) : Bool :=
  d.runs gPointer && provisioned d.active a && portOn d.active (d.ctxPort a)

/-- The size bits that a port's standard sends (R189). -/
def sizeBits (pt : Nat) (sonet : Bool) : Nat := if pt == 8 then 3 else if pt == 7 then 2 else if sonet then 0 else 2

/-! ## Classes of Table MP-4 -/

/-- The class of a received pointer word. -/
inductive PtrClass where
  | ais | inv | ndf | norm | inc | dec | new
deriving DecidableEq, Repr

/-- The number of ones of a value below 2^16. -/
def onesOf (v : Nat) : Nat := (List.range 16).foldl (fun n i => n + ofBit (bit v i)) 0

/-- An NDF matches a code when at least 3 of its 4 bits agree (R183). -/
def ndfMatches (word code : Nat) : Bool := onesOf ((bits word 12 4) ^^^ code) ≤ 1

/-- The class of a word, the rows of Table MP-4 in order. `state` is 0 NORM, 1 AIS, 2 LOP. -/
def classify (word range : Nat) (ss : Option Nat) (state cur since : Nat) : PtrClass :=
  let off := bits word 0 10
  let diff := off ^^^ cur
  let i := onesOf (diff &&& 0x2AA)
  let dd := onesOf (diff &&& 0x155)
  let wrongSs := match ss with
    | some e => bits word 10 2 != e
    | none => false
  if word == 0xFFFF then .ais
  else if wrongSs then .inv
  else if ndfMatches word 9 && off < range then .ndf
  else if !ndfMatches word 6 then .inv
  else if state == 0 && off == cur then .norm
  else if state == 0 && i ≥ 3 && dd < 3 && since ≥ 3 then .inc
  else if state == 0 && dd ≥ 3 && i < 3 && since ≥ 3 then .dec
  else if off < range && (off != cur || state != 0) then .new
  else .inv

/-! ## The interpreter (R184, R185, Table MP-5) -/

/-- An interpreter's place: its state, offset and runs. -/
structure PtrAt where
  state  : Nat
  offset : Nat
  x      : PtrRx
deriving DecidableEq, Repr

/-- Runs after an accepted or confirmed offset. -/
def PtrRx.confirmed (x : PtrRx) (moved : Bool) : PtrRx :=
  { x with ais := 0, lop := 0, new := (0, 0), since := if moved then 0 else x.since }

/-- One period: the state, offset and runs after a word of a class; whether an NDF's offset was taken, and whether the period confirms
the offset. NDF_enable counts in the LOP run; the one that completes it gives LOP (R184; log entry 138). -/
def interpret (p : PtrAt) (c : PtrClass) (off range lopN : Nat) : PtrAt × Bool × Bool :=
  let x0 := { p.x with since := min (p.x.since + 1) 3, age := min (p.x.age + 1) 15 }
  let bad := fun (x : PtrRx) =>
    let lop := min (x.lop + 1) 15
    if p.state != 2 && lop ≥ lopN then ({ p with state := 2, x := { x with lop := 0 } }, false, false)
    else ({ p with x := { x with lop := lop } }, false, false)
  match c with
  | .norm => ({ p with x := x0.confirmed false }, false, true)
  | .inc => ({ p with offset := (p.offset + 1) % range, x := x0.confirmed true }, false, true)
  | .dec => ({ p with offset := (p.offset + range - 1) % range, x := x0.confirmed true }, false, true)
  | .ndf =>
    let n := min (x0.lop + 1) 15
    if p.state == 2 then ({ p with x := { x0 with ais := 0, new := (0, 0) } }, false, false)
    else if n ≥ lopN then ({ p with state := 2, x := { x0 with ais := 0, lop := 0, new := (0, 0) } }, false, false)
    else ({ state := 0, offset := off, x := { x0.confirmed true with lop := n } }, true, true)
  | .ais =>
    let n := min (x0.ais + 1) 3
    let x1 := { x0 with ais := n, lop := 0, new := (0, 0) }
    if p.state != 1 && n ≥ 3 then ({ p with state := 1, x := x1 }, false, false) else ({ p with x := x1 }, false, false)
  | .new =>
    let n := if x0.new.1 == off && x0.new.2 != 0 then x0.new.2 + 1 else 1
    if n ≥ 3 then ({ state := 0, offset := off, x := x0.confirmed true }, false, true)
    else bad { x0 with ais := 0, new := (off, n) }
  | .inv => bad { x0 with ais := 0, new := (0, 0) }

/-- One member's period (R186). -/
def memberStep (lopN : Nat) (m : ConcMember) (word : Nat) : ConcMember :=
  if word &&& 0xF3FF == 0x93FF then
    let n := min (m.conc + 1) 3
    { st := if n ≥ 3 then 1 else m.st, conc := n, ais := 0, bad := 0 }
  else if word == 0xFFFF then
    let n := min (m.ais + 1) 3
    { st := if n ≥ 3 then 2 else m.st, conc := 0, ais := n, bad := 0 }
  else
    let n := min (m.bad + 1) 15
    { st := if n ≥ lopN then 3 else m.st, conc := 0, ais := 0, bad := n }

/-! ## Delimiting containers (R182, R184, R185) -/

/-- A container is complete: it waits for its visit, with the parity of the one before it. -/
def PathRx.close (pt : Nat) (x : PathRx) (c : List Byte) : PathRx :=
  { x with todo := x.todo ++ [{ bytes := c, bip := x.bip, stamp := x.stamp }], bip := some (contBip pt c) }

/-- Payload bytes that came at time `t` join the container in progress; the result lists the containers completed. -/
def PathRx.push (pt t : Nat) : Nat → PathRx → List Byte → PathRx × List (List Byte)
  | 0, x, _ => (x, [])
  | n + 1, x, l =>
    match x.cur with
    | none => (x, [])
    | some c =>
      let last := (pohPlaces pt).getLastD 0
      let x1 := if c.length ≤ last && last < c.length + l.length then { x with stamp := t } else x
      let all := c ++ l
      if all.length < payLen pt then ({ x1 with cur := some all }, [])
      else
        let out := ofPay pt (all.take (payLen pt))
        let r := PathRx.push pt t n { x1.close pt out with cur := some [] } (all.drop (payLen pt))
        (r.1, out :: r.2)

/-- Payload bytes of a period, with the start of a new alignment where one waits: the container in progress ends there and is not
delivered (log entry 139). -/
def PathRx.feed (pt : Nat) (x : PathRx) (e : Nat × List Byte) : PathRx × List (List Byte) :=
  match x.wait with
  | none => x.push pt e.1 3 e.2
  | some k =>
    if e.2.length < k then
      let r := x.push pt e.1 3 e.2
      ({ r.1 with wait := some (k - e.2.length) }, r.2)
    else
      let r := x.push pt e.1 3 (e.2.take k)
      let bip := match r.1.cur with
        | some (b :: c) => some (contBip pt (b :: c))
        | _ => r.1.bip
      let r2 := PathRx.push pt e.1 3 { r.1 with wait := none, cur := some [], bip := bip } (e.2.drop k)
      (r2.1, r.2 ++ r2.2)

/-- What a period's pointer says of its bytes: not delimited, the alignment goes on with a justification (1 positive, 2 negative), or
a new alignment starts at an offset. -/
inductive Alignment where
  | none
  | on (just : Nat)
  | start (off : Nat)
deriving DecidableEq, Repr

/-- One period's bytes: those before the pointer under the old alignment, those after it under the new one. -/
def PathRx.period (pt : Nat) (x : PathRx) (p : Period) (al : Alignment) : PathRx × List (List Byte) :=
  let r0 := x.feed pt p.pre
  let feedAll := fun (y : PathRx) (l : List (Nat × List Byte)) =>
    l.foldl (fun (s : PathRx × List (List Byte)) e => let r := s.1.feed pt e; (r.1, s.2 ++ r.2)) (y, r0.2)
  match al with
  | .none => ({ r0.1 with cur := none, wait := none, bip := none }, r0.2)
  | .start off => feedAll { r0.1 with wait := some (off * unitJ pt) } (p.ahead :: p.rest)
  | .on 1 => feedAll r0.1 (p.ahead :: (match p.rest with
    | e :: l => (e.1, e.2.drop (unitJ pt)) :: l
    | [] => []))
  | .on 2 => feedAll r0.1 (p.ahead :: p.opp :: p.rest)
  | .on _ => feedAll r0.1 (p.ahead :: p.rest)

/-! ## Holds (R187, R203) -/

/-- Whether a level-2 context's receive overhead processing holds: the port's receive is held, or its interpreter or that of a member
is not in NORM; one on a port that is not enabled does not run (R182, R203). -/
def Dev.hoHeld (d : Dev) (a : Nat) : Bool :=
  d.soHold (d.ctxPort a) || !portOn d.active (d.ctxPort a) || d.fld (keyCtx O.PTR_STATUS a) 16 2 != 0
    || (auCount (d.pathType a) > 1 && (smLook {} d.ptrRx a).members.any (fun m => m.st != 1))

/-- Whether a TU interpreter holds: its parent's overhead processing holds, or, for TU-12 and TU-11, the parent is out
of multiframe (R187). -/
def Dev.tuHeld (d : Dev) (a : Nat) : Bool :=
  let par := parentOf d.active a
  adLevel a == 1 && (d.hoHeld par || (isTu1 (d.pathType a) && d.flag (keyCtx O.POH_STATUS par) 10))

/-! ## One received word -/

/-- What a word does to a context's interpreter: its class, and the place after it with the flags of `interpret`. -/
def Dev.ptrResult (d : Dev) (a word : Nat) : PtrClass × PtrAt × Bool × Bool :=
  let k := keyCtx O.PTR_STATUS a
  let pt := d.pathType a
  let ctl := d.genA (keyCtx O.PTR_CTRL a)
  let x := smLook {} d.ptrRx a
  let at0 : PtrAt := { state := d.fld k 16 2, offset := d.fld k 0 10, x := x }
  let c := classify word (ptrRange pt) (if bit ctl 4 then some (sizeBits pt (d.sonet (d.ctxPort a))) else none) at0.state at0.offset
    (min (x.since + 1) 3)
  (c, interpret at0 c (bits word 0 10) (ptrRange pt) (bits ctl 0 4))

/-! ## Pointer generation (R190, R191) -/

def Dev.ptrTxOf (d : Dev) (a : Nat) : PtrTx := smLook {} d.ptrTx a
def Dev.onPtrTx (d : Dev) (a : Nat) (f : PtrTx → PtrTx) : Dev := { d with ptrTx := smPut {} d.ptrTx a (f (smLook {} d.ptrTx a)) }

/-- A generator recentres: the fill is 8J, an NDF goes out, the offset is the one that the fill gives at the present
frame phase, which no command supplies (a value free by context and by its recentres, log entry 21). -/
def Dev.recentre (d : Dev) (a : Nat) : Dev :=
  (d.onPtrTx a (fun x => { x with
    fill := 8, offset := (Config.outWord a x.turns).toNat % ptrRange (d.pathType a), since := 0, ndf := true
    turns := x.turns + 1 })).count (keyCtx O.STORE_RECENTRES a) 1

/-- A source timed from device frame timing never moves the fill: a client, an unequipped context, and a structured one whose level-1
contexts carry the payload (R190). -/
def Dev.deviceTimed (d : Dev) (a : Nat) : Bool := d.terminates a

/-- A store's fill moves by a number of J; out of its range it recentres with a mapping event (R191). -/
def Dev.moveFill (d : Dev) (a : Nat) (n : Int) : Dev :=
  let f : Int := ((d.ptrTxOf a).fill : Int) + n
  if n == 0 || d.deviceTimed a || d.txAis a then d
  else if f < 0 || f > 16 then
    (d.recentre a).raise { cls := clsMapping, inst := adPort a, level := adLevel a, addr := a, detail := 1 }
  else d.onPtrTx a (fun x => { x with fill := f.toNat })

/-- A new container starts at the offset sent: after the bytes that lie between the pointer's place and offset 0, which in a multiframe
are those after V1. -/
def Dev.contStart (d : Dev) (a off : Nat) : Dev :=
  let pt := d.pathType a
  d.onPathTx a (fun y => { y with wait := some (off * unitJ pt + (if isTu1 pt then payLen pt / 4 else 0)) })

/-- One period of a generator (R189, R190): its word, and a justification where an opportunity has come, at least 4 periods after the
last change; all ones under AIS. Where no period came before, the container starts here. -/
def Dev.generate (d : Dev) (a : Nat) (first : Bool) : Dev :=
  let pt := d.pathType a
  let range := ptrRange pt
  let ss := sizeBits pt (d.sonet (d.ctxPort a))
  let old := d.ptrTxOf a
  let x := { old with since := min (old.since + 1) 4, just := 0 }
  let put := fun (y : PtrTx) => { d with ptrTx := smPut {} d.ptrTx a y }
  if d.txAis a then put { x with word := 0xFFFF }
  else if x.ndf then
    (put { x with ndf := false, word := ptrWord 9 ss x.offset }).contStart a x.offset
  else if first then (put { x with word := ptrWord 6 ss x.offset }).contStart a x.offset
  else if x.since < 4 then put { x with word := ptrWord 6 ss x.offset }
  else if x.fill ≥ 10 then
    (put { x with
      fill := x.fill - 1, offset := (x.offset + range - 1) % range, since := 0, just := 2
      word := ptrWord 6 ss (x.offset ^^^ 0x155) }).count (keyCtx O.PJ_TX_DEC a) 1
      |>.onPmAcc a (fun c => { c with pjDec := c.pjDec + 1 })
  else if x.fill ≤ 6 then
    (put { x with
      fill := x.fill + 1, offset := (x.offset + 1) % range, since := 0, just := 1
      word := ptrWord 6 ss (x.offset ^^^ 0x2AA) }).count (keyCtx O.PJ_TX_INC a) 1
      |>.onPmAcc a (fun c => { c with pjInc := c.pjInc + 1 })
  else put { x with word := ptrWord 6 ss x.offset }

/-! ## One period -/

/-- A received pointer word of one period drives the interpreter (R183 to R188). -/
def pointerWord (d : Dev) (a word : Nat) (members : List Nat) : Dev :=
  let k := keyCtx O.PTR_STATUS a
  let pt := d.pathType a
  let lopN := bits (d.genA (keyCtx O.PTR_CTRL a)) 0 4
  let x := smLook {} d.ptrRx a
  let (c, at1, ndf, conf) := d.ptrResult a word
  let mem := (List.range (auCount pt - 1)).map (fun i =>
    memberStep lopN (at1.x.members.getD i {}) (members.getD i 0))
  let concAis := !mem.isEmpty && mem.all (fun m => m.st == 2)
  let concLop := mem.any (fun m => m.st == 3)
  let fast := if c == .ais || c == .inv then min (x.fast + 1) 3 else 0
  let fail := if isTu1 pt then c == .ais else fast ≥ 3 || concLop
  let failNow := fail || (d.flag k 23 && !(conf && at1.state == 0))
  let v0 := putBits (putBits (d.rd k) 0 10 at1.offset) 16 2 at1.state
  let v1 := putBits (putBits (putBits v0 18 2 (bits word 10 2)) 23 1 (ofBit failNow)) 24 2 (ofBit concAis + 2 * ofBit concLop)
  let just := c == .inc || c == .dec
  let evs := ofBit (at1.state != d.fld k 16 2) * 2 ^ 20 + ofBit just * 2 ^ 21 + ofBit ndf * 2 ^ 22
  let d1 := { d.wr k (v1 ||| evs) with ptrRx := smPut {} d.ptrRx a { at1.x with fast := fast, members := mem } }
  let d2 := d1.when ndf (fun y => y.count (keyCtx O.NDF_RX a) 1)
  if !just then d2
  else
    let d3 := d2.count (keyCtx (if c == .inc then O.PJ_RX_INC else O.PJ_RX_DEC) a) 1
    ((d.servedBy a).flatMap d.partners).foldl (fun y t => y.moveFill t (if c == .dec then 1 else -1)) d3

/-- What a word says of its period's bytes; `gap` tells that a period before it was lost. -/
def Dev.alignment (d : Dev) (a word : Nat) (gap : Bool) : Alignment :=
  let (c, at1, ndf, _) := d.ptrResult a word
  if at1.state != 0 then .none
  else if ndf || gap || d.fld (keyCtx O.PTR_STATUS a) 16 2 != 0 || c == .new && at1.offset != d.fld (keyCtx O.PTR_STATUS a) 0 10 then
    .start at1.offset
  else .on (if c == .inc then 1 else if c == .dec then 2 else 0)

/-- The latest period of a context that its port or its parent has brought, with its number; none where nothing has come (R182,
R187). -/
def Dev.rxPeriod (d : Dev) (a : Nat) : Option (Nat × Period) :=
  let pt := d.pathType a
  if adLevel a == 2 then
    let p := d.ctxPort a
    let f := smLook {} d.rxFrames p
    if f.num == 0 then none else some (f.num, auPeriod (stmN (d.portTy p)) (d.auIndex a) (adK a) (auCount pt) f.time f)
  else
    let par := parentOf d.active a
    let x := d.pathRxOf par
    if isTu1 pt then
      (if x.nMulti == 0 then none else some (x.nMulti, tu1Period (d.pathType par) (adK a) (adL a) (adM a) pt x.multi))
    else if x.nFrame == 0 then none else some (x.nFrame, tu3Period (adK a) x.frame)

/-- A context's period (R182): a word that has not been taken yet drives the interpreter, its bytes are delimited, and the containers
completed go through the mapping switch. -/
def pathPeriod (d : Dev) (a : Nat) : Dev :=
  if !d.ptrRuns a || d.tuHeld a then d
  else match d.rxPeriod a with
    | none => d
    | some (n, p) =>
      let x := d.pathRxOf a
      if n == x.taken then d
      else
        let gap := n != x.taken + 1
        let r := (if gap then { x with cur := none, wait := none } else x).period (d.pathType a) p (d.alignment a p.word gap)
        let d1 := (pointerWord d a p.word p.members).onPathRx a (fun _ => { r.1 with taken := n })
        r.2.foldl (fun y c => y.deliver a c) d1

def execPointerWord (a : Addr) (s : State) : Host.Outcome State Fault Refusal := done s (pathPeriod s.dev a.toNat)

/-- An interpreter starts in LOP with every run at 0 and OFFSET 0, and no container is delimited (R184); `evt` fields stay. -/
def Dev.pointerStart (d : Dev) (a : Nat) : Dev :=
  let k := keyCtx O.PTR_STATUS a
  { d.wr k ((d.rd k &&& 0x700000) + (if portOn d.active (d.ctxPort a) then 0x20000 else 0x30000)) with
    ptrRx := smDrop d.ptrRx a }.onPathRx a (fun x => { taken := x.taken, nFrame := x.nFrame, nMulti := x.nMulti })

end Sys2Proof.Machine
end

