-- ==== Sys2Proof/Machine/Poh.lean ====
section
/-!
DEFINITION. Path overhead, receive side: holds, acceptance, H4 and the TUs it delimits, the delay marker; test controls (R200 to R216).
What is sent is in PathTx.
-/
namespace Sys2Proof.Machine

def Dev.pohOf (d : Dev) (a : Nat) : PohCtx := smLook {} d.poh a
def Dev.onPohCtx (d : Dev) (a : Nat) (f : PohCtx → PohCtx) : Dev :=
  { d with poh := smPut {} d.poh a (f (smLook {} d.poh a)) }

/-- A trace pool entry of a bank. -/
def poolEntry (b : Bank) (i : Nat) : List Byte := bankStr b (keyOf O.POOL_ENTRY i)

/-! ## The visit (R202, R203) -/

/-- Whether a context's receive overhead processing holds (R203): the port's receive is held, an interpreter is not in NORM, the parent
holds, or for a VC-11 or VC-12 the parent is out of multiframe. -/
def Dev.pohHeld (d : Dev) (a : Nat) : Bool :=
  if adLevel a == 1 then d.tuHeld a || d.fld (keyCtx O.PTR_STATUS a) 16 2 != 0 else d.hoHeld a

/-- The digest of a trace: the CRC-32C of the bytes that the mode uses (R207). -/
def traceDigest (mode : Nat) (l : List Byte) : Nat := crc32c (l.take (traceUsed mode))

/-- TRACE_MODE in force. -/
def Dev.traceMode (d : Dev) (a : Nat) : Nat := d.genFld (keyCtx O.POH_CTRL a) 18 2

/-- The trace and label comparisons of a context (R207, R209), against the generation in force. -/
def Dev.comparePath (d : Dev) (a : Nat) : Dev :=
  let k := keyCtx O.POH_STATUS a
  let ctl := d.genA (keyCtx O.POH_CTRL a)
  let x := d.pohOf a
  let expect := traceDigest (d.traceMode a) (poolEntry d.active (d.genA (keyCtx O.TRACE_EXP_INDEX a)))
  let tm := bit ctl 20 && x.trace.got && d.rd (keyCtx O.TRACE_DIGEST a) != expect
  let sl := d.rd (keyCtx O.SL_ACCEPTED a)
  let want := d.genA (keyCtx O.SL_EXPECTED a)
  let on := bit ctl 17 && x.slGot
  let uneq := on && sl == 0
  let plm := on && sl != 0 && sl != want && !(sl == 1 && want != 0)
  ((d.putFlag k 7 tm).putFlag k 9 uneq).putFlag k 8 plm

/-- A captured trace goes to each master that armed a capture on the context (R208). -/
def Dev.capture (d : Dev) (a : Nat) (v : List Byte) : Dev :=
  let mine := d.captures.filter (fun c => c.2 == a)
  let d1 := mine.foldl (fun x c =>
    (x.wrStr (keyOf O.TRACE_CAPTURED c.1) v).wr (keyOf O.TRACE_CAPTURE c.1) 0) d
  { d1 with captures := d1.captures.filter (fun c => c.2 != a) }

/-- One container of an H4 flywheel (R210). -/
def h4Step (x : H4) (v : Nat) : H4 :=
  let fly := if x.last.isNone then v else (x.fly + 1) % 4
  let good := match x.last with
    | some l => if v == (l + 1) % 4 then min (x.good + 1) 2 else 0
    | none => 0
  let bad := if v == fly then 0 else min (x.bad + 1) 2
  if x.oom && good ≥ 2 then { fly := v, last := some v, good := good, bad := 0, age := 1, oom := false }
  else if !x.oom && bad ≥ 2 then { fly := fly, last := some v, good := good, bad := 0, age := 1, oom := true }
  else { fly := fly, last := some v, good := good, bad := bad, age := min (x.age + 1) 8, oom := x.oom }

/-- Step 3 of Table PO-3: the H4 flywheel of a structured level-2 context, with H4_OOM and H4_LOM. -/
def Dev.h4Work (d : Dev) (a v : Nat) : Dev :=
  if !structured d.active a then d
  else
    let k := keyCtx O.POH_STATUS a
    let h := h4Step (d.pohOf a).h4 v
    let lom := if h.age < 8 then d.flag k 11 else h.oom
    ((d.onPohCtx a (fun x => { x with h4 := h })).putFlag k 10 h.oom).putFlag k 11 lom

/-- The marker's mode of a member, which is that of the working one: active in terminate mode of a VC-12 or VC-11 only (R211). -/
def Dev.markerMode (d : Dev) (a : Nat) : Nat :=
  let w := d.workingAt a
  if isTu1 (d.pathType w) && d.terminates w then d.genFld (keyCtx O.POH_CTRL w) 22 2 else 0

/-- Step 6 of Table PO-3: the marker bit of a K4 byte that came at time `t`, on each member (R289). Two equal multiframes accept a value; a
change is a received edge, stamped at the first of them; on the member that feeds the destination, an edge that answers the
transmitted value closes the loop (R211, R212; log entry 22). -/
def Dev.markerRx (d : Dev) (a t : Nat) (v : Bool) : Dev :=
  let mode := d.markerMode a
  let m := (d.pohOf a).marker
  if mode == 0 then d
  else if v != m.seen then d.onPohCtx a (fun x => { x with marker := { m with seen := v, stamp := t } })
  else if v == m.acc then d
  else
    let st := keyCtx O.POH_STATUS a
    let d1 := ((d.onPohCtx a (fun x => { x with marker := { m with acc := v } })).wr (keyCtx O.MARKER_RX_EDGE a) m.stamp).set1 st 4
    let w := d.workingAt a
    let mw := (d1.pohOf w).marker
    if mode == 2 && v == mw.tx && mw.ticked && !mw.edge && d.feeding w == a then
      let loop := (m.stamp + 2 ^ 64 - d.rd (keyCtx O.MARKER_TX_EDGE w)) % 2 ^ 64 % 2 ^ 32
      ((d1.wr (keyCtx O.MARKER_LOOP w) loop).putFlag (keyCtx O.POH_STATUS w) 5 false).onPohCtx w (fun x =>
        { x with marker := { x.marker with back := true, retry := false, reads := x.marker.reads + 1 } })
    else d1

/-- The RDI code of a period (R222): 0 none, 1 RDI, 2 RDI_C, 3 RDI_P. -/
def rdiCode (erdiEn : Bool) (rdi : Bool) (erdi : Nat) : Nat :=
  if !erdiEn then ofBit rdi
  else if erdi == 6 then 2 else if erdi == 2 then 3 else if erdi == 4 || erdi == 5 || erdi == 7 then 1 else 0

/-- The fields of one period's received overhead bytes: HO J1 B3 C2 G1 F2 H4 F3 K3 N1, LO V5 J2 N2 K4 (Tables PO-4,
PO-5). -/
structure PohBytes where
  trace : Byte
  errs  : Nat
  rei   : Nat
  rdi   : Bool
  erdi  : Nat
  label : Nat
  h4    : Nat
  aps   : Nat
  mark  : Bool
deriving DecidableEq, Repr

/-- Reads a period's bytes; `computed` is the BIP that the pipelines computed over the preceding container, where there is one. -/
def pohBytes (lo : Bool) (l : List Byte) (computed : Option Byte) : PohBytes :=
  let at_ := fun (i : Nat) => (l.getD i 0)
  let differ := fun (b m : Byte) => match computed with
    | some c => ones ((b ^^^ c) &&& m)
    | none => 0
  if lo then
    let v5 := (at_ 0).toNat
    let k4 := (at_ 3).toNat
    { trace := at_ 1, errs := differ (at_ 0) 0xC0, rei := bits v5 5 1, rdi := bit v5 0
      erdi := bits k4 1 3, label := bits v5 1 3, h4 := 0, aps := bits k4 4 2, mark := bit k4 0 }
  else
    let g1 := (at_ 3).toNat
    { trace := at_ 0, errs := differ (at_ 1) 0xFF, rei := (if bits g1 4 4 ≤ 8 then bits g1 4 4 else 0), rdi := bit g1 3
      erdi := bits g1 1 3, label := (at_ 2).toNat, h4 := (at_ 5).toNat % 4, aps := bits (at_ 7).toNat 4 4, mark := false }

/-- The work of Table PO-3 on one period's overhead bytes, which came at time `t`. -/
def Dev.pohPeriod (d : Dev) (a : Nat) (l : List Byte) (computed : Option Byte) (t : Nat) : Dev :=
  let k := keyCtx O.POH_STATUS a
  let lo := isTu1 (d.pathType a)
  let b := pohBytes lo l computed
  let x := d.pohOf a
  let d1 := ((d.count (keyCtx O.BIP_ERRORS a) b.errs).count (keyCtx O.REI_RX a) b.rei).berPeriod a b.errs
  let (tr, acc, crcBad) := traceByte (d.traceMode a) x.trace b.trace
  let sl := runStep x.sl b.label
  let aps := runStep x.aps b.aps
  let code := rdiCode (d.genBit (keyCtx O.POH_CTRL a) 21) b.rdi b.erdi
  let rr := runStep x.rdiRun code
  let d2 := d1.onPohCtx a (fun _ => { x with
    trace := tr, sl := sl, slGot := x.slGot || sl.2 ≥ 5, aps := aps, rdiRun := rr
    rdi := if rr.2 ≥ 5 then code else x.rdi, rei := if d.terminates a then some b.errs else none })
  let d3 := match acc with
    | some v =>
      let g := traceDigest (d.traceMode a) v
      ((d2.when (d2.rd (keyCtx O.TRACE_DIGEST a) != g) (fun y => y.set1 k 1)).wr (keyCtx O.TRACE_DIGEST a) g).capture a v
    | none => d2
  let d4 := (d3.when crcBad (fun y => y.set1 k 0)).when (sl.2 ≥ 5) (fun y => y.acceptVal (keyCtx O.SL_ACCEPTED a) k 2 b.label)
  let d5 := d4.when (aps.2 ≥ 3) (fun y => y.acceptVal (keyCtx O.APS_ACCEPTED a) k 3 b.aps)
  let d6 := ((d5.putFlag k 12 b.rdi).putFld k 13 3 b.erdi).comparePath a
  let d7 := (if lo then d6 else d6.h4Work a b.h4).onPmAcc a (fun c => { c with
    blocks := c.blocks + 1, neErr := c.neErr + ofBit (b.errs != 0), feErr := c.feErr + ofBit (b.rei != 0) })
  if lo then d7.markerRx a t b.mark else d7

/-- The TUG-3s of a VC-4 whose null pointer is AIS_ind; they are reported to the parent's consequent actions only (R187). -/
def nullAis (c : List Byte) : List Nat :=
  [1, 2, 3].filter (fun k => ((tug3Rows k c).take 2).map (fun r => r.headD 0) == [0xFF, 0xFF])

/-- A structured context's container reaches its TUs (R187): whole for TU-3s; for TU-12s and TU-11s as the quarter that the H4 flywheel
gives, H4 telling the phase of the container after it (log entry 140), and with the fourth quarter as a multiframe. All ones under
AIS_OUT, and toward TU-12s and TU-11s under H4_LOM (R225). -/
def Dev.tuDeliver (d : Dev) (a t : Nat) (raw : List Byte) : Dev :=
  if !structured d.active a then d
  else
    let ais := d.aisOut a
    let c := if ais then allOnes raw.length else raw
    let q := if bit (d.act a) 16 then allOnes raw.length else c
    let h := (d.pohOf a).h4
    let v := (h.fly + 3) % 4
    d.onPathRx a (fun x =>
      let y := { x with nFrame := x.nFrame + 1, frame := (t, c), tugAis := if d.pathType a == 1 then nullAis raw else [] }
      let part := if v == 0 then [(t, q)] else if y.part.length == v then y.part ++ [(t, q)] else []
      if h.oom then { y with part := [] }
      else if part.length == 4 then { y with part := [], multi := part, nMulti := y.nMulti + 1 }
      else { y with part := part })

/-- A path overhead visit (R201): the work of Table PO-3 on the containers that have arrived since the last one, and their TUs; while the
processing holds, none of it (R203). -/
def pohVisit (d : Dev) (a : Nat) : Dev :=
  if !(d.runs gPoh && provisioned d.active a) then d
  else
    let held := d.pohHeld a
    let l := (d.pathRxOf a).todo
    let d0 := (d.putFlag (keyCtx O.POH_STATUS a) 6 held).onPathRx a (fun x => { x with todo := [] })
    if held then d0.onPohCtx a (fun x => { x with rei := some 0, trace := { x.trace.broken with buf := [] } })
    else l.foldl (fun y c =>
      (y.pohPeriod a (pohOfCont (y.pathType a) c.bytes) c.bip c.stamp).tuDeliver a c.stamp c.bytes) d0

/-! ## The originating marker (R212) -/

/-- A marker tick toggles the bit to transmit when it is the first tick, when a received edge has answered the last toggle, or when it
is the tick after a loss; the edge is stamped as its K4 leaves (R211). -/
def markerTick (d : Dev) (a : Nat) : Dev :=
  let m := (d.pohOf a).marker
  if d.runs gPoh && provisioned d.active a && d.pohMaster a == a && d.markerMode a == 2 && (!m.ticked || m.back || m.retry) then
    d.onPohCtx a (fun x => { x with marker := { m with tx := !m.tx, back := false, ticked := true, retry := false, edge := true } })
  else d

def execMarkerTick (a : Addr) (s : State) : Host.Outcome State Fault Refusal := done s (markerTick s.dev a.toNat)

/-- No reflected edge came in time: MARKER_LOST is set, and the next tick toggles anyway. -/
def markerLost (d : Dev) (a : Nat) : Dev :=
  let m := (d.pohOf a).marker
  if d.runs gPoh && provisioned d.active a && d.pohMaster a == a && d.markerMode a == 2 && m.ticked && !m.back then
    (d.putFlag (keyCtx O.POH_STATUS a) 5 true).onPohCtx a (fun x => { x with marker := { m with retry := true } })
  else d

def execMarkerLost (a : Addr) (s : State) : Host.Outcome State Fault Refusal := done s (markerLost s.dev a.toNat)

/-! ## Starts (R210, R215, R472) -/

/-- The marker restarts: its four objects read 0 and MARKER_LOST clears (R215). -/
def Dev.markerRestart (d : Dev) (a : Nat) : Dev :=
  let d1 := ((d.wr (keyCtx O.MARKER_TX_EDGE a) 0).wr (keyCtx O.MARKER_RX_EDGE a) 0).wr (keyCtx O.MARKER_LOOP a) 0
  ((d1.wr (keyCtx O.MARKER_TURN a) 0).putFlag (keyCtx O.POH_STATUS a) 5 false).onPohCtx a (fun x => { x with marker := {} })

/-- The H4 flywheel starts out of multiframe (R210). -/
def Dev.h4Start (d : Dev) (a : Nat) : Dev :=
  ((d.onPohCtx a (fun x => { x with h4 := {} })).putFlag (keyCtx O.POH_STATUS a) 10 (structured d.active a)).putFlag
    (keyCtx O.POH_STATUS a) 11 false

/-- The path overhead processor starts with nothing accepted (R215, R472). -/
def Dev.pohStart (d : Dev) (a : Nat) : Dev :=
  let k := keyCtx O.POH_STATUS a
  let d1 := (d.wr k (d.rd k &&& 0x1F)).onPohCtx a (fun x => { trTx := x.trTx })
  let d2 := ((d1.wr (keyCtx O.SL_ACCEPTED a) 0).wr (keyCtx O.APS_ACCEPTED a) 0).wr (keyCtx O.TRACE_DIGEST a) 0
  (d2.markerRestart a).h4Start a

/-! ## Host commands -/

/-- The context that a master has selected (R77). -/
def Dev.selected (d : Dev) (m : Master) : Nat := d.rd (keyOf O.CONTEXT_SELECT (masterNo m))

/-- An access to a `now` context field by the selected context (R77, R78): its effect on a context that the active
generation provisions. `levels` are the levels that the field has. -/
def Dev.onContext (d : Dev) (m : Master) (gate : Nat) (levels : List Nat) (f : Nat → Dev → Dev × Nat) : Dev × Nat :=
  let a := d.selected m
  if !d.gateOn gate then (d, 0)
  else if a == 0 || !levels.contains (adLevel a) || !d.hasRecord a then (d, abNoContext)
  else f a d

/-- TRACE_CAPTURE (R208). -/
def traceCaptureWrite (m : Master) (v : Nat) (d : Dev) : Dev × Nat :=
  d.onContext m gPoh [1, 2] (fun a x =>
    if v > 1 then (x, abRange)
    else if v == 0 then (x, 0)
    else ({ x.wr (keyOf O.TRACE_CAPTURE (masterNo m)) 1 with
      captures := x.captures.filter (fun c => c.1 != masterNo m) ++ [(masterNo m, a)] }, 0))

def execTraceCapture (m : Master) (v : BitVec 8) (s : State) : Host.Outcome State Fault Refusal :=
  hostNum s m O.TRACE_CAPTURE v.toNat (traceCaptureWrite m v.toNat)

/-- POH_TEST takes a value: a `trg` bit that waits stays set (R214, Table DI-3). -/
def pohTestApply (a v : Nat) (d : Dev) : Dev :=
  let k := keyCtx O.POH_TEST a
  d.wr k (v ||| (d.rd k &&& 2))

/-- A write of POH_TEST, applied in both units of a pair (R173, R214). -/
def pohTestWrite (a v : Nat) (d : Dev) : Dev × Nat :=
  rsvdCheck (d.rd (keyCtx O.POH_TEST a)) v 0xF0
    (d.writeTogether { idx := 0x3020, sub := 7, addr := a, data := [BitVec.ofNat 8 v] } 0 (pohTestApply a v))

/-- A write that fires ONE_BIP on the selected context. -/
def oneBip (m : Master) (d : Dev) : Dev × Nat :=
  d.onContext m gPoh [1, 2] (fun a x => pohTestWrite a (x.rd (keyCtx O.POH_TEST a) ||| 2) x)

def execOneBip (m : Master) (s : State) : Host.Outcome State Fault Refusal :=
  hostNum s m O.POH_TEST (s.dev.rd (keyCtx O.POH_TEST (s.dev.selected m)) ||| 2) (oneBip m)

end Sys2Proof.Machine
end

