-- ==== Sys2Proof/Machine/PathTx.lean ====
section
/-!
DEFINITION. The add direction (R15): the mapping of clients (R283), path overhead and its test controls (R204 to R206, R210 to R214), the
containers of structured contexts with their TU pointers, the pointers and containers of a port's frame (R189 to R191), and the
transmit frame.
-/
namespace Sys2Proof.Machine

/-! ## Bytes and bits that a source does not have -/

/-- `n` bytes in place of those that a context's source does not have ready: free values, by context and number (log entry 143). -/
def Dev.gapBytes (d : Dev) (a n : Nat) : Dev × List Byte :=
  let k := (d.pathTxOf a).gaps
  (d.onPathTx a (fun x => { x with gaps := k + n }), (List.range n).map (fun i => Config.lostByte (2 ^ 34 + a) (k + i)))

/-- `n` bits for a client's queue that does not have them: free values, by client and number (log entry 143). -/
def ClientSt.gapBits (x : ClientSt) (c n : Nat) : ClientSt × List Bool :=
  ({ x with gaps := x.gaps + n }, (List.range n).map (fun i => (Config.lostByte (2 ^ 33 + c) (x.gaps + i)).getLsbD 0))

/-! ## Clients (R282, R283) -/

/-- The oldest `n` bits of a client's ingress queue; bits that it does not have are free. -/
def ClientSt.ingressTake (x : ClientSt) (c n : Nat) : ClientSt × List Bool :=
  let l := x.ingress.take n
  let r := ({ x with ingress := x.ingress.drop n, came := 0 } : ClientSt).gapBits c (n - l.length)
  (r.1, l ++ r.2)

/-- An ingress queue recentres: 32 bits beside those that have come since the mapper last took some (R283, log entry 145); bits that it
does not have are free. -/
def ClientSt.recentred (x : ClientSt) (c : Nat) : ClientSt :=
  let n := 32 + x.came
  if n ≤ x.ingress.length then { x with ingress := lastOf n x.ingress }
  else
    let r := x.gapBits c (n - x.ingress.length)
    { r.1 with ingress := r.2 ++ x.ingress }

/-- The container of a client for one multiframe: S1 and S2 carry data or not by the fill of the ingress queue at the multiframe's
start, apart from the multiframe's own bits (log entry 145); all ones in the data bits while a client defect is raw. -/
def Dev.clientMap (d : Dev) (a c : Nat) : Dev × List Byte :=
  let pt := d.pathType a
  let x := d.clientOf c
  let fill := x.ingress.length - (fixedBits pt + 1)
  let c1 := fill ≤ 32
  let c2 := fill < 32
  let n := fixedBits pt + ofBit (!c1) + ofBit (!c2)
  let r := x.ingressTake c n
  (d.onClient c (fun _ => r.1), mapBits pt c1 c2 (if d.clientDown c then List.replicate n true else r.2))

/-! ## Transmitted overhead (R204 to R206, R210 to R214) -/

/-- The code of an upstream indication by Table PO-6: bit 5 of G1 or bit 8 of V5, and bits 5 to 7 of G1 or of K4. -/
def rdiBits (lo erdiEn : Bool) (ind : Nat) : Bool × Nat :=
  if !erdiEn then (ind ≥ 2, if ind ≥ 2 && !lo then 4 else 0)
  else if ind == 1 then (false, 2) else if ind == 2 then (true, 5) else if ind == 3 then (true, 6) else (false, 1)

/-- A transmitted edge of the marker leaves with its K4 byte and is stamped (R211): the originator's toggle (R212), or in mode 1 the value
accepted on the feeding member (R213). -/
def Dev.markerTx (d : Dev) (a : Nat) : Dev :=
  let m := (d.pohOf a).marker
  let src := d.feeding a
  let acc := (d.pohOf src).marker.acc
  let stamped := (d.wr (keyCtx O.MARKER_TX_EDGE a) d.time).set1 (keyCtx O.POH_STATUS a) 4
  if d.markerMode a == 1 && acc != m.tx then
    let turn := (d.time + 2 ^ 64 - d.rd (keyCtx O.MARKER_RX_EDGE src)) % 2 ^ 64 % 2 ^ 32
    (stamped.onPohCtx a (fun x => { x with marker := { m with tx := acc, reads := m.reads + 1 } })).wr (keyCtx O.MARKER_TURN a) turn
  else if d.markerMode a == 2 && m.edge then stamped.onPohCtx a (fun x => { x with marker := { m with edge := false } })
  else d

/-- The inversions of POH_TEST on a BIP byte (R214). -/
def invertBip (lo : Bool) (test : Nat) (b : Byte) : Byte :=
  if bit test 0 || bit test 1 then b ^^^ (if lo then 0xC0 else 0xFF) else b

/-- The overhead bytes that a terminating context sends (Tables PO-4, PO-5). -/
def Dev.ownPoh (d : Dev) (a : Nat) : Dev × List Byte :=
  let lo := isTu1 (d.pathType a)
  let d1 := if lo then d.markerTx a else d
  let test := d.rd (keyCtx O.POH_TEST a)
  let x := d1.pohOf a
  let (t, j) := traceSend (d.traceMode a) (poolEntry d.active (d.genA (keyCtx O.TRACE_TX_INDEX a))) x.trTx
  let label := if entryKind (d.mapEntry a) == 0 && !structured d.active a then 0 else d.genA (keyCtx O.SL_TX a)
  let ind := if bit test 3 then 2 else bits (d.act a) 1 2
  let (one, three) := rdiBits lo (d.genBit (keyCtx O.POH_CTRL a) 21) ind
  let aps := d.rd (keyCtx O.APS_TX a)
  let rei := if bit test 2 then 8 else x.rei.getD 0
  let bip := invertBip lo test ((d.pathTxOf a).bip.getD 0)
  let bytes : List Byte :=
    if lo then
      [bip ||| BitVec.ofNat 8 (ofBit (rei != 0) * 32 + label % 8 * 2 + ofBit one), j, 0,
       BitVec.ofNat 8 (aps % 4 * 16 + three * 2 + (if d.markerMode a == 0 then 0 else ofBit x.marker.tx))]
    else
      [j, bip, BitVec.ofNat 8 label, BitVec.ofNat 8 (rei * 16 + three * 2), 0,
       (if structured d.active a then BitVec.ofNat 8 (0xFC + d.phase) else 0), 0, BitVec.ofNat 8 (aps % 16 * 16), 0]
  (d1.onPohCtx a (fun y => { y with trTx := t, rei := none }), bytes)

/-- The overhead of a passed container under the test controls (R214): they act on the bytes that pass. -/
def Dev.passedPoh (d : Dev) (a : Nat) (l : List Byte) : List Byte :=
  let lo := isTu1 (d.pathType a)
  let test := d.rd (keyCtx O.POH_TEST a)
  let erdi := d.genBit (keyCtx O.POH_CTRL a) 21
  let at_ := fun (i : Nat) => l.getD i 0
  let code : Byte := BitVec.ofNat 8 ((rdiBits lo erdi 2).2 * 2)
  if lo then
    let v5 := invertBip true test (at_ 0) ||| (if bit test 2 then 0x20 else 0) ||| (if bit test 3 then 0x01 else 0)
    let k4 := if bit test 3 && erdi then (at_ 3 &&& 0xF1) ||| code else at_ 3
    [v5, at_ 1, at_ 2, k4]
  else
    let g1a := if bit test 2 then (at_ 3 &&& 0x0F) ||| 0x80 else at_ 3
    let g1 := if bit test 3 then (g1a &&& 0xF1) ||| code else g1a
    ((l.set 1 (invertBip false test (at_ 1))).set 3 g1)

/-- A container's overhead is inserted, or passes under the test controls, and ONE_BIP has acted; with the path overhead processor gated
nothing is inserted. -/
def Dev.sealCont (d : Dev) (a : Nat) (own : Bool) (body : List Byte) : Dev × List Byte :=
  let pt := d.pathType a
  if !d.runs gPoh then (d, body)
  else
    let r := if own then d.ownPoh a else (d, d.passedPoh a (pohOfCont pt body))
    let c := putPoh pt body r.2
    let test := d.rd (keyCtx O.POH_TEST a)
    ((r.1.wr (keyCtx O.POH_TEST a) (test &&& 0xFD)).onPathTx a (fun x => { x with bip := some (contBip pt c) }), c)

/-! ## Containers -/

/-- The next container of a context that builds it itself, without TUs (Table MP-9, Table PO-1). -/
def Dev.buildLeaf (d : Dev) (a : Nat) : Dev × List Byte :=
  let n := contLen (d.pathType a)
  let e := d.mapEntry a
  if d.terminates a then
    let r := if entryKind e == 2 then d.clientMap a (entryUnit e) else (d, zeros n)
    r.1.sealCont a true r.2
  else
    let r := match (d.pathTxOf a).feed with
      | c :: l => (d.onPathTx a (fun x => { x with feed := l }), fitBytes n c)
      | [] => d.gapBytes a n
    r.1.sealCont a false r.2

/-- The next container that a context sends: one built already with another context that sends the same ones, or a new one, which waits
for the others too (R256, R257, Table PO-1 row 1). -/
def Dev.nextCont (build : Dev → Nat → Dev × List Byte) (d : Dev) (a : Nat) : Dev × List Byte :=
  let pt := d.pathType a
  let r := match (d.pathTxOf a).ready with
    | c :: l => (d.onPathTx a (fun x => { x with ready := l }), c)
    | [] =>
      let m := d.pohMaster a
      let b := build d m
      (((m :: d.followers m).filter (· != a)).foldl (fun y t => y.onPathTx t (fun x => { x with ready := lastOf 2 (x.ready ++ [b.2]) })) b.1,
        b.2)
  let d1 := if d.pohMaster a == a then r.1 else r.1.wr (keyCtx O.POH_TEST a) (r.1.rd (keyCtx O.POH_TEST a) &&& 0xFD)
  (d1.onOut (fun o => { o with poh := smPut [] o.poh a (pohOfCont pt r.2) }), r.2)

/-- The next `n` payload bytes of a context. Where a new alignment waits, the container in progress ends at its start, and bytes between
the two belong to none (log entry 143). -/
def Dev.pull (build : Dev → Nat → Dev × List Byte) : Nat → Dev → Nat → Nat → Dev × List Byte
  | 0, d, _, n => (d, zeros n)
  | fuel + 1, d, a, n =>
    let x := d.pathTxOf a
    if n == 0 then (d, [])
    else if x.wait == some 0 || (x.cur.isEmpty && x.wait.isNone) then
      let r := d.nextCont build a
      Dev.pull build fuel (r.1.onPathTx a (fun y => { y with
        cur := toPay (d.pathType a) r.2, wait := if y.wait == some 0 then none else y.wait })) a n
    else if x.cur.isEmpty then
      let k := min n (x.wait.getD n)
      let g := d.gapBytes a k
      let r := Dev.pull build fuel (g.1.onPathTx a (fun y => { y with wait := y.wait.map (· - k) })) a (n - k)
      (r.1, g.2 ++ r.2)
    else
      let k := min (min n x.cur.length) (x.wait.getD n)
      let r := Dev.pull build fuel (d.onPathTx a (fun y => { y with cur := y.cur.drop k, wait := y.wait.map (· - k) })) a (n - k)
      (r.1, x.cur.take k ++ r.2)

/-- Whether a context's container went on in the device frame before, so that its next bytes follow; before its first, bytes that no
container has are free. -/
def Dev.pathGoesOn (d : Dev) (a : Nat) : Bool := (d.pathTxOf a).due == some d.frames

/-- `n` payload bytes of a period: all ones under AIS; free before a first or a new alignment where no container is in progress. -/
def Dev.bytesOf (build : Dev → Nat → Dev × List Byte) (d : Dev) (a n : Nat) (ais : Bool) : Dev × List Byte :=
  if ais then (d, allOnes n)
  else if (d.pathTxOf a).wait.isNone && ((d.pathTxOf a).due.isNone || ((d.pathTxOf a).cur.isEmpty && (d.ptrTxOf a).ndf)) then
    d.gapBytes a n
  else d.pull build 8 a n

/-- A context has sent its part of this device frame. -/
def Dev.sentNow (d : Dev) (a : Nat) : Dev := d.onPathTx a (fun x => { x with due := some (d.frames + 1) })

/-- The parts of a period sent in one frame: the payload bytes before the pointer, the generator's period, the opportunity and the bytes
after it (R185, R189). `n0` and `n1` count the bytes before and after the pointer. -/
def Dev.sendPeriod (build : Dev → Nat → Dev × List Byte) (d : Dev) (a n0 n1 : Nat) : Dev × List Byte × List Byte × List Byte :=
  let j := unitJ (d.pathType a)
  let ais := d.txAis a
  let first := !d.pathGoesOn a
  let d0 := if first then d.onPathTx a (fun x => { x with due := none, wait := none, cur := [] }) else d
  let pre := d0.bytesOf build a n0 ais
  let d1 := pre.1.generate a first
  let x := d1.ptrTxOf a
  let opp := if ais then (d1, allOnes j) else if x.just == 2 then d1.bytesOf build a j false else (d1, zeros j)
  let skip := if !ais && x.just == 1 then j else 0
  let rest := opp.1.bytesOf build a (n1 - skip) ais
  (rest.1.sentNow a, pre.2, opp.2, zeros skip ++ rest.2)

/-! ## Tributary units -/

/-- The byte of a pointer word: the high one, or the low one. -/
def hiByte (w : Nat) : Byte := BitVec.ofNat 8 (w / 256)
def loByte (w : Nat) : Byte := BitVec.ofNat 8 w

/-- The TU bytes of a quarter of a multiframe: V1, V2, V3 or V4 and the bytes after it (Table MP-3). V4 is sent as zero (log entry
140). -/
def Dev.tuQuarter (d : Dev) (a v : Nat) : Dev × List Byte :=
  let n := payLen (d.pathType a) / 4
  if v == 0 then
    let first := !d.pathGoesOn a
    let d0 := if first then d.onPathTx a (fun x => { x with due := none, wait := none, cur := [] }) else d
    let d1 := d0.generate a first
    let r := d1.bytesOf Dev.buildLeaf a n (d1.txAis a)
    (r.1.sentNow a, hiByte (d1.ptrTxOf a).word :: r.2)
  else
    let x := d.ptrTxOf a
    let ais := x.word == 0xFFFF
    if !d.pathGoesOn a then
      let g := d.gapBytes a (n + 1)
      (g.1.onPathTx a (fun y => { y with due := none }), g.2)
    else if v == 1 then
      let r := d.bytesOf Dev.buildLeaf a n ais
      (r.1.sentNow a, loByte x.word :: r.2)
    else if v == 2 then
      let opp := if ais then (d, allOnes 1) else if x.just == 2 then d.bytesOf Dev.buildLeaf a 1 false else (d, zeros 1)
      let skip := if !ais && x.just == 1 then 1 else 0
      let r := opp.1.bytesOf Dev.buildLeaf a (n - skip) ais
      (r.1.sentNow a, opp.2 ++ zeros skip ++ r.2)
    else
      let r := d.bytesOf Dev.buildLeaf a n ais
      (r.1.sentNow a, (if ais then 0xFF else 0) :: r.2)

/-- A TU position without a context: an all-zero container behind offset 0 (R189). -/
def emptyTu (pt v : Nat) (sonet : Bool) : List Byte :=
  let w := ptrWord 6 (sizeBits pt sonet) 0
  (if v == 0 then hiByte w else if v == 1 then loByte w else 0) :: zeros (payLen pt / 4)

/-- The provisioned level-1 context of a parent at K, L and M. -/
def Dev.childAt (d : Dev) (par k l m : Nat) : Option Nat :=
  d.contexts.find? (fun a => adLevel a == 1 && parentOf d.active a == par && adK a == k && adL a == l && adM a == m)

/-- `f` over a list, the device passed along and the results kept. -/
def Dev.gather {α : Type} (d : Dev) (l : List Nat) (f : Dev → Nat → Dev × α) : Dev × List α :=
  l.foldl (fun s i => let r := f s.1 i; (r.1, s.2 ++ [r.2])) (d, [])

/-- The TUs of a TUG-2: four TU-11s where it carries VC-11s, else three TU-12s (log entry 146). -/
def Dev.tug2Bytes (d : Dev) (par k l v : Nat) : Dev × List (List Byte) :=
  let has11 := d.contexts.any (fun a => adLevel a == 1 && parentOf d.active a == par && adK a == k && adL a == l && d.pathType a == 8)
  let pt := if has11 then 8 else 7
  d.gather ((List.range (tusOf pt)).map (· + 1)) (fun x m => match x.childAt par k l m with
    | some a => x.tuQuarter a v
    | none => (x, emptyTu pt v (d.sonet (d.ctxPort par))))

/-- The 84 columns of the seven TUG-2s of a TUG-3 or of an AU-3's VC-3. -/
def Dev.tug2Rows (d : Dev) (par k v : Nat) : Dev × List (List Byte) :=
  let r := d.gather [1, 2, 3, 4, 5, 6, 7] (fun x l => x.tug2Bytes par k l v)
  (r.1, tug2Build r.2)

/-- The nine rows of a TUG-3: a TU-3, seven TUG-2s behind a null pointer indication, or, where it carries nothing, a TU-3 with an all-zero
container behind offset 0 (R189, log entry 146). -/
def Dev.tug3Send (d : Dev) (par k v : Nat) : Dev × List (List Byte) :=
  let ss := sizeBits 6 (d.sonet (d.ctxPort par))
  let tu3 := fun (w : Nat) (pre opp rest : List Byte) =>
    let rows := rowsOf 85 9 (pre ++ rest)
    let col := [hiByte w, loByte w, opp.headD 0] ++ zeros 6
    (List.range 9).map (fun r => col.getD r 0 :: rows.getD r [])
  if d.contexts.any (fun a => adLevel a == 1 && parentOf d.active a == par && adK a == k && isTu1 (d.pathType a)) then
    let r := d.tug2Rows par k v
    let col := [BitVec.ofNat 8 (0x93 + 4 * ss), 0xE0] ++ zeros 7
    (r.1, (List.range 9).map (fun i => col.getD i 0 :: 0 :: r.2.getD i []))
  else match d.childAt par k 0 0 with
    | some a =>
      let r := d.sendPeriod Dev.buildLeaf a (2 * 85) (7 * 85)
      (r.1, tu3 (r.1.ptrTxOf a).word r.2.1 r.2.2.1 r.2.2.2)
    | none => (d, tu3 (ptrWord 6 ss 0) (zeros (2 * 85)) [0] (zeros (7 * 85)))

/-- The next container of a structured context: its TUs in the phase of the container's H4, which names that of the container after it
(R210, log entry 140). -/
def Dev.buildStructured (d : Dev) (a : Nat) : Dev × List Byte :=
  let v := (d.phase + 3) % 4
  let r : Dev × List Byte :=
    if d.pathType a == 5 then let t := d.tug2Rows a (adK a) v; (t.1, vc3Build t.2)
    else let t := d.gather [1, 2, 3] (fun x k => x.tug3Send a k v); (t.1, vc4Build t.2)
  r.1.sealCont a true r.2

/-- The next container of a context of any kind. -/
def Dev.buildAny (d : Dev) (a : Nat) : Dev × List Byte := if structured d.active a then d.buildStructured a else d.buildLeaf a

/-! ## Frames -/

/-- The bytes H1 and H2 of a concatenation with the concatenation indication, the Y and 1 bytes (R189), and H3; all ones under AIS. -/
def auPointers (c w ss : Nat) (h3 : List Byte) : List Byte :=
  if w == 0xFFFF then allOnes (9 * c)
  else
    let y : Byte := BitVec.ofNat 8 (0x93 + 4 * ss)
    (hiByte w :: List.replicate (c - 1) y) ++ List.replicate (2 * c) y ++ (loByte w :: allOnes (c - 1)) ++ allOnes (2 * c)
      ++ fitBytes (3 * c) h3

/-- The AU-4s of a VC-4 or VC-4-Nc in one frame (R189, R191). -/
def Dev.auSend (d : Dev) (a : Nat) : Dev × List AuPart :=
  let c := auCount (d.pathType a)
  let r := d.sendPeriod Dev.buildAny a (3 * 261 * c) (6 * 261 * c)
  (r.1, splitAus c (auPointers c (r.1.ptrTxOf a).word (sizeBits (d.pathType a) (d.sonet (d.ctxPort a))) r.2.2.1)
    (rowsOf (261 * c) 9 (r.2.1 ++ r.2.2.2)))

/-- An AU-3 in one frame; without a context an all-zero container behind offset 0 (log entry 146). -/
def Dev.au3Send (d : Dev) (p : Nat) (at_ : Option Nat) : Dev × AuPart :=
  match at_ with
  | some a =>
    let r := d.sendPeriod Dev.buildAny a (3 * 87) (6 * 87)
    let w := (r.1.ptrTxOf a).word
    (r.1, { ptr := [hiByte w, loByte w, r.2.2.1.headD 0], rows := rowsOf 87 9 (r.2.1 ++ r.2.2.2) })
  | none =>
    let w := ptrWord 6 (sizeBits 5 (d.sonet p)) 0
    (d, { ptr := [hiByte w, loByte w, 0], rows := rowsOf 87 9 (zeros (9 * 87)) })

/-- An AU-4 position without a context (R189). -/
def emptyAu (ss : Nat) : AuPart := { ptr := auPointers 1 (ptrWord 6 ss 0) ss [], rows := rowsOf 261 9 (zeros (9 * 261)) }

/-- The AU-4s of a port's frame from position `i` on. `live` are the level-2 contexts that send. -/
def Dev.ausSend (p : Nat) (live : List Nat) : Nat → Dev → Nat → Nat → Dev × List AuPart
  | 0, d, _, _ => (d, [])
  | fuel + 1, d, i, n =>
    if n ≤ i then (d, [])
    else
      let here := live.filter (fun a => d.auIndex a == i)
      match here.find? (fun a => d.pathType a != 5) with
      | some a =>
        let r := d.auSend a
        let t := Dev.ausSend p live fuel r.1 (i + auCount (d.pathType a)) n
        (t.1, r.2 ++ t.2)
      | none =>
        let r := if here.isEmpty then (d, emptyAu (sizeBits 1 (d.sonet p)))
          else
            let g := d.gather [1, 2, 3] (fun x k => x.au3Send p (here.find? (fun a => adK a == k)))
            (g.1, joinAu3s g.2)
        let t := Dev.ausSend p live fuel r.1 (i + 1) n
        (t.1, r.2 :: t.2)

/-- The pointer row and payload of a port's STM-N transmit frame: the stores move by what the sources brought since the last one (R190,
log entry 147), then every AU-4 is sent. With the pointer processor gated no context sends. -/
def Dev.stmPayload (d : Dev) (p : Nat) (moves : List (Addr × Int)) : Dev × List Byte :=
  let n := stmN (d.portTy p)
  let live := if d.runs gPointer then d.contexts.filter (fun a => adLevel a == 2 && d.ctxPort a == p) else []
  let d1 := moves.foldl (fun (x : Dev) m =>
    if x.runs gPointer && provisioned x.active m.1.toNat && x.ctxPort m.1.toNat == p then x.moveFill m.1.toNat m.2 else x) d
  let r := Dev.ausSend p live n d1 0 n
  (r.1, framePay r.2)

/-- One STM-N frame of a port, or of an OTU port's client. -/
def Dev.stmSend (d : Dev) (p : Nat) (moves : List (Addr × Int)) : Dev × List Byte :=
  let r := d.stmPayload p moves
  sdhTransmit r.1 p r.2

/-- The client frame of an OTU port joins the bytes that wait to be mapped (R196). -/
def Dev.stmClientSend (d : Dev) (p : Nat) (moves : List (Addr × Int)) : Dev :=
  let r := d.stmSend p moves
  (r.1.onSecTx p (fun x => { x with opu := x.opu ++ r.2 })).onOut (fun o => { o with line := smPut [] o.line (64 + p) r.2 })

/-- One OTU frame of a port: the client bytes that it takes, its client's next frame being built where fewer wait (R196). -/
def Dev.otuSend (d : Dev) (p : Nat) (moves : List (Addr × Int)) : Dev × List Byte :=
  let otu3 := d.portTy p == 6
  let n := opuNeed otu3
  let d1 := if (d.secTx p).opu.length < n then d.stmClientSend p moves else d
  let l := (d1.secTx p).opu.take n
  otuTransmit (d1.onSecTx p (fun x => { x with opu := x.opu.drop n })) p (opuPut otu3 l)

/-- A lane's transmitter sends bytes: none where it does not drive, inverted with TX_INVERT (R119). -/
def Dev.laneSend (d : Dev) (l : Nat) (bytes : List Byte) : Dev :=
  let r : Dev × List Byte :=
    if d.prbsDrives l then d.prbsSend l bytes.length
    else (d, if d.portDrives (lanePort d.active l) then bytes else [])
  r.1.onOut (fun o => { o with line := smPut [] o.line l (d.polarity l 1 r.2) })

/-- A line frame leaves at the pins: on a bonded port lane by lane (R109). -/
def Dev.pinsSend (d : Dev) (p mfas : Nat) (f : List Byte) : Dev :=
  if bonded d.active (p / 4) then [0, 1, 2, 3].foldl (fun (x : Dev) k => x.laneSend (p + k) (otlStripe mfas f k)) d
  else d.laneSend p f

/-- One transmit frame of a port (R15): it enters the port's signature and, where the transmitter drives, leaves at the pins. A lane in
PRBS sends its pattern whatever its port does (R127). -/
def transmitFrame (d : Dev) (p : Nat) (client : Bool) (moves : List (Addr × Int)) : Dev :=
  let otu := isOtu (d.portTy p)
  if !d.secRuns p then (if !client && d.prbsDrives p then d.laneSend p (zeros 2430) else d)
  else if client then (if otu then d.stmClientSend p moves else d)
  else
    let mfas := (d.secTx p).mfas
    let r := if otu then d.otuSend p moves else d.stmSend p moves
    (r.1.signBytes p r.2).pinsSend p mfas r.2

def execLineTransmitFrame (p : Fin 64) (client : Bool) (moves : List (Addr × Int)) (s : State) :
    Host.Outcome State Fault Refusal := done s (transmitFrame s.dev p.val client moves)

end Sys2Proof.Machine
end

