-- ==== Sys2Proof/Machine/Defect.lean ====
section
/-!
DEFINITION. Defects: raw and reported states, suppression, SD and SF, consequent actions, events and summaries (R217 to
R232).
-/
namespace Sys2Proof.Machine

/-! ## Raw states (Tables DF-1, DF-2) -/

/-- A mask of bits. -/
def maskOf (l : List Nat) : Nat := l.foldl (fun m i => m ||| 2 ^ i) 0

/-- The raw defects of a port: each named status, and the declared SD and SF. -/
def Dev.rawPort (d : Dev) (p : Nat) : Nat :=
  let al := d.rd (keyAt O.ALIGN_STATUS p)
  let otn := d.rd (keyAt O.OTN_STATUS p)
  let x := d.secRx p
  let b := smLook ({}, {}) d.ber (portAddr p)
  let otu := isOtu (d.portTy p)
  let stat := bits otn 8 3
  let on := fun (i : Nat) (c : Bool) => ofBit c * 2 ^ i
  on 0 (d.portLos p) + on 1 (d.portOof p) + on 2 (bit al 2) + on 5 x.msAis.1 + on 6 x.msRdi.1
    + on 7 (bit (d.rd (keyAt O.SO_STATUS p)) 0) + on 26 b.1.declared + on 27 b.2.declared
    + (if !otu then 0
       else on 3 (d.portTy p == 6 && bit (d.rd (keyAt O.OTL_STATUS p)) 15) + on 4 (bit al 4) + on 8 (bit otn 0)
         + on 9 x.smBdi.1 + on 10 (stat == 7) + on 11 (stat == 6) + on 12 (stat == 5) + on 13 (bit otn 1)
         + on 14 x.pmBdi.1 + on 15 (bit (d.rd (keyAt O.OPU_STATUS p)) 0) + on 16 (d.align.clientLof.contains p))

/-- The raw defects of a path. -/
def Dev.rawPath (d : Dev) (a : Nat) : Nat :=
  let ptr := d.rd (keyCtx O.PTR_STATUS a)
  let st := d.rd (keyCtx O.POH_STATUS a)
  let b := smLook ({}, {}) d.ber a
  let rdi := (d.pohOf a).rdi
  let on := fun (i : Nat) (c : Bool) => ofBit c * 2 ^ i
  on 17 (bits ptr 16 2 == 1) + on 18 (bits ptr 16 2 == 2 || bit ptr 25) + on 19 (bit st 9) + on 20 (bit st 7)
    + on 21 (bit st 8) + on 22 (rdi == 1) + on 23 (rdi == 2) + on 24 (rdi == 3) + on 25 (adLevel a == 2 && bit st 11)
    + on 26 b.1.declared + on 27 b.2.declared

/-- The server signal fail of a context (R219). -/
def Dev.ssf (d : Dev) (a : Nat) : Bool :=
  if adLevel a == 2 then
    !portOn d.active (d.ctxPort a) || bit (d.rd (keyCtx O.ACTION_STATUS (portAddr (d.ctxPort a)))) 4
  else if adLevel a == 1 then
    let par := parentOf d.active a
    bit (d.rd (keyCtx O.ACTION_STATUS par)) 4 || bit (d.rd (keyCtx O.DEFECT_RAW par)) 25
  else false

/-! ## Suppression (R218, R221, Table DF-2) -/

/-- Bits 0 to 4. -/
abbrev low5 : Nat := 0x1F

/-- The line server set of a port (R221). -/
def lineSet (otu : Bool) : Nat := if otu then low5 ||| maskOf [8, 10, 11, 12, 13, 15, 16] else 7

/-- The defects listed against a defect, at level 3; `src` is BER_SOURCE on an OTU port. -/
def suppressPort (otu : Bool) (src i : Nat) : Nat :=
  let ber := if otu && src == 1 then low5 else if otu && src == 2 then low5 ||| maskOf [8, 10, 11, 12]
    else lineSet otu ||| maskOf [7, 5]
  match i with
  | 1 => maskOf [0, 2, 3]
  | 2 => maskOf [0, 3]
  | 3 => 1
  | 4 => 0xF
  | 5 => lineSet otu ||| maskOf [7]
  | 6 => lineSet otu ||| maskOf [7, 5]
  | 7 => lineSet otu
  | 8 => low5
  | 9 => low5
  | 10 => low5 ||| maskOf [8]
  | 11 => low5 ||| maskOf [8]
  | 12 => low5 ||| maskOf [8]
  | 13 => low5 ||| maskOf [8, 10, 11, 12]
  | 14 => low5 ||| maskOf [8, 10, 11, 12]
  | 15 => low5 ||| maskOf [8, 10, 11, 12, 13]
  | 16 => low5 ||| maskOf [8, 10, 11, 12, 13, 15]
  | 26 => ber ||| maskOf [27]
  | 27 => ber
  | _ => 0

/-- The defects listed against a defect at levels 1 and 2; SSF is bit 31 here. -/
def suppressPath (i : Nat) : Nat :=
  let ssf := 2 ^ 31
  match i with
  | 17 => ssf
  | 18 => ssf ||| maskOf [17]
  | 19 => ssf ||| maskOf [17, 18]
  | 20 => ssf ||| maskOf [17, 18, 19]
  | 21 => ssf ||| maskOf [17, 18, 19, 20]
  | 22 => ssf ||| maskOf [17, 18, 19, 20]
  | 23 => ssf ||| maskOf [17, 18, 19, 20]
  | 24 => ssf ||| maskOf [17, 18, 19, 20]
  | 25 => ssf ||| maskOf [17, 18, 19, 20, 21]
  | 26 => ssf ||| maskOf [17, 18, 19, 20, 21, 27]
  | 27 => ssf ||| maskOf [17, 18, 19, 20, 21]
  | _ => 0

/-- The raw defects that may suppress others, by the flags of DEFECT_CTRL (R218). -/
def suppressors (level3 : Bool) (ctl raw : Nat) : Nat :=
  let drop := fun (c : Bool) (m v : Nat) => if c then v else v &&& (0xFFFFFFFF ^^^ m)
  drop (bit ctl 2) (maskOf [7, 8, 13, 20])
    (drop (bit ctl 3) (maskOf [19])
      (drop (bit ctl 4) (maskOf [15, 21])
        (drop (bit ctl 5 || !level3) (maskOf [27]) raw)))

/-- The bits of `raw` that no suppressor hides. -/
def reportedOf (sup : Nat → Nat) (eff raw : Nat) : Nat :=
  (List.range 28).foldl (fun m i => if bit raw i && eff &&& sup i == 0 then m ||| 2 ^ i else m) 0

/-! ## Actions (Tables DF-4, DF-8) -/

/-- AIS_OUT, MS-RDI, SM BDI and PM BDI of a port. -/
def portActions (otu : Bool) (ctl raw : Nat) : Bool × Bool × Bool × Bool :=
  let has := fun l => raw &&& maskOf l != 0
  let tim := bit ctl 2
  let smTim := tim && has [8]
  let pmTim := tim && has [13]
  let rsTim := tim && has [7]
  let ais := has [0, 1, 2, 3, 4, 5, 10, 11, 12, 16] || smTim || pmTim || rsTim || (bit ctl 4 && has [15])
    || (bit ctl 5 && has [27])
  let low := has [0, 2, 3]
  let sm := otu && (low || has [4] || smTim)
  (ais, low || has [5, 16] || rsTim, sm, sm || (otu && (has [10, 11, 12] || pmTim)))

/-- AIS_OUT and the upstream indication (0 none, 1 PD, 2 SD, 3 CD) of a path. -/
def pathActions (ctl raw : Nat) (ssf : Bool) : Bool × Nat :=
  let server := ssf || raw &&& maskOf [17, 18] != 0
  let conn := (bit ctl 3 && bit raw 19) || (bit ctl 2 && bit raw 20)
  let payload := bit ctl 4 && bit raw 21
  (server || conn || payload || (bit ctl 5 && bit raw 27),
    if server then 2 else if conn then 3 else if payload || bit raw 25 then 1 else 0)

/-- Whether the protection engine takes a context's indications: a member of a selector (R227). -/
def Dev.isMember (d : Dev) (a : Nat) : Bool :=
  d.genA (keyCtx O.SNCP_PROTECTING a) != 0 || (workingOf d.active a).isSome

/-! ## The visit (R217, R218, R228) -/

/-- The changes of a reported state: DEFECT_SEEN, LAST_CHANGE and one event for each bit, lowest first. -/
def Dev.report (d : Dev) (a new : Nat) : Dev :=
  let k := keyCtx O.DEFECT_REPORTED a
  let old := d.rd k
  if old == new then d
  else
    let d1 := ((d.wr k new).wr (keyCtx O.DEFECT_SEEN a) (d.rd (keyCtx O.DEFECT_SEEN a) ||| (new &&& (new ^^^ old)))).wr
      (keyCtx O.LAST_CHANGE a) d.time
    let d2 := if adLevel a == 3 then d1.putFlag O.PORT_DEFECT_MAP (adPort a) (new != 0) else d1
    (List.range 28).foldl (fun x i => if bit (old ^^^ new) i then
      x.raise { cls := clsDefect, inst := adPort a, level := adLevel a, addr := a, detail := i, clear := bit old i } else x) d2

/-- What the visit of a port records; a client in frame as ODU-AIS is declared goes OOF (R198). -/
def Dev.defectPort (d : Dev) (p : Nat) : Dev :=
  let a := portAddr p
  let otu := isOtu (d.portTy p)
  let ctl := d.genA (keyCtx O.DEFECT_CTRL a)
  let raw := d.rawPort p
  let rep := reportedOf (suppressPort otu (bits ctl 6 2)) (suppressors true ctl raw) raw
  let (ais, rdi, sm, pm) := portActions otu ctl raw
  let sf := ais || bit raw 27
  let act := ofBit (bit raw 26 && !sf) * 128 + ofBit sf * 64 + ofBit ais * 16 + ofBit rdi * 8 + ofBit sm * 4 + ofBit pm * 2
  let d1 := d.when (otu && bit raw 10 && !d.clientOof p) (fun x => x.holdClient p)
  let d2 := ((d1.wr (keyCtx O.DEFECT_RAW a) raw).wr (keyCtx O.ACTION_STATUS a) act).report a rep
  d2.verifyMark O.VERIFY_RDI_MAP p (d2.rd (keyCtx O.DEFECT_REPORTED a) &&& 0x4240 != 0)

/-- What the visit of a path records. -/
def Dev.defectPath (d : Dev) (a : Nat) : Dev :=
  let ctl := d.genA (keyCtx O.DEFECT_CTRL a)
  let raw := d.rawPath a
  let ssf := d.ssf a
  let rep0 := reportedOf suppressPath (suppressors false ctl raw + ofBit ssf * 2 ^ 31) raw
  let young := d.fld (keyCtx O.PTR_STATUS a) 16 2 == 2 && (smLook {} d.ptrRx a).age < d.genFld (keyCtx O.PTR_CTRL a) 0 4
  let rep := if young then rep0 &&& (0xFFFFFFFF ^^^ maskOf [18]) else rep0
  let (ais, ind0) := pathActions ctl raw ssf
  let ind := if d.terminates a then ind0 else 0
  let sf := ais || bit raw 27
  let mem := d.isMember a
  let act := ofBit (mem && bit raw 26 && !sf) * 128 + ofBit (mem && sf) * 64 + ofBit ssf * 32 + ofBit ais * 16
    + ofBit (ind ≥ 2) * 8 + ind * 2
  (((d.wr (keyCtx O.DEFECT_RAW a) raw).wr (keyCtx O.ACTION_STATUS a) act).report a rep).onPmAcc a (fun c => { c with
    neDef := c.neDef || ssf || raw &&& maskOf [17, 18, 19, 20] != 0, feDef := c.feDef || raw &&& maskOf [22, 23] != 0 })

/-- A defect visit of a port or a context. -/
def defectVisit (d : Dev) (a : Nat) : Dev :=
  if !(d.runs gDefect && d.hasRecord a) then d
  else if adLevel a == 3 then d.defectPort (adPort a)
  else d.defectPath a

def execDefectVisit (a : Addr) (s : State) : Host.Outcome State Fault Refusal := done s (defectVisit s.dev a.toNat)

/-- The path overhead visit; for a VC-3 in TUG-3 the same visit does the defect work (R201, R217). -/
def execPohVisit (a : Addr) (s : State) : Host.Outcome State Fault Refusal :=
  let d1 := pohVisit s.dev a.toNat
  done s (if d1.pathType a.toNat == 6 then defectVisit d1 a.toNat else d1)

/-! ## Error-rate blocks (R223) -/

/-- One block of `errs` errors ends: the declaration test, or a step of the clearing run. -/
def berStep (b : Ber) (errs : Nat) : Ber :=
  let blocks := (errs :: b.blocks).take 8
  if !b.declared then
    if blocks.sum ≥ 6 then { b with blocks := blocks, run := some (0, 0), declared := true } else { b with blocks := blocks }
  else
    let (n, e) := b.run.getD (0, 0)
    if n + 1 < 80 then { b with blocks := blocks, run := some (n + 1, e + errs) }
    else if e + errs ≤ 14 then { b with blocks := blocks, run := none, declared := false }
    else { b with blocks := blocks, run := some (0, 0) }

/-- The test at the end of the oldest complete block; none before a block of b periods is complete. -/
def berEnd (b : Ber) : Ber :=
  match b.full with
  | [] => b
  | e :: r => berStep { b with full := r } e

/-- A block of SD or SF ends on a context or port whose threshold is on. -/
def berBlockEnd (d : Dev) (a : Nat) (sf : Bool) : Dev :=
  if !(d.runs gDefect && d.hasRecord a && threshOf d.active a sf != 0) then d
  else
    let b := smLook ({}, {}) d.ber a
    { d with ber := smPut ({}, {}) d.ber a (if sf then (b.1, berEnd b.2) else (berEnd b.1, b.2)) }

def execBerBlockEnd (a : Addr) (sf : Bool) (s : State) : Host.Outcome State Fault Refusal :=
  done s (berBlockEnd s.dev a.toNat sf)

/-- The blocks and the clearing run of one defect restart; a threshold of 0 clears a declared one (R230). -/
def berRestart (on : Bool) (b : Ber) : Ber :=
  { declared := b.declared && on, run := if b.declared && on then some (0, 0) else none }

/-! ## Summaries and starts (R229 to R231) -/

/-- The contexts of a level with at least one reported defect. -/
def Dev.defective (d : Dev) (level : Nat) : Nat :=
  (d.contexts.filter (fun a => adLevel a == level && d.rd (keyCtx O.DEFECT_REPORTED a) != 0)).length

/-- The two counts are brought up to date. -/
def defectCounts (d : Dev) : Dev :=
  if d.runs gDefect then (d.wr O.HO_DEFECT_COUNT (d.defective 2)).wr O.LO_DEFECT_COUNT (d.defective 1) else d

def execDefectCountUpdate (s : State) : Host.Outcome State Fault Refusal := done s (defectCounts s.dev)

/-- A record takes the cleared state of R230, with no clearing event. -/
def Dev.defectStart (d : Dev) (a : Nat) : Dev :=
  let d1 := ((d.wr (keyCtx O.DEFECT_RAW a) 0).wr (keyCtx O.DEFECT_REPORTED a) 0).wr (keyCtx O.DEFECT_SEEN a) 0
  let d2 := { (d1.wr (keyCtx O.ACTION_STATUS a) 0) with ber := smDrop d.ber a, acts := smDrop d.acts a }
  if adLevel a == 3 then d2.putFlag O.PORT_DEFECT_MAP (adPort a) false
  else d2.onPohCtx a (fun x => { x with rdiRun := (0, 0), rdi := 0 })

end Sys2Proof.Machine
end

