-- ==== Sys2Proof/Machine/Pm.lean ====
section
/-!
DEFINITION. Performance monitoring: the one-second tick, path-class and client-class records, snapshots (R233 to R253).
-/
namespace Sys2Proof.Machine

/-! ## Bins (R242, R243, R245) -/

/-- The first second of the bin that holds second `n`. -/
def binStart (len n : Nat) : Nat := n / len * len

/-- A bin with a flag of Table PF-5 set. -/
def PmBin.flagged (b : PmBin) (i : Nat) : PmBin := { b with flags := b.flags ||| 2 ^ i }

/-- The current bin with a flag set. -/
def Bins.flagCur (x : Bins) (i : Nat) : Bins := { x with cur := x.cur.flagged i }

/-- A flag in the bin that holds a second. -/
def Bins.flagHeld (len second i : Nat) (x : Bins) : Bins :=
  let st := binStart len second
  if x.cur.start == st then x.flagCur i else if x.prev.start == st then { x with prev := x.prev.flagged i } else x

/-- The bins change roles when the new second `n` falls in a different bin; a written number sets TIME_SHIFT in both. `tick` is the
count of the tick that started it. -/
def Bins.roll (len n : Nat) (shift : Bool) (tick : Nat) (x : Bins) : Bins :=
  if binStart len n == x.cur.start then x
  else
    let mark := fun (b : PmBin) => if shift then b.flagged 2 else b
    { cur := mark { start := binStart len n }, prev := mark x.cur, ended := some tick }

/-- A close-out's rollover; from the close-outs of the tenth tick after its end on, the previous bin is SETTLED (R243). -/
def Bins.close (len n : Nat) (shift : Bool) (tick : Nat) (x : Bins) : Bins :=
  let y := x.roll len n shift tick
  match y.ended with
  | some e => if tick ≥ e + 10 then { y with prev := y.prev.flagged 5, ended := none } else y
  | none => y

/-- The rollovers that fell due during Clamp, once for each bin start passed, and its irregular seconds (R235, R237). -/
def Bins.release (len : Nat) (passed : List PassedTick) (x : Bins) : Bins :=
  (passed.foldl (fun (y : Bins) t =>
    ((if t.irregular then y.flagHeld len t.second 2 else y).roll len t.next t.shift t.tick).flagCur 1) x).flagCur 1

/-- Counters with some added, then some taken away, none below 0 (R241). -/
def addCounts (cnt add sub : List Nat) : List Nat := (cnt.zip (add.zip sub)).map (fun e => e.1 + e.2.1 - e.2.2)

/-- A correction reaches the bin that holds its second. -/
def Bins.correct (len second : Nat) (add sub : List Nat) (x : Bins) : Bins :=
  let st := binStart len second
  let fix := fun (b : PmBin) => { b with cnt := addCounts b.cnt add sub }
  if x.cur.start == st then { x with cur := fix x.cur }
  else if x.prev.start == st then { x with prev := fix x.prev }
  else x

/-! ## Classification (R238 to R240, Tables PF-1, PF-2) -/

/-- A direction's second: BBE, ES and SES from its blocks, errored blocks and defect. -/
def classifySecond (blocks err : Nat) (defect : Bool) : Nat × Bool × Bool :=
  let ses := defect || (blocks != 0 && err ≥ (3 * blocks + 9) / 10)
  let es := ses || err != 0
  (if ses then 0 else err, es, ses)

/-- The near-end second of a path. -/
def PmSec.near (s : PmSec) : Nat × Bool × Bool := classifySecond s.blocks s.neErr s.neDef

/-- The far-end second: nothing while the near end has a defect second. -/
def PmSec.far (s : PmSec) : Nat × Bool × Bool :=
  if s.neDef then (0, false, false) else classifySecond s.blocks s.feErr s.feDef

/-- What a second adds to the ten counters under given availability (R240). -/
def contribution (ne fe : Nat × Bool × Bool) (neUn feUn : Bool) (inc dec : Nat) : List Nat :=
  let both := !neUn && !feUn
  let part := fun (x : Nat × Bool × Bool) (un : Bool) =>
    if both then [x.1, ofBit x.2.1, ofBit x.2.2, 0] else [0, 0, 0, ofBit un]
  part ne neUn ++ part fe feUn ++ [inc, dec]

/-- A run toward a change of availability after one second, and whether it is confirmed. -/
def runToward (un ses : Bool) (run : Nat) : Nat × Bool :=
  if ses == un then (0, false) else if run + 1 ≥ 10 then (0, true) else (run + 1, false)

/-- The corrections of a confirmed change: the last ten seconds counted anew under the changed state (R241). -/
def PmCtx.recount (p : PmCtx) (change : PmHist → PmHist) : PmCtx :=
  p.hist.foldl (fun (q : PmCtx) h =>
    let h2 := change h
    let sub := contribution h.ne h.fe h.neUn h.feUn 0 0
    let add := contribution h2.ne h2.fe h2.neUn h2.feUn 0 0
    { q with b15 := q.b15.correct 900 h.second add sub, b24 := q.b24.correct 86400 h.second add sub
             hist := q.hist ++ [h2] }) { p with hist := [] }

/-- A counted second at its close-out (R239 to R241). -/
def PmCtx.count (p : PmCtx) (second : Nat) (s : PmSec) (ho irregular : Bool) : PmCtx :=
  let ne := s.near
  let fe := s.far
  let add := contribution ne fe p.neUn p.feUn (if ho then s.pjInc else 0) (if ho then s.pjDec else 0)
  let put := fun (b : PmBin) =>
    let b1 := { b with secs := b.secs + 1, cnt := addCounts b.cnt add (List.replicate 10 0) }
    let b2 := if irregular then b1.flagged 2 else b1
    if p.first then b2.flagged 1 else b2
  let (nr, nf) := runToward p.neUn ne.2.2 p.neRun
  let (fr, ff) := runToward p.feUn fe.2.2 p.feRun
  let h : PmHist := { second := second, ne := ne, fe := fe, neUn := p.neUn, feUn := p.feUn }
  let p1 := { p with
    b15 := { p.b15 with cur := put p.b15.cur }, b24 := { p.b24 with cur := put p.b24.cur }
    neRun := nr, feRun := fr, counting := true, first := false, hist := (p.hist ++ [h]).drop (p.hist.length - 9) }
  let p2 := if nf then { p1.recount (fun h => { h with neUn := !p.neUn }) with neUn := !p.neUn } else p1
  if ff then { p2.recount (fun h => { h with feUn := !p.feUn }) with feUn := !p.feUn } else p2

/-- A flag in the two bins that hold a second. -/
def PmCtx.flagHeld (p : PmCtx) (second i : Nat) : PmCtx :=
  { p with b15 := p.b15.flagHeld 900 second i, b24 := p.b24.flagHeld 86400 second i }

/-- A second that is not counted: INCOMPLETE in its bins, and TIME_SHIFT where it was irregular (R235); counting resumes with both
directions available (R245). -/
def PmCtx.miss (p : PmCtx) (second : Nat) (irregular : Bool) : PmCtx :=
  let q := p.flagHeld second 1
  { (if irregular then q.flagHeld second 2 else q) with
    neUn := false, feUn := false, neRun := 0, feRun := 0, counting := false, hist := [] }

/-- A record at its start: four empty bins, the second in progress not counted (R245, R247). -/
def pmFresh (n : Nat) : PmCtx :=
  { acc := { fresh := true }, b15 := { cur := { start := binStart 900 n } }, b24 := { cur := { start := binStart 86400 n } } }

/-! ## The tick (R234 to R237) -/

/-- Whether a locked Shadow follows the active's ticks (R322). -/
def Dev.tickFollows (d : Dev) : Bool := d.inShadow && d.paired && d.flag O.PAIR_STATUS 15

/-- A tick ends a second and starts the next with the old number plus 1, or the written one; a second that was irregular (R235) or that
a time step took effect in (R380) gets TIME_SHIFT in its bins. -/
def Dev.tick (d : Dev) (irregular : Bool) (number : Option Nat) : Dev :=
  let t := d.pmTime
  let next := if t.written then d.rd O.PM_SECOND else if t.started then (t.current + 1) % 2 ^ 32 else 0
  let n := number.getD next
  (((d.wr O.PM_SECOND n).wr O.LAST_TICK d.time).when irregular (fun x => x.set1 O.PM_TIME_STATUS 6)).onPmTime (fun t =>
    { t with ended := t.current, current := n, started := true, written := false, stepped := false, due := true
             irregular := irregular || t.stepped
             shift := t.written })

/-- Whether the device makes its own ticks: after Boot, with a management clock, and not as a locked Shadow. -/
def Dev.ticksOwn (d : Dev) : Bool := !d.inBoot && !d.flag O.CLAMP_CAUSE 0 && !d.tickFollows

/-- PPS_IN lost: the flywheel takes over (R235). -/
def Dev.ppsLost (d : Dev) : Dev :=
  ((d.putFld O.PM_TIME_STATUS 0 2 0).set1 O.PM_TIME_STATUS 4).onPmTime (fun t => { t with good := 0 })

/-- An edge of PPS_IN (R235): it qualifies, ticks or loses the input. -/
def ppsEdge (d : Dev) (falling : Bool) (interval since : Nat) : Dev :=
  let ctl := d.genA O.PM_TIME_CTRL
  if d.inBoot || d.flag O.CLAMP_CAUSE 0 || !bit ctl 0 || bit ctl 1 != falling then d
  else
    let inside := fun (n : Nat) => 999900000 ≤ n && n ≤ 1000100000
    let odd := !inside since && d.pmTime.started
    if d.flag O.PM_TIME_STATUS 0 then
      let d1 := if inside interval then d else d.ppsLost
      if d.tickFollows then d1 else d1.tick odd none
    else
      let good := if inside interval then d.pmTime.good + 1 else 0
      if good < 3 then d.onPmTime (fun t => { t with good := good })
      else
        let d1 := ((d.putFld O.PM_TIME_STATUS 0 2 3).set1 O.PM_TIME_STATUS 5).onPmTime (fun t => { t with good := 3 })
        if d.tickFollows || since < 500000000 then d1 else d1.tick odd none

def execPpsEdge (falling : Bool) (interval since : Nat) (s : State) : Host.Outcome State Fault Refusal :=
  done s (ppsEdge s.dev falling interval since)

/-- The flywheel's tick, while PPS_IN is not qualified. -/
def flywheelTick (d : Dev) : Dev := if d.ticksOwn && !d.flag O.PM_TIME_STATUS 0 then d.tick false none else d

def execFlywheelTick (s : State) : Host.Outcome State Fault Refusal := done s (flywheelTick s.dev)

/-- No edge in time: qualified PPS_IN is lost, and the flywheel ticks at that instant. -/
def ppsLoss (d : Dev) : Dev :=
  if d.inBoot || !d.flag O.PM_TIME_STATUS 0 then d
  else if d.ticksOwn then d.ppsLost.tick false none
  else d.ppsLost

def execPpsLoss (s : State) : Host.Outcome State Fault Refusal := done s (ppsLoss s.dev)

/-- A tick takes effect: every record's second is sealed, and the next starts. Where close-outs do not run, the second
counts for nothing and marks its bins (R236, R237, R245). -/
def tickEffect (d : Dev) : Dev :=
  let d0 := if d.tickFollows && d.pair.mateTick then
      (d.tick false (some d.pair.mateSecond)).onPair (fun p => { p with mateTick := false })
    else d
  if !d0.pmTime.due then d0
  else
    let t := d0.pmTime
    let visits := d0.runs gPm
    let sealP := fun (a : Nat) =>
      let p := smLook {} d0.pm a
      let q := { p with sealed := some p.acc, closed := !visits, acc := {} }
      (a, if visits then q else q.miss t.ended t.irregular)
    let sealC := fun (c : Nat) =>
      let p := smLook {} d0.cpm c
      (c, { p with sealed := if visits then some p.acc else none, acc := { defect := d0.clientDown c } })
    { d0 with
      pins := { d0.pins with tick := some d0.elapsed }
      pm := d0.contexts.map sealP
      cpm := ((List.range 32).filter (fun c => d0.clientType c != 0)).map sealC
      pmTime := { t with
        closed := t.ended, due := false, sealedIrr := t.irregular, sealedShf := t.shift
        whole := !t.broken, broken := !d0.pmCounts, ticks := t.ticks + 1
        passed := t.passed ++ (if d0.clamped && (t.irregular || binStart 900 t.ended != binStart 900 t.current) then
          [{ second := t.ended, irregular := t.irregular, next := t.current, shift := t.shift, tick := t.ticks + 1 }] else []) } }

def execTickEffect (s : State) : Host.Outcome State Fault Refusal := done s (tickEffect s.dev)

/-- The close-out of a path's second, with its rollover. -/
def closePath (d : Dev) (a : Nat) : Dev :=
  let p := smLook {} d.pm a
  match p.sealed with
  | none => d
  | some s =>
    if p.closed || !provisioned d.active a then d
    else
      let t := d.pmTime
      let p1 := if t.whole && !s.fresh then p.count t.closed s (adLevel a == 2) t.sealedIrr else p.miss t.closed t.sealedIrr
      { d with pm := smPut {} d.pm a { p1 with
        closed := true, b15 := p1.b15.close 900 t.current t.sealedShf t.ticks
        b24 := p1.b24.close 86400 t.current t.sealedShf t.ticks } }

/-! ## Client-class records (R248 to R251) -/

/-- SES_EVENTS of a client: the programmed value, or the default of Table PF-6. -/
def sesEvents (ctl ty : Nat) : Nat :=
  if bits ctl 0 16 != 0 then bits ctl 0 16
  else if ty == 2 || ty == 4 then 1200 else if ty == 3 then 300 else if ty == 5 then 100 else 2400

/-- A performance event of a client (R250). -/
def Dev.cpmEvent (d : Dev) (c detail : Nat) (clear : Bool := false) : Dev :=
  d.raise { cls := clsPerformance, inst := c, level := 1, addr := d.boundPath c, detail := detail, clear := clear }

/-- An alert after its count: declared at its threshold, cleared at half of it, off at 0. -/
def alertNow (was : Bool) (thr n : Nat) : Bool := thr != 0 && (if was then n > thr / 2 else n ≥ thr)

/-- The alerts of a client over its window: `sts` bit `i`, `evt` bit `i + 2`. -/
def Dev.cpmAlerts (d : Dev) (c : Nat) : Dev :=
  let k := keyAt O.CPM_STATUS c
  let w := (smLook {} d.cpm c).window
  let one := fun (x : Dev) (i thr n : Nat) =>
    let was := x.flag k i
    let now := alertNow was thr n
    let y := x.putFlag k i now
    if now && !was then (y.set1 k (i + 2)).cpmEvent c i else y
  let d1 := one d 1 (d.genA (keyAt O.ES_TCA_THRESH c)) (w.filter (fun e => e.1 && !e.2.2)).length
  one d1 2 (d1.genA (keyAt O.SES_TCA_THRESH c)) (w.filter (fun e => e.2.1 && !e.2.2)).length

/-- A confirmed change of a client's availability (R241, R249). -/
def Dev.cpmChange (d : Dev) (c : Nat) (last : List (Bool × Bool)) (un : Bool) : Dev :=
  let n := last.length
  let es := (last.filter (·.1)).length
  let ses := (last.filter (·.2)).length
  let shift := fun (x : Dev) (o : ObjId) (add sub : Nat) => x.wr (keyAt o c) (min (x.rd (keyAt o c) + add - sub) 0xFFFFFFFF)
  let d1 := if un then shift (shift (shift d O.CPM_ES 0 es) O.CPM_SES 0 ses) O.CPM_UAT n 0
    else shift (shift (shift d O.CPM_ES es 0) O.CPM_SES ses 0) O.CPM_UAT 0 n
  let p := smLook {} d1.cpm c
  let win := (p.window.take n).map (fun e => (e.1, e.2.1, un)) ++ p.window.drop n
  ((({ d1 with cpm := smPut {} d1.cpm c { p with window := win } }).putFlag (keyAt O.CPM_STATUS c) 0 un).set1
    (keyAt O.CPM_STATUS c) 5).cpmEvent c (if un then 3 else 4) (!un)

/-- The close-out of a client's second. -/
def closeClient (d : Dev) (c : Nat) : Dev :=
  let p := smLook {} d.cpm c
  match p.sealed with
  | none => d
  | some s =>
    let k := keyAt O.CPM_STATUS c
    let putC := fun (x : Dev) (q : CpmCtx) => { x with cpm := smPut {} x.cpm c q }
    if !d.pmTime.whole || s.fresh then (putC d { p with sealed := none, run := 0, last := [] }).putFlag k 0 false
    else
      let ctl := d.genA (keyAt O.CPM_CTRL c)
      let ty := d.clientType c
      let path := match (smLook {} d.pm (d.boundPath c)).sealed with
        | some q => if d.boundPath c == 0 then (0, false, false) else q.near
        | none => (0, false, false)
      let es := s.events != 0 || s.defect || path.2.1
      let ses := s.defect || (ty != 1 && s.events ≥ sesEvents ctl ty) || path.2.2
      let un := d.flag k 0
      let (run, flip) := runToward un ses p.run
      let last := ((es, ses) :: p.last).take 10
      let d1 := putC d { p with
        sealed := none, run := run, window := ((es, ses, un) :: p.window).take (bits ctl 16 12), last := last }
      let d2 := d1.count (keyAt O.CPM_SECONDS c) 1
      let d3 := if un then d2.count (keyAt O.CPM_UAT c) 1
        else (d2.count (keyAt O.CPM_ES c) (ofBit es)).count (keyAt O.CPM_SES c) (ofBit ses)
      (d3.when flip (fun x => x.cpmChange c last (!un))).cpmAlerts c

/-- A bin whose storage met an uncorrectable error: INVALID, its counters restarted at 0 (R245). -/
def PmBin.spoiled (x : PmBin) : PmBin := { x.flagged 4 with secs := 0, cnt := List.replicate 10 0 }

/-- A record with bin `i` of Table PF-4 spoiled. -/
def PmCtx.spoil (p : PmCtx) (i : Nat) : PmCtx :=
  if i == 0 then { p with b15 := { p.b15 with cur := p.b15.cur.spoiled } }
  else if i == 1 then { p with b15 := { p.b15 with prev := p.b15.prev.spoiled } }
  else if i == 2 then { p with b24 := { p.b24 with cur := p.b24.cur.spoiled } }
  else { p with b24 := { p.b24 with prev := p.b24.prev.spoiled } }

/-- An uncorrectable error in bin `i` of a context (R245). -/
def Dev.binSpoil (d : Dev) (a i : Nat) : Dev := { d with pm := smPut {} d.pm a ((smLook {} d.pm a).spoil i) }

/-- What ECC finds as a close-out visit reads bin `i` of its context (R31, R245). -/
def Dev.visitEcc (d : Dev) (a i : Nat) (ecc : Ecc) : Dev :=
  (d.when (ecc == .uncorrectable) (fun x => x.binSpoil a i)).eccHit 3 ecc

/-- A close-out visit, while the performance monitor runs. -/
def closeOut (d : Dev) (ecc : Ecc) (i : Nat) : PmTarget → Dev
  | .path a => if d.runs gPm && provisioned d.active a.toNat then closePath (d.visitEcc a.toNat i ecc) a.toNat else d
  | .client c => if d.runs gPm then closeClient d c.val else d

def execCloseOutVisit (t : PmTarget) (ecc : Ecc) (bin : Fin 4) (s : State) : Host.Outcome State Fault Refusal :=
  done s (closeOut s.dev ecc bin.val t)

/-- The management controller's rollover, while close-outs do not run (R237); those of Clamp wait for its release. -/
def managementRollover (d : Dev) : Dev :=
  if d.inBoot || d.clamped || d.runs gPm then d
  else
    let n := d.pmTime.current
    { d with pm := d.contexts.map (fun a =>
        let p := smLook {} d.pm a
        (a, { p with
          b15 := p.b15.roll 900 n d.pmTime.sealedShf d.pmTime.ticks
          b24 := p.b24.roll 86400 n d.pmTime.sealedShf d.pmTime.ticks })) }

def execManagementRollover (s : State) : Host.Outcome State Fault Refusal := done s (managementRollover s.dev)

/-- The rollovers at a release from Clamp (R237). -/
def Dev.pmRelease (d : Dev) : Dev :=
  let l := d.pmTime.passed
  { d with
    pm := d.contexts.map (fun a =>
      let p := smLook {} d.pm a
      (a, { p with b15 := p.b15.release 900 l, b24 := p.b24.release 86400 l }))
    pmTime := { d.pmTime with passed := [] } }

/-- A takeover that re-derives dynamic state: INVALID in both current bins of every context (R245). -/
def Dev.pmInvalidate (d : Dev) : Dev :=
  { d with pm := d.contexts.map (fun a =>
      let p := smLook {} d.pm a
      (a, { p with b15 := p.b15.flagCur 4, b24 := p.b24.flagCur 4 })) }

/-- A path's record starts (R247); a client's second and its run start anew (R245), its counters and windows stay (R248, R250). -/
def Dev.pmStart (d : Dev) (a : Nat) : Dev := { d with pm := smPut {} d.pm a (pmFresh d.pmTime.current) }
def Dev.cpmStart (d : Dev) (c : Nat) : Dev :=
  let p := smLook {} d.cpm c
  ({ d with cpm := smPut {} d.cpm c { acc := { fresh := true }, window := p.window } }).putFlag (keyAt O.CPM_STATUS c) 0 false

/-- The smallest and largest delay and the largest asymmetry of a client's readings (R251); a gated monitor keeps its objects (R39). -/
def Dev.cpmDelay (d : Dev) (c delay : Nat) (asym : Int) : Dev :=
  let lo := keyAt O.DELAY_MIN c
  let hi := keyAt O.DELAY_MAX c
  let as := keyAt O.ASYM_MAX c
  if d.gateOn gPm then ((d.wr lo (min (d.rd lo) delay)).wr hi (max (d.rd hi) delay)).wr as (max (d.rd as) asym.natAbs) else d

/-! ## Host commands -/

/-- A write of PM_SECOND (R234). One in the clock cycle of a tick loses. -/
def pmSecondWrite (v : Nat) (coincident : Bool) (d : Dev) : Dev × Nat :=
  d.ungated gPm (fun x => if coincident then (x.set1 O.PM_TIME_STATUS 7, 0)
    else ((x.wr O.PM_SECOND v).onPmTime (fun t => { t with written := true }), 0))

def execPmSecond (m : Master) (v : BitVec 32) (coincident : Bool) (s : State) : Host.Outcome State Fault Refusal :=
  hostNum s m O.PM_SECOND v.toNat (pmSecondWrite v.toNat coincident)

/-- The current bin cleared by the host (R246). -/
def Bins.clear (x : Bins) : Bins :=
  { x with cur := { x.cur.flagged 3 with secs := 0, cnt := List.replicate 10 0 } }

/-- PM_CLEAR: bit 0 of the value clears the 15-minute bin, bit 1 the 24-hour bin. -/
def pmClear (m : Master) (v : Nat) (d : Dev) : Dev × Nat :=
  d.onContext m gPm [1, 2] (fun a x =>
    if v < 1 || 3 < v then (x, abRange)
    else
      let p := smLook {} x.pm a
      ({ x with pm := smPut {} x.pm a { p with
        b15 := if bit v 0 then p.b15.clear else p.b15, b24 := if bit v 1 then p.b24.clear else p.b24 } }, 0))

def execPmClear15Min (m : Master) (s : State) : Host.Outcome State Fault Refusal :=
  hostNum s m O.PM_CLEAR 1 (pmClear m 1)

def execPmClear24Hour (m : Master) (s : State) : Host.Outcome State Fault Refusal :=
  hostNum s m O.PM_CLEAR 2 (pmClear m 2)

def execPmClearBoth (m : Master) (s : State) : Host.Outcome State Fault Refusal :=
  hostNum s m O.PM_CLEAR 3 (pmClear m 3)

/-- CPM_CLEAR: a client's counters, extremes and windows (Table PF-10). -/
def cpmClear (c v : Nat) (d : Dev) : Dev × Nat :=
  d.ungated gPm (fun x => trigger v x (fun y =>
    let z := [O.CPM_ES, O.CPM_SES, O.CPM_UAT, O.CPM_SECONDS, O.DELAY_MAX, O.ASYM_MAX].foldl (fun w o => w.wr (keyAt o c) 0) y
    let p := smLook {} z.cpm c
    (({ z.wr (keyAt O.DELAY_MIN c) 0xFFFFFFFF with cpm := smPut {} z.cpm c { p with window := [] } }).cpmAlerts c, 0)))

def execCpmClear (m : Master) (c : Fin 32) (v : BitVec 8) (s : State) : Host.Outcome State Fault Refusal :=
  hostNum s m (keyAt O.CPM_CLEAR c.val) v.toNat (cpmClear c.val v.toNat)

/-! ## Records as bytes -/

/-- The 64 bytes of a bin record (Table PF-3). -/
def binBytes (ho : Bool) (b : PmBin) : List Byte :=
  bytesBE 4 b.start ++ bytesBE 4 (1 + b.flags + 64 * ofBit ho) ++ bytesBE 4 b.secs
    ++ (b.cnt.take 10).flatMap (bytesBE 4) ++ List.replicate 12 0

/-- A bin of a record by its number (Table PF-4). -/
def PmCtx.bin (p : PmCtx) (i : Nat) : PmBin :=
  if i == 0 then p.b15.cur else if i == 1 then p.b15.prev else if i == 2 then p.b24.cur else p.b24.prev

/-- PM_STATE of a context (Table PF-11). -/
def pmState (p : PmCtx) : Nat :=
  ofBit p.neUn + 2 * ofBit p.feUn + 4 * ofBit p.counting + 256 * p.neRun + 4096 * p.feRun

/-- Whether PM_BLOCK_SELECT takes a value (R253). -/
def pmSelectOk (v : Nat) : Bool := (bits v 29 3 == 1 || bits v 29 3 == 2) && bits v 18 11 == 0

/-- The internal numbers of a level: their limit, and the context that has one in the active generation. -/
def classSize (level : Nat) : Nat := if level == 2 then 12288 else if level == 1 then 49152 else 64
def Dev.byNumber (d : Dev) (level n : Nat) : Option Nat :=
  ((d.active.numbers.find? (fun e => adLevel e.1 == level && e.2 == n))).map (·.1)

/-- How many records a read of PM_BLOCK returns to a host that takes `maxLen` bytes (R253, R471). -/
def pmBlockCount (d : Dev) (m : Master) (maxLen : Nat) : Nat :=
  let sel := d.rd (keyOf O.PM_BLOCK_SELECT (masterNo m))
  min (min 64 (maxLen / 64)) (classSize (bits sel 29 3) - bits sel 0 16)

/-- Record `i` of PM_BLOCK: the context that has its number in the active generation, and its bytes; an unallocated number is a record
of zeros. -/
def pmBlockRecord (d : Dev) (m : Master) (i : Nat) : Option Nat × List Byte :=
  let sel := d.rd (keyOf O.PM_BLOCK_SELECT (masterNo m))
  let level := bits sel 29 3
  match d.byNumber level (bits sel 0 16 + i) with
  | some a => (some a, binBytes (level == 2) ((smLook {} d.pm a).bin (bits sel 16 2)))
  | none => (none, List.replicate 64 0)

/-- PM_BLOCK: consecutive records from the selected number. -/
def pmBlock (d : Dev) (m : Master) (maxLen : Nat) : List Byte × Nat :=
  let n := pmBlockCount d m maxLen
  ((List.range n).flatMap (fun i => (pmBlockRecord d m i).2), n)

/-- A completed read advances the selector's number by the records returned. -/
def pmBlockDone (d : Dev) (m : Master) (n : Nat) : Dev :=
  let k := keyOf O.PM_BLOCK_SELECT (masterNo m)
  d.putFld k 0 16 (d.fld k 0 16 + n)

/-! ## Snapshots (R252) -/

/-- A SYNC's snapshot at the boundary: closed seconds' close-outs come first, so that the copy reflects every second up
to SNAP_SECOND and no other. A gated monitor takes none (R39). -/
def pmSnapshot (d : Dev) : Dev :=
  if !d.pmTime.snap then d
  else if !d.gateOn gPm then d.onPmTime (fun t => { t with snap := false })
  else
    let d0 := if d.runs gPm then (List.range 32).foldl closeClient d else d
    let d1 := (List.range 32).foldl (fun x c =>
      x.wrStr (O.CPM_SNAPSHOT + c) ([O.CPM_ES, O.CPM_SES, O.CPM_UAT, O.CPM_SECONDS].flatMap (fun o =>
        bytesBE 4 (x.rd (keyAt o c))))) d0
    ((d1.wr O.SNAP_SECOND d1.pmTime.closed).count O.SNAP_COUNT 1).onPmTime (fun t => { t with snap := false })

def execPmSnapshot (s : State) : Host.Outcome State Fault Refusal := done s (pmSnapshot s.dev)

end Sys2Proof.Machine
end

