-- ==== Sys2Proof/Machine/Protection.lean ====
section
/-!
DEFINITION. Protection switching: the latch, hold-off, requests and priorities, commands, MSP signalling and the mass
switch (R254 to R277).
-/
namespace Sys2Proof.Machine

/-! ## Groups and selectors, by the working member's address -/

/-- The status, command and count objects of a selector, or of a group (level 3). -/
def protStatus (w : Nat) : Key := if adLevel w == 3 then keyAt O.MSP_STATUS (adPort w) else keyCtx O.SNCP_STATUS w
def protCommand (w : Nat) : Key := if adLevel w == 3 then keyAt O.MSP_COMMAND (adPort w) else keyCtx O.SNCP_COMMAND w
def protSwitches (w : Nat) : Key := if adLevel w == 3 then keyAt O.MSP_SWITCHES (adPort w) else keyCtx O.SNCP_SWITCHES w
def protLast (w : Nat) : Key :=
  if adLevel w == 3 then keyAt O.MSP_LAST_SWITCH (adPort w) else keyCtx O.SNCP_LAST_SWITCH w

/-- MSP_CTRL or SNCP_CTRL in a bank. -/
def protCtl (b : Bank) (w : Nat) : Nat :=
  if adLevel w == 3 then bankRd b (keyAt O.MSP_CTRL (adPort w)) else bankRd b (keyCtx O.SNCP_CTRL w)

/-- The protecting member that a bank gives a working member; 0 where it has none or is no group. -/
def protPartner (b : Bank) (w : Nat) : Nat :=
  if adLevel w == 3 then
    (if bit (protCtl b w) 31 then portAddr (bankRd b (keyAt O.PROTECTION_PORT (adPort w))) else 0)
  else if provisioned b w then bankRd b (keyCtx O.SNCP_PROTECTING w) else 0

/-- Whether a selector or group is active: its protecting member exists (R257). -/
def protActive (b : Bank) (w : Nat) : Bool :=
  let p := protPartner b w
  p != 0 && (adLevel w == 3 || provisioned b p)

/-- The groups and selectors of a bank, working members in ascending order of address. -/
def protAll (b : Bank) : List Nat :=
  (b.numbers.map (·.1)).filter (fun a => protPartner b a != 0)
    ++ ((List.range 64).map portAddr).filter (fun a => protPartner b a != 0)

def Dev.protOf (d : Dev) (w : Nat) : Prot := smLook {} d.prot w
def Dev.onProt (d : Dev) (w : Nat) (f : Prot → Prot) : Dev := { d with prot := smPut {} d.prot w (f (smLook {} d.prot w)) }

/-! ## Triggers (R258, R261) -/

/-- The present triggers of a port or context, its ancestors' apart (Table PS-2). -/
def Dev.triggersNow (d : Dev) (a : Nat) : Nat :=
  let act := d.rd (keyCtx O.ACTION_STATUS a)
  let slow := 16 * ofBit (bit act 6) + 32 * ofBit (bit act 7)
  if adLevel a == 3 then
    let p := adPort a
    ofBit (d.portLos p) + 2 * ofBit (d.portOof p || (isOtu (d.portTy p) && d.clientOof p))
      + 4 * ofBit (d.secRx p).msAis.1 + slow
  else 8 * ofBit (d.flag (keyCtx O.PTR_STATUS a) 23) + slow

/-- The latch of a frame boundary. -/
def Dev.latchTriggers (d : Dev) : Dev :=
  if !d.runs gProtection then d
  else { d with latched := ((d.contexts ++ (portsOn d.active).map portAddr).map (fun a => (a, d.triggersNow a))).filter (·.2 != 0) }

/-- A member's latched triggers: its own and its ancestors'. -/
def Dev.memberTriggers (d : Dev) (a : Nat) : Nat :=
  let own := smLook 0 d.latched a
  let port := smLook 0 d.latched (portAddr (d.ctxPort a))
  if adLevel a == 3 then own
  else if adLevel a == 2 then own ||| port
  else own ||| port ||| smLook 0 d.latched (parentOf d.active a)

/-! ## Requests (R259, R263, Table PS-3) -/

/-- A member's SF and SD requests and hold-off timer after a latch; `true` marks the SD class. -/
def memberStep2 (holdOff trig : Nat) (sf sd : Bool) (hold : Option (Bool × Bool)) : Bool × Bool × Option (Bool × Bool) :=
  let setSf := trig &&& 0x1F != 0
  let setSd := bit trig 5
  let sf2 := setSf && (sf || holdOff == 0 || hold == some (false, true))
  let sd2 := setSd && (sd || holdOff == 0 || hold == some (true, true))
  let h := match hold with
    | some (c, false) => some (c, false)
    | _ => if setSf && !sf2 then some (false, false) else if setSd && !sd2 then some (true, false) else none
  (sf2, sd2, h)

/-- What a selector or group weighs at a visit. -/
structure Weigh where
  wSf : Bool
  wSd : Bool
  pSf : Bool
  pSd : Bool
  cmd : Nat
  wtr : Bool
  exer : Bool
  dnr : Bool
  revertive : Bool
  sel : Bool
deriving DecidableEq, Repr

/-- The REQUEST of an external command. -/
def commandRank (c : Nat) : Nat :=
  if c == 2 then 9 else if c == 3 || c == 4 then 8 else if c == 5 || c == 6 then 5 else if c == 7 then 3 else 0

/-- The highest request and the member it selects (`true` is protection). -/
def topRequest (x : Weigh) : Nat × Bool :=
  if x.cmd == 2 || x.pSf then (9, false)
  else if x.cmd == 3 then (8, true)
  else if x.cmd == 4 then (8, false)
  else if x.wSf then (7, true)
  else if x.wSd || x.pSd then (6, x.wSd && !x.pSd)
  else if x.cmd == 5 then (5, true)
  else if x.cmd == 6 then (5, false)
  else if x.wtr then (4, true)
  else if x.exer then (3, x.sel)
  else if x.dnr then (1, true)
  else (0, x.sel && !x.revertive)

/-- The command that waits for this visit acts (R264): the device's items, the refusal. -/
def takeCommand (p : Prot) (rank : Nat) : Prot × Bool :=
  match p.next with
  | none => (p, false)
  | some 1 => ({ p with next := none, cmd := 0, wtr := none, exer := false }, false)
  | some c =>
    if commandRank c < rank then ({ p with next := none }, true)
    else if c == 7 then ({ p with next := none, exer := true }, false)
    else if 2 ≤ c && c ≤ 6 then ({ p with next := none, cmd := c }, false)
    else ({ p with next := none }, false)

/-- What a visit decides: the requests, the timers, the command, the highest request and the local selection. -/
structure Decision where
  p    : Prot
  x    : Weigh
  rank : Nat
  sel  : Bool
  refused : Bool
deriving DecidableEq, Repr

/-- The decision of a group or selector at its visit, from the latched triggers (R259 to R266). -/
def decide1 (group : Bool) (ctl status trigW trigP now : Nat) (p : Prot) : Decision :=
  let en := bits ctl 0 6
  let hold := bits ctl 17 7
  let (wSf, wSd, hw) := memberStep2 hold (trigW &&& en) (bit status 2) (bit status 3) p.holdW
  let (pSf, pSd, hp) := memberStep2 hold (trigP &&& en) (bit status 4) (bit status 5) p.holdP
  let sel := bit status 0
  let revertive := bit ctl 16
  let cleared := (bit status 2 || bit status 3) && !wSf && !wSd && sel
  let p1 : Prot := { p with
    holdW := hw, holdP := hp, exer := p.exer && group
    wtr := if cleared && revertive then some (now + bits ctl 24 4 * 60000000000) else p.wtr
    dnr := p.dnr || (cleared && !revertive) }
  let weigh := fun (q : Prot) => ({
    wSf := wSf, wSd := wSd, pSf := pSf, pSd := pSd, cmd := q.cmd, wtr := q.wtr.isSome, exer := q.exer, dnr := q.dnr
    revertive := revertive, sel := sel } : Weigh)
  let (p2, refused) := takeCommand p1 (topRequest (weigh p1)).1
  let (rank, want) := topRequest (weigh p2)
  let p3 : Prot := { p2 with
    cmd := if commandRank p2.cmd < rank then 0 else p2.cmd
    wtr := if rank > 4 then none else p2.wtr
    dnr := p2.dnr && (rank ≤ 1 || rank == 3) }
  { p := p3, x := weigh p3, rank := rank, sel := want, refused := refused }

/-- The status fields that a visit writes, requests apart from REQUEST. -/
def statusOf (old : Nat) (t : Decision) (rank : Nat) : Nat :=
  let v0 := putBits (putBits (putBits (putBits old 2 1 (ofBit t.x.wSf)) 3 1 (ofBit t.x.wSd)) 4 1 (ofBit t.x.pSf)) 5 1 (ofBit t.x.pSd)
  let v1 := putBits (putBits (putBits v0 6 1 (ofBit (t.p.holdW.isSome || t.p.holdP.isSome))) 7 1 (ofBit t.p.wtr.isSome)) 8 4 rank
  if t.refused then v1 ||| 2 ^ 13 else v1

/-- The command that a read returns: LO, FS or MS in force (Table PS-9). -/
def Dev.showCommand (d : Dev) (w : Nat) : Dev := d.wr (protCommand w) (d.protOf w).cmd

/-! ## Selector visits -/

/-- A selector's visit; an inactive one passes the working member (R257). -/
def selectorVisit (d : Dev) (w : Nat) : Dev :=
  if !d.runs gProtection || adLevel w == 3 || protPartner d.active w == 0 then d
  else
    let k := protStatus w
    if !protActive d.active w then d.putFlag k 12 true
    else
      let p := protPartner d.active w
      let st := d.rd k
      let t := decide1 false (protCtl d.active w) st (d.memberTriggers w) (d.memberTriggers p) d.elapsed (d.protOf w)
      (((d.onProt w (fun _ => { t.p with want := t.sel })).wr k (putBits (statusOf st t t.rank) 12 1 0)).showCommand w)

def execSelectorVisit (a : Addr) (s : State) : Host.Outcome State Fault Refusal := done s (selectorVisit s.dev a.toNat)

/-! ## MSP groups (R267 to R269) -/

/-- K1 bits 1-4 of a REQUEST, and the REQUEST of a code (Table PS-3); none for a code not in the table. -/
def k1Code (r : Nat) : Nat :=
  if r == 9 then 15 else if r == 8 then 14 else if r == 7 then 13 else if r == 6 then 11 else if r == 5 then 8
  else if r == 4 then 6 else if r == 3 then 4 else if r == 2 then 2 else if r == 1 then 1 else 0
def k1Request (c : Nat) : Option Nat :=
  if c == 15 then some 9 else if c == 14 then some 8 else if c == 13 then some 7 else if c == 11 then some 6
  else if c == 8 then some 5 else if c == 6 then some 4 else if c == 4 then some 3 else if c == 2 then some 2
  else if c == 1 then some 1 else if c == 0 then some 0 else none

/-- The K1/K2 accepted on a group's protection port. -/
def Dev.farK (d : Dev) (w : Nat) : Nat := d.rd (keyAt O.K1K2_ACCEPTED (d.genA (keyAt O.PROTECTION_PORT w)))

/-- A group's decision: the local request, or RR where a bidirectional group follows a higher far-end request (R268;
log entry 23 on what counts as one). -/
def mspDecide (d : Dev) (w : Nat) : Dev :=
  let a := portAddr w
  if !d.runs gProtection || !protActive d.active a then d
  else
    let ctl := protCtl d.active a
    let k := protStatus a
    let st := d.rd k
    let t := decide1 true ctl st (d.memberTriggers a) (d.memberTriggers (protPartner d.active a)) d.elapsed (d.protOf a)
    let far := d.farK w
    let farRank := (k1Request (bits far 12 4)).getD 0
    let farChan := bits far 8 4
    let oneOne := bit ctl 30
    let bidir := bit ctl 29 && bits st 21 3 == 0
    let reverse := bidir && farRank > t.rank && farRank != 2
    let rank := if reverse then 2 else t.rank
    let want0 := if !reverse then t.sel else if farRank == 3 then bit st 0 else farChan == 1
    let want := want0 && (!(oneOne && bidir) || bits far 4 4 == 1)
    let bridge := if !oneOne then true else if bidir then farChan == 1 else bit st 1
    let chan := if reverse then farChan
      else if rank == 9 then 0
      else if rank == 3 || rank == 4 || rank == 7 || rank == 1 then 1
      else ofBit want0
    let k12 := k1Code rank * 4096 + chan * 256 + ofBit bridge * 16 + ofBit oneOne * 8 + (if bit ctl 29 then 5 else 4)
    let v := putBits (statusOf st t rank) 16 4 (bits far 12 4)
    ((d.onProt a (fun _ => { t.p with want := want, bridge := bridge, k := k12 })).wr k v).showCommand a

/-- A port's section visit: the section's work, then the decision of a group whose working port it is (R16, R261). -/
def sectionVisit (d : Dev) (p : Nat) : Dev := mspDecide (d.sectionWork p) p

def execSectionVisit (p : Fin 64) (s : State) : Host.Outcome State Fault Refusal := done s (sectionVisit s.dev p.val)

/-- A protection event (Table FC-1). -/
def Dev.protEvent (d : Dev) (code n a : Nat) : Dev :=
  d.raise { cls := clsProtection, inst := 0, level := adLevel a, addr := a, detail := code * 2 ^ 24 + min n 0xFFFFFF }

/-- The status bit and event code of an APS failure, and whether its cause holds (R269). -/
def apsBit : ApsFailure → Nat
  | .fop => 23 | .archMismatch => 22 | .modeMismatch => 21
def apsCode : ApsFailure → Nat
  | .fop => 2 | .archMismatch => 3 | .modeMismatch => 4
def Dev.apsCause (d : Dev) (w : Nat) (f : ApsFailure) : Bool :=
  let ctl := protCtl d.active (portAddr w)
  let far := d.farK w
  match f with
  | .archMismatch => bit far 3 != bit ctl 30
  | .modeMismatch => bit ctl 29 && bits far 0 3 == 4
  | .fop => bits far 4 4 != bits (d.rd (keyAt O.K_TX w)) 8 4 || (k1Request (bits far 12 4)).isNone

/-- An APS failure is declared after 50 ms of its cause. -/
def fopDeclare (d : Dev) (w : Nat) (f : ApsFailure) : Dev :=
  let k := keyAt O.MSP_STATUS w
  if !d.runs gProtection || !protActive d.active (portAddr w) || !d.apsCause w f || d.flag k (apsBit f) then d
  else (((d.putFlag k (apsBit f) true).set1 k 20).count (keyAt O.FOP_COUNT w) 1).protEvent (apsCode f) 0 (portAddr w)

def execFopDeclare (p : Fin 64) (f : ApsFailure) (s : State) : Host.Outcome State Fault Refusal :=
  done s (fopDeclare s.dev p.val f)

/-- An APS failure clears after 50 ms without its cause. -/
def apsClear (d : Dev) (w : Nat) (f : ApsFailure) : Dev :=
  if !d.runs gProtection || !protActive d.active (portAddr w) || d.apsCause w f then d
  else d.putFlag (keyAt O.MSP_STATUS w) (apsBit f) false

def execApsFailureClear (p : Fin 64) (f : ApsFailure) (s : State) : Host.Outcome State Fault Refusal :=
  done s (apsClear s.dev p.val f)

/-! ## Timers -/

/-- The working member's address of a target. -/
def targetAddr : ProtTarget → Nat
  | .msp p => portAddr p.val
  | .sncp a => a.toNat

/-- A member's hold-off timer expires (R259): it takes effect at the next latch if a trigger of its class is set. -/
def holdOffExpiry (d : Dev) (w : Nat) (k : Member) : Dev :=
  if !d.runs gProtection || !protActive d.active w then d
  else
    let en := bits (protCtl d.active w) 0 6
    let trig := d.memberTriggers (match k with | .working => w | .protecting => protPartner d.active w) &&& en
    let fire := fun (h : Option (Bool × Bool)) => match h with
      | some (c, false) => if (if c then bit trig 5 else trig &&& 0x1F != 0) then some (c, true) else none
      | h => h
    let d1 := d.onProt w (fun p => match k with
      | .working => { p with holdW := fire p.holdW }
      | .protecting => { p with holdP := fire p.holdP })
    d1.putFlag (protStatus w) 6 ((d1.protOf w).holdW.isSome || (d1.protOf w).holdP.isSome)

def execHoldOffExpiry (t : ProtTarget) (k : Member) (s : State) : Host.Outcome State Fault Refusal :=
  done s (holdOffExpiry s.dev (targetAddr t) k)

/-- WTR expires (R265): REQUEST becomes NR, and working is selected at the next boundary. -/
def wtrExpiry (d : Dev) (w : Nat) : Dev :=
  if !d.runs gProtection || (d.protOf w).wtr.isNone then d
  else ((d.onProt w (fun p => { p with wtr := none, want := false })).putFld (protStatus w) 8 4 0).putFlag (protStatus w) 7 false

def execWtrExpiry (t : ProtTarget) (s : State) : Host.Outcome State Fault Refusal := done s (wtrExpiry s.dev (targetAddr t))

/-- An exercise of a group ends (R264). -/
def exerciseEnd (d : Dev) (p : Nat) : Dev :=
  if d.runs gProtection then d.onProt (portAddr p) (fun x => { x with exer := false }) else d

def execExerciseEnd (p : Fin 64) (s : State) : Host.Outcome State Fault Refusal := done s (exerciseEnd s.dev p.val)

/-! ## Commands (R264, Table PS-9) -/

/-- A command completes: the last one before a visit counts. -/
def commandApply (w c : Nat) (d : Dev) : Dev :=
  if c == 0 || protPartner d.active w == 0 then d else d.onProt w (fun p => { p with next := some c })

/-- A write of MSP_COMMAND or SNCP_COMMAND, applied in both units of a pair (R173, R264). -/
def commandWrite (w c : Nat) (d : Dev) : Dev × Nat :=
  let pw : PairedWrite := if adLevel w == 3 then { idx := 0x29C0 + adPort w, sub := 3, addr := 0, data := [BitVec.ofNat 8 c] }
    else { idx := 0x3040, sub := 3, addr := w, data := [BitVec.ofNat 8 c] }
  d.writeTogether pw (if c > 7 then abRange else 0) (commandApply w c)

/-- The write of a command by a master; a selector's working member must be a level 1 or 2 context of the active
generation (R78). -/
def hostCommand (s : State) (m : Master) (t : ProtTarget) (c : Nat) : Host.Outcome State Fault Refusal :=
  let w := targetAddr t
  let q : ReqBody := match t with
    | .msp p => .write (0x29C0 + p.val) 3 [BitVec.ofNat 8 c]
    | .sncp a => .writeAt a.toNat 0x3040 3 [BitVec.ofNat 8 c]
  hostTurn s m { tag := tagNone, body := q } (s.dev.plainWrite m (fun d => d.ungated gProtection (fun x =>
    if adLevel w != 3 && !(provisioned x.active w) then (x, abNoContext) else commandWrite w c x)))

def execClear (m : Master) (t : ProtTarget) (s : State) : Host.Outcome State Fault Refusal := hostCommand s m t 1
def execLockoutOfProtection (m : Master) (t : ProtTarget) (s : State) : Host.Outcome State Fault Refusal := hostCommand s m t 2
def execForcedSwitchToProtection (m : Master) (t : ProtTarget) (s : State) : Host.Outcome State Fault Refusal :=
  hostCommand s m t 3
def execForcedSwitchToWorking (m : Master) (t : ProtTarget) (s : State) : Host.Outcome State Fault Refusal :=
  hostCommand s m t 4
def execManualSwitchToProtection (m : Master) (t : ProtTarget) (s : State) : Host.Outcome State Fault Refusal :=
  hostCommand s m t 5
def execManualSwitchToWorking (m : Master) (t : ProtTarget) (s : State) : Host.Outcome State Fault Refusal :=
  hostCommand s m t 6
def execExercise (m : Master) (t : ProtTarget) (s : State) : Host.Outcome State Fault Refusal := hostCommand s m t 7

/-! ## Frame boundaries (R261, R262) -/

/-- The groups and selectors whose decided selection differs from the one in force, in ascending order. -/
def Dev.changing (d : Dev) : List Nat :=
  (protAll d.active).filter (fun w => protActive d.active w && (d.protOf w).want != d.flag (protStatus w) 0)

/-- One change of selection takes effect. -/
def Dev.switchOne (d : Dev) (w : Nat) : Dev :=
  let k := protStatus w
  (((d.putFlag k 0 (d.protOf w).want).set1 k 14).count (protSwitches w) 1).wr (protLast w) d.time

/-- The decisions of the frame take effect at its boundary: selections, bridges and K bytes, the summary and one event. -/
def Dev.applySelections (d : Dev) : Dev :=
  if !d.runs gProtection then d
  else
    let ch := d.changing
    let groups := (protAll d.active).filter (fun w => adLevel w == 3)
    let d1 := groups.foldl (fun x w =>
      (x.wr (keyAt O.K_TX (adPort w)) (x.protOf w).k).putFlag (protStatus w) 1 (x.protOf w).bridge) d
    let d2 := ch.foldl Dev.switchOne d1
    let on := ((protAll d.active).filter (fun w => protActive d.active w && d2.flag (protStatus w) 0)).length
    let d3 := d2.wr O.SELECTORS_ON_PROTECTION on
    match ch with
    | [] => d3
    | w :: r =>
      let n := r.length + 1
      let d4 := (d3.when (n > 1) (fun x => x.count O.MASS_SWITCH_EVENTS 1)).wr O.LAST_MASS_SWITCH_SIZE n
      (d4.wr O.LAST_MASS_SWITCH_TIME d.time).protEvent 1 n w

/-- A group or selector starts on working with NR, no timers and no command (R275, R276); `evt` fields stay. -/
def Dev.protStart (d : Dev) (w : Nat) : Dev :=
  let ctl := protCtl d.active w
  let group := adLevel w == 3
  let br := !group || !bit ctl 30
  let k := protStatus w
  let st := (d.rd k &&& 0x106000) + 2 * ofBit br + (if group then 0 else 4096 * ofBit (!protActive d.active w))
  ({ d with prot := smPut {} d.prot w { bridge := br, k := ofBit br * 16 + ofBit (group && bit ctl 30) * 8 + (if bit ctl 29 then 5 else 4) } }.wr k st).showCommand w

/-- A removed group or selector leaves nothing behind. -/
def Dev.protGone (d : Dev) (w : Nat) : Dev :=
  ({ d with prot := smDrop d.prot w }.wr (protStatus w) 0).wr (protCommand w) 0

end Sys2Proof.Machine
end

