-- ==== Sys2Proof/Machine/Client.lean ====
section
/-!
DEFINITION. Client ports: receive defects, the de-jitter buffer, route delay and latency pinning (R278 to R296).
-/
namespace Sys2Proof.Machine

/-- A client event (Table FC-1). -/
def Dev.clientEvent (d : Dev) (c detail : Nat) : Dev :=
  d.raise { cls := clsClient, inst := c, level := 1, addr := d.boundPath c, detail := detail }

/-! ## Receive side (R281, R282, Table CL-2) -/

/-- The bit of CLIENT_STATUS of a defect. -/
def defectBit : ClientDefect → Nat
  | .los => 0 | .ais => 1 | .lof => 2 | .lomf => 3 | .nMismatch => 4 | .rai => 5 | .intLof => 6

/-- The client types that a defect applies to. -/
def defectApplies (f : ClientDefect) (ty : Nat) : Bool :=
  match f with
  | .los => ty != 0
  | .ais => 1 ≤ ty && ty ≤ 5
  | .lof => 2 ≤ ty
  | .lomf => ty == 3
  | .nMismatch => ty == 6
  | .rai => 2 ≤ ty
  | .intLof => ty == 6

/-- A receive defect is declared; client defects mark the second (R248) and DEFECT_SEEN. -/
def clientDeclare (d : Dev) (c : Nat) (f : ClientDefect) : Dev :=
  let k := keyAt O.CLIENT_STATUS c
  let i := defectBit f
  if !d.clientRuns c || !defectApplies f (d.clientType c) || d.flag k i then d
  else
    let d1 := (d.putFlag k i true).verifyMark O.VERIFY_CLIENT_MAP c (i == 5)
    if i < 5 then (d1.set1 k 13).onCpmAcc c (fun a => { a with defect := true }) else d1

def execClientDefectDeclare (c : Fin 32) (f : ClientDefect) (s : State) : Host.Outcome State Fault Refusal :=
  done s (clientDeclare s.dev c.val f)

/-- A receive defect clears. -/
def clientClear (d : Dev) (c : Nat) (f : ClientDefect) : Dev :=
  if d.clientRuns c then d.putFlag (keyAt O.CLIENT_STATUS c) (defectBit f) false else d

def execClientDefectClear (c : Fin 32) (f : ClientDefect) (s : State) : Host.Outcome State Fault Refusal :=
  done s (clientClear s.dev c.val f)

/-- No CRC-4 multiframe alignment in 8 ms declares LOMF. -/
def execLomfTimeout (c : Fin 32) (s : State) : Host.Outcome State Fault Refusal :=
  done s (clientDeclare s.dev c.val .lomf)

/-- N_CHANNELS in force (Table CL-7). -/
def Dev.clientChannels (d : Dev) (c : Nat) : Nat := d.genFld (keyAt O.CLIENT_CTRL c) 20 4

/-- The bits of a DS1 or E1 frame. -/
def frameBits (ty : Nat) : Nat := if ty == 4 || ty == 5 then 193 else 256

/-- A received frame's bits enter the ingress queue of a bound client (R283): those of a C37.94 frame as a frame of the internal E1 that
carries its channels (R280). The queue of a client that nothing maps keeps the latest 4,096. -/
def Dev.ingressPush (d : Dev) (c : Nat) (data : List Byte) : Dev :=
  let ty := d.clientType c
  let raw := (bitsOf data).take (frameBits ty)
  d.onClient c (fun x =>
    let r := if ty == 6 then e1Frame x.e1 (relayChannels (d.clientChannels c) raw) else (x.e1, raw)
    { x with e1 := r.1, ingress := lastOf 4096 (x.ingress ++ r.2), came := min 4096 (x.came + r.2.length) })

/-- A client frame arrives: its bits go to the mapper, and an errored event counts while no client defect is raw (types with events
only) (R281, R283). -/
def clientReceive (d : Dev) (c : Nat) (errored : Bool) (data : List Byte) : Dev :=
  if !d.clientRuns c then d
  else
    let d1 := d.ingressPush c data
    if errored && !d.clientDown c && d.clientType c != 1 then
      (d1.count (keyAt O.CLIENT_ERRORS c) 1).onCpmAcc c (fun a => { a with events := a.events + 1 })
    else d1

def execClientReceiveFrame (c : Fin 32) (errored : Bool) (data : List Byte) (s : State) :
    Host.Outcome State Fault Refusal := done s (clientReceive s.dev c.val errored data)

/-! ## The buffer (R283, R284) -/

/-- R in kb/s, and F in ns (Tables CL-1, CL-4). -/
def clientRate (ty : Nat) : Nat := if ty == 4 || ty == 5 then 1544 else 2048
def clientFixed (ty : Nat) : Nat := if ty == 4 || ty == 5 then 78000 else if ty == 6 then 315000 else 65000

/-- PIN_SLEW in force. -/
def Dev.pinSlew (d : Dev) (c : Nat) : Nat := d.genFld (keyAt O.PIN_CTRL c) 8 5

/-- The mean fill now, with a slew: it approaches the target at PIN_SLEW of the rate, a starved buffer at the rate itself, since it reads
nothing (R284; log entry 24). -/
def Dev.fillBy (d : Dev) (c slew : Nat) : Nat :=
  let x := d.clientOf c
  let came := clientRate (d.clientType c) * (d.elapsed - x.since)
  let moved := if x.starved then came / 1000000 else came * slew / 1000000000000
  if x.fillAt ≤ x.target then min x.target (x.fillAt + moved) else max x.target (x.fillAt - moved)

def Dev.fillNow (d : Dev) (c : Nat) : Nat := d.fillBy c (d.pinSlew c)

/-- A change of PIN_SLEW goes on from the fill that the old one has given. -/
def Dev.slewChanged (d : Dev) (c old : Nat) : Dev :=
  let f := d.fillBy c old
  d.onClient c (fun x => { x with fillAt := f, since := d.elapsed })

/-- A new target, approached by slewing. -/
def Dev.slewTo (d : Dev) (c t : Nat) : Dev :=
  if (d.clientOf c).target == t then d
  else
    let f := d.fillNow c
    d.onClient c (fun x => { x with target := t, fillAt := f, since := d.elapsed })

/-- The write position moves by `m` bits: forward, over a gap that is read out as all ones, or back, so that what follows overwrites the
bits buffered last (R289). -/
def ClientSt.moved (x : ClientSt) (m : Int) : ClientSt :=
  if 0 ≤ m then ({ x with buf := x.buf ++ List.replicate m.toNat true } : ClientSt).fit
  else
    let n := (-m).toNat
    { x with buf := x.buf.take (x.buf.length - n), lead := x.lead - (n - x.buf.length) }

/-- The fill steps to its target at once. -/
def Dev.fillAtTarget (d : Dev) (c t : Nat) : Dev :=
  let m := (t : Int) - d.fillNow c
  d.onClient c (fun x => { x.moved m with target := t, fillAt := t, fillWas := ((x.fillWas : Int) + m).toNat, since := d.elapsed })

/-- A slip of the ingress queue: it recentres (R283). -/
def ingressSlip (d : Dev) (c : Nat) : Dev :=
  if d.clientRuns c then ((d.onClient c (fun x => x.recentred c)).set1 (keyAt O.CLIENT_STATUS c) 15).clientEvent c 1 else d

def execIngressSlip (c : Fin 32) (s : State) : Host.Outcome State Fault Refusal := done s (ingressSlip s.dev c.val)

/-- An empty buffer is starved until it has refilled (R284). -/
def bufferStarved (d : Dev) (c : Nat) : Dev :=
  if d.clientRuns c && !(d.clientOf c).starved then
    ((d.onClient c (fun x => { x with
      starved := true, fillAt := 0, fillWas := 0, lead := 0, buf := [], since := d.elapsed })).set1 (keyAt O.CLIENT_STATUS c) 14).clientEvent c 2
  else d

def execBufferStarved (c : Fin 32) (s : State) : Host.Outcome State Fault Refusal := done s (bufferStarved s.dev c.val)

/-- The newest `n` bits of the de-jitter buffer stay. -/
def ClientSt.keepNewest (x : ClientSt) (n : Nat) : ClientSt :=
  if x.buf.length ≤ n then { x with lead := min x.lead (n - x.buf.length) } else { x with lead := 0, buf := lastOf n x.buf }

/-- An overflowing buffer discards down to its target: the oldest bits go (log entry 149). -/
def bufferOverflow (d : Dev) (c : Nat) : Dev :=
  if d.clientRuns c then
    let t := (d.clientOf c).target
    ((d.onClient c (fun x => { x.keepNewest t with fillAt := t, fillWas := t, since := d.elapsed })).set1 (keyAt O.CLIENT_STATUS c) 14).clientEvent c 2
  else d

def execBufferOverflow (c : Fin 32) (s : State) : Host.Outcome State Fault Refusal := done s (bufferOverflow s.dev c.val)

/-- A starved buffer has refilled to its target. -/
def starvationEnd (d : Dev) (c : Nat) : Dev :=
  if d.clientRuns c && (d.clientOf c).starved then
    d.onClient c (fun x => { x with starved := false, fillAt := x.target, fillWas := x.target, since := d.elapsed })
  else d

def execStarvationEnd (c : Fin 32) (s : State) : Host.Outcome State Fault Refusal := done s (starvationEnd s.dev c.val)

/-! ## Transmit side (Table CL-3) -/

/-- The first of rows 2 to 4 of Table CL-3 that holds. -/
def Dev.clientRow (d : Dev) (c : Nat) : Nat :=
  let w := d.boundPath c
  if d.flag (keyAt O.CLIENT_TEST c) 0 then 2
  else if w == 0 || d.aisOut (d.feeding w) || d.flag (keyAt O.CLIENT_STATUS c) 6 || (d.clientOf c).intOnes
      || (d.clientOf c).starved then 3
  else 4

/-- The first row of Table CL-3 that holds. -/
def Dev.clientTxRow (d : Dev) (c : Nat) : Nat := if d.inert then 1 else d.clientRow c

/-- Whether a C37.94 port's frames toward the relay carry the yellow bit (R282). -/
def Dev.clientYellow (d : Dev) (c : Nat) : Bool :=
  let v := d.rd (keyAt O.CLIENT_STATUS c)
  d.clientRuns c && d.clientType c == 6 && (bit v 0 || bit v 2 || d.flag (keyAt O.CLIENT_TEST c) 1)

/-- CLIENT_STATUS as a read returns it: TX_AIS and YELLOW_TX are conditions of now. -/
def Dev.clientStatus (d : Dev) (c : Nat) : Nat :=
  let v := d.rd (keyAt O.CLIENT_STATUS c)
  let row := d.clientTxRow c
  let on := d.clientRuns c
  putBits (putBits v 7 1 (ofBit (on && (row == 2 || row == 3)))) 8 1 (ofBit (!d.inert && d.clientYellow c))

/-- The next `n` bits read from the de-jitter buffer; those never written, and those that it does not have, are free. -/
def ClientSt.read (x : ClientSt) (c n : Nat) : ClientSt × List Bool :=
  let a := x.gapBits c (min n x.lead)
  let l := x.buf.take (n - x.lead)
  let b := ({ a.1 with lead := x.lead - n, buf := x.buf.drop (n - x.lead) } : ClientSt).gapBits c (n - x.lead - l.length)
  (b.1, a.2 ++ l ++ b.2)

/-- Whole frames of 256 bits from the head of bits, and what is left. -/
def wholeFrames : Nat → List Bool → List (List Bool) × List Bool
  | 0, l => ([], l)
  | n + 1, l =>
    if l.length < 256 then ([], l)
    else
      let r := wholeFrames n (l.drop 256)
      (l.take 256 :: r.1, r.2)

/-- Demapped bits of the internal E1 (R280): framed under G.706 clause 4.1, afresh while INT_LOF is declared; the whole frames. -/
def ClientSt.intFrame (x : ClientSt) (lof : Bool) (l : List Bool) : ClientSt × List (List Bool) :=
  let all := lastOf 2048 (x.intBits ++ l)
  let ones := !l.isEmpty && l.all id
  let r := if x.intIn && !lof then some all else e1Search all
  match r with
  | some b =>
    let w := wholeFrames 8 b
    ({ x with intBits := w.2, intIn := true, intOnes := ones }, w.1)
  | none => ({ x with intBits := all, intIn := false, intOnes := ones }, [])

/-- The channels of a frame of the internal E1: time slots 1 to N. -/
def e1Channels (n : Nat) (f : List Bool) : List Byte := ((packMsb 32 f).drop 1).take n

/-- The frames of a C37.94 port toward the relay in one device frame: one for each whole frame of the internal E1, or one whose channel
data is all ones (R280, R282). -/
def relaySend (n : Nat) (yellow : Bool) (data : Option (List (List Bool))) (x : ClientSt) : ClientSt × List Bool :=
  let one := fun (s : ClientSt × List Bool) (chans : List Byte) =>
    ({ s.1 with e1 := { s.1.e1 with relay := s.1.e1.relay + 1 } }, s.2 ++ relayFrame n (s.1.e1.relay % 2 == 1) yellow chans)
  match data with
  | none => one (x, []) (allOnes n)
  | some l => (l.map (e1Channels n)).foldl one (x, [])

/-- One device frame of a client's transmit side (Table CL-3, R282, R284): the de-jitter buffer takes all ones while the bound path is in
AIS_OUT, and gives the frame's bits less what its fill has gained; they enter the port's signature (R328) and leave at CLI_TXD, where
nothing leaves while outputs are inert: CLI_TXD stays low, and CLI_TXC runs in Shadow only. -/
def Dev.clientSend (d : Dev) (c : Nat) : Dev :=
  if !d.clientRuns c then d.onOut (fun o => { o with client := smDrop o.client c })
  else
    let n := frameBits (d.clientType c)
    let w := d.boundPath c
    let d1 := if w != 0 && d.aisOut (d.feeding w) then d.clientWrite c (List.replicate n true) else d
    let fill := d1.fillNow c
    let x := d1.clientOf c
    let idle := w == 0 || x.starved
    let k := if idle then 0 else n + x.fillWas - fill
    let r := ({ x with fillWas := fill } : ClientSt).read c k
    let i := if d.clientType c == 6 && !idle then r.1.intFrame (d.flag (keyAt O.CLIENT_STATUS c) 6) r.2
      else ({ r.1 with intOnes := false }, [])
    let d2 := d1.onClient c (fun _ => i.1)
    let ais := d2.clientRow c != 4
    let s := if d.clientType c == 6 then
        relaySend (d.clientChannels c) (d.clientYellow c) (if ais then none else some i.2) i.1
      else (i.1, if ais then List.replicate (if idle then n else k) true else r.2)
    let d3 := (d2.onClient c (fun _ => s.1)).signBytes (96 + c) (packMsb ((s.2.length + 7) / 8) s.2)
    let pins := if !d.inert then s.2 else if d.inShadow then List.replicate s.2.length false else []
    d3.onOut (fun o => { o with client := smPut [] o.client c pins })

/-! ## Route delay and pinning (R285 to R293) -/

/-- The open-loop d_in: the selected member's route delay, the other's where it is not given, 0 where neither is (R287). -/
def Dev.openDelay (d : Dev) (c : Nat) : Nat :=
  let rw := d.genA (keyAt O.ROUTE_DELAY_W c)
  let rp := d.genA (keyAt O.ROUTE_DELAY_P c)
  if d.onProtecting (d.boundPath c) then (if rp != 0 then rp else rw) else if rw != 0 then rw else rp

/-- The local role: MARKER_MODE of the bound path; 0 for none (R288). -/
def Dev.clientRole (d : Dev) (c : Nat) : Nat :=
  if d.boundPath c == 0 then 0 else d.genFld (keyCtx O.POH_CTRL (d.boundPath c)) 22 2

/-- Nanoseconds in bits at the client's rate, rounded to the nearest. -/
def toBits (rate : Nat) (ns : Int) : Int := (2 * ns * (rate : Int) + 1000000) / 2000000

/-- Bits in nanoseconds, rounded to the nearest. -/
def toNs (rate bits : Nat) : Nat := (2 * bits * 1000000 + rate) / (2 * rate)

/-- The fill that a d_in gives (R286). -/
def Dev.fillFor (d : Dev) (c : Nat) (dIn : Int) : Int :=
  let ty := d.clientType c
  toBits (clientRate ty) ((d.genA (keyAt O.TARGET_DELAY c) : Int) * 1000 - dIn - (clientFixed ty : Int))

/-- PIN_STATE takes a value (R292). -/
def Dev.setPin (d : Dev) (c st : Nat) : Dev :=
  let k := keyAt O.PIN_STATUS c
  if d.fld k 0 3 == st then d
  else
    let d1 := (d.putFld k 0 3 st).set1 k 14
    if st == 4 then d1.clientEvent c 3 else if st == 5 then d1.clientEvent c 4 else d1

/-- A state with the fill it computes: below FILL_MIN the port is UNREACHABLE at FILL_MIN (Table CL-5). -/
def Dev.pinAt (d : Dev) (c st : Nat) (fill : Int) (step : Bool) : Dev :=
  let put := fun (x : Dev) (t : Nat) => if step then x.fillAtTarget c t else x.slewTo c t
  if fill < 128 then put (d.setPin c 5) 128 else put (d.setPin c st) (min fill.toNat 65408)

/-- MEMBER_SKEW (R289): the protecting member's stamp minus the working member's, for one edge; in open-loop the
difference of the route delays. -/
def Dev.skewWork (d : Dev) (c : Nat) : Dev :=
  let w := d.boundPath c
  let p := if w == 0 then 0 else d.partnerOf w
  let k := keyAt O.MEMBER_SKEW c
  let st := keyAt O.PIN_STATUS c
  let give := fun (v : Option Int) => match v with
    | some s => (d.wr k (ofSigned 32 s)).putFlag st 11 true
    | none => (d.wr k noReading).putFlag st 11 false
  if p == 0 then give none
  else if d.genFld (keyAt O.PIN_CTRL c) 0 2 == 1 || d.clientRole c == 0 then
    let rw := d.genA (keyAt O.ROUTE_DELAY_W c)
    let rp := d.genA (keyAt O.ROUTE_DELAY_P c)
    give (if rw != 0 && rp != 0 then some ((rp : Int) - (rw : Int)) else none)
  else if (d.pohOf w).marker.acc != (d.pohOf p).marker.acc then d
  else
    let a := d.rd (keyCtx O.MARKER_RX_EDGE w)
    let b := d.rd (keyCtx O.MARKER_RX_EDGE p)
    let diff : Int := (b : Int) - (a : Int)
    give (if a != 0 && b != 0 && diff.natAbs ≤ 64000000 then some diff else none)

/-- The skew, when it is valid. -/
def Dev.skew (d : Dev) (c : Nat) : Option Int :=
  if d.flag (keyAt O.PIN_STATUS c) 11 then some (toSigned 32 (d.rd (keyAt O.MEMBER_SKEW c))) else none

/-- The state of a port that pins to a fill it can reach (Table CL-5): by its mode, and whether it has a measured d_in. -/
def Dev.pinReached (d : Dev) (c : Nat) : Nat :=
  if d.genFld (keyAt O.PIN_CTRL c) 0 2 == 1 || d.clientRole c == 0 then 1
  else if (d.clientOf c).dIn.isSome then 3 else 2

/-- The selection that feeds the bound path has changed (R289): the write position, and with it the fill target, moves by the skew, and
d_in becomes that of the member now selected; or, without a valid skew, the port holds. A return from a change that made no step makes
none. -/
def Dev.pinSwitch (d : Dev) (c : Nat) : Dev :=
  let k := keyAt O.PIN_STATUS c
  let st := d.fld k 0 3
  if !d.clientRuns c || st == 0 then d
  else
    let toP := d.onProtecting (d.boundPath c)
    let d0 := d.onClient c (fun x => { x with skip := true })
    match d.skew c with
    | some s =>
      let by_ := if toP then s else if st == 4 && (d.clientOf c).before.isSome then 0 else -s
      let n := toBits (clientRate (d.clientType c)) by_
      let move := fun (v : Nat) => ((v : Int) - n).toNat
      let f := d.fillNow c
      let d1 := (d0.onClient c (fun x => { x.moved (-n) with
        target := move x.target, fillAt := move f, fillWas := move x.fillWas, since := d.elapsed
        offset := if toP then s else 0, dIn := x.dIn.map (· + by_) })).set1 k 13
      let x := d.clientOf c
      let t : Int := if st != 5 then (x.target : Int) - n
        else match (d1.clientOf c).dIn with
          | some v => d1.fillFor c v
          | none => d1.fillFor c (d1.openDelay c)
      if st == 4 && 128 ≤ t then d1 else d1.pinAt c (if st == 5 then d1.pinReached c else st) t false
    | none => if st == 4 then d0 else (d0.setPin c 4).onClient c (fun x => { x with before := some st })

/-- HOLD for want of a skew ends once a skew is valid (R291): the fill slews to the target that the skew gives, in the state held before or,
below FILL_MIN, in UNREACHABLE. -/
def Dev.holdEnds (d : Dev) (c : Nat) : Dev :=
  let x := d.clientOf c
  match x.before, d.skew c with
  | some st, some s =>
    if d.fld (keyAt O.PIN_STATUS c) 0 3 != 4 then d.onClient c (fun y => { y with before := none })
    else
      let toP := d.onProtecting (d.boundPath c)
      let o : Int := if toP then s else 0
      let t := (x.target : Int) - toBits (clientRate (d.clientType c)) (o - x.offset)
      (d.onClient c (fun y => { y with
        offset := o, before := none, dIn := y.dIn.map (· + (o - x.offset)) })).pinAt c (if st == 5 then d.pinReached c else st) t false
  | _, _ => d

/-- FAR_REPORT as held: READING, OFFSET, DELAY, ROLE, READING valid (Table CL-11). -/
structure FarReport where
  reading : Nat
  offset  : Int
  delay   : Nat
  role    : Nat
  valid   : Bool
deriving DecidableEq, Repr

/-- The fields of 16 report bytes. -/
def farOf (l : List Byte) : FarReport :=
  { reading := ofBytesBE (l.take 4), offset := toSigned 32 (ofBytesBE ((l.drop 4).take 4))
    delay := ofBytesBE ((l.drop 8).take 4), role := (l.getD 12 0).toNat, valid := (l.getD 13 0).getLsbD 0 }

/-- ASYM_ALARM (R293): |ASYMMETRY| exceeds the threshold in force; its declaration is an event. -/
def Dev.asymCheck (d : Dev) (c : Nat) : Dev :=
  let k := keyAt O.PIN_STATUS c
  let alarm := (d.clientOf c).dIn.isSome && (toSigned 32 (d.rd (keyAt O.ASYMMETRY c))).natAbs > d.genA (keyAt O.ASYM_THRESH c)
  let d1 := d.putFlag k 15 alarm
  if alarm && !d.flag k 15 then (d1.set1 k 12).clientEvent c 5 else d1

/-- A computation of R288 with its results (R293): a sum that halves to no whole number of ns rounds as a free value
says. The test of R290 applies again once a reading made after a selection change has been used (`fresh`). -/
def Dev.pinCompute (d : Dev) (c reading : Nat) (far : FarReport) (fresh : Bool) : Dev :=
  let x := d.clientOf c
  let role := d.clientRole c
  let rt : Int := if role == 2 then (reading : Int) - (far.reading : Int) else (far.reading : Int) - (reading : Int)
  let sum := rt + x.offset - far.offset
  let up := Config.freeBit d.free && sum % 2 != 0
  let dIn := sum / 2 + (if up then 1 else 0)
  let first := !x.locked
  let d1 := (d.fresh.pinAt c 3 (d.fillFor c dIn) first).onClient c (fun y => { y with
    dIn := some dIn, used := some reading, skip := y.skip && !fresh, locked := true })
  let ty := d.clientType c
  let delay := (dIn + (clientFixed ty : Int)).toNat + toNs (clientRate ty) (d1.fillNow c)
  let asym : Int := (delay : Int) - (far.delay : Int)
  let d2 := ((d1.wr (keyAt O.ROUND_TRIP c) (ofSigned 33 rt % 2 ^ 32)).wr (keyAt O.DELAY c) (min delay 0xFFFFFFFF)).wr
    (keyAt O.ASYMMETRY c) (ofSigned 32 asym)
  (d2.cpmDelay c (min delay 0xFFFFFFFF) asym).asymCheck c

/-- The fill of the states that follow d_in without a computation of their own. -/
def Dev.pinOpen (d : Dev) (c st : Nat) (step : Bool) : Dev := d.pinAt c st (d.fillFor c (d.openDelay c)) step

/-- A fill target that the generation in force gives anew (R295): TARGET_DELAY has changed at a switch-in. A port in HOLD keeps its target
(R290). -/
def Dev.pinRetarget (d : Dev) (c : Nat) : Dev :=
  let st := d.fld (keyAt O.PIN_STATUS c) 0 3
  if st == 0 || st == 4 then d
  else
    let next := if st == 2 then 2 else d.pinReached c
    match (d.clientOf c).dIn with
    | some v => if next == 1 then d.pinOpen c 1 false else d.pinAt c next (d.fillFor c v) false
    | none => d.pinOpen c next false

/-- Closed-loop work at a visit (R288 to R291). A report written and a reading made in one visit are used together (R295). -/
def Dev.pinClosed (d : Dev) (c : Nat) : Dev :=
  let x := d.clientOf c
  let w := d.boundPath c
  let k := keyAt O.PIN_STATUS c
  let st := d.fld k 0 3
  let m := (d.pohOf w).marker
  let lost := d.flag (keyCtx O.POH_STATUS w) 5
  let reading := d.rd (keyCtx (if d.clientRole c == 2 then O.MARKER_LOOP else O.MARKER_TURN) w)
  let far := farOf (d.rdStr (keyAt O.FAR_REPORT c))
  let farOk := d.flag k 10 && far.valid && far.role == 3 - d.clientRole c
  let fresh := m.reads != x.seen
  let d0 := d.onClient c (fun y => { y with seen := m.reads, farNew := false, seq := if fresh then (y.seq + 1) % 65536 else y.seq })
  if lost && (st == 3 || st == 4) then (d0.setPin c 2).onClient c (fun y => { y with before := none })
  else if st == 4 then
    if x.before.isNone && x.farNew && farOk && m.reads != 0 then d0.pinCompute c reading far fresh else d0
  else if st == 0 || st == 1 then (d0.pinOpen c 2 false)
  else
    let drift := match x.used with
      | some u => fresh && !x.skip && ((reading : Int) - (u : Int)).natAbs > 1000
      | none => false
    if drift && !(x.farNew && farOk) then d0.setPin c 4
    else if (fresh || x.farNew) && m.reads != 0 && farOk then d0.pinCompute c reading far fresh
    else if x.dIn.isSome then d0
    else d0.pinOpen c 2 false

/-- A held report whose ROLE has become the local role is discarded (R288). -/
def Dev.farCheck (d : Dev) (c : Nat) : Dev :=
  let role := d.clientRole c
  if role != 0 && (farOf (d.rdStr (keyAt O.FAR_REPORT c))).role == role then
    ((d.wrStr (keyAt O.FAR_REPORT c) (List.replicate 16 0)).putFlag (keyAt O.PIN_STATUS c) 10 false).onClient c
      (fun x => { x with farNew := false })
  else d

/-- The 16 bytes of PIN_REPORT (Table CL-11). -/
def Dev.pinReport (d : Dev) (c : Nat) : List Byte :=
  let x := d.clientOf c
  let role := d.clientRole c
  let m := (d.pohOf (d.boundPath c)).marker
  let ok := role != 0 && m.reads != 0
  let reading := if ok then d.rd (keyCtx (if role == 2 then O.MARKER_LOOP else O.MARKER_TURN) (d.boundPath c)) else 0
  bytesBE 4 reading ++ bytesBE 4 (ofSigned 32 x.offset) ++ bytesBE 4 (d.rd (keyAt O.DELAY c)) ++ bytesBE 1 role
    ++ bytesBE 1 (ofBit ok + 2 * ofBit x.dIn.isSome) ++ bytesBE 2 x.seq

/-- A client visit (R295): skew, pinning state, fill and report. -/
def clientVisit (d : Dev) (c : Nat) : Dev :=
  if !d.clientRuns c then d
  else
    let d1 := ((d.farCheck c).skewWork c).holdEnds c
    let mode := d1.genFld (keyAt O.PIN_CTRL c) 0 2
    let st := d1.fld (keyAt O.PIN_STATUS c) 0 3
    let d2 :=
      if mode == 0 then ((d1.setPin c 0).slewTo c 1024).onClient c (fun x => { x with before := none })
      else if mode == 1 || d1.clientRole c == 0 then (if st == 4 && (d1.clientOf c).before.isSome then d1 else d1.pinOpen c 1 false)
      else d1.pinClosed c
    (d2.wr (keyAt O.BUFFER_FILL c) (d2.fillNow c)).wrStr (keyAt O.PIN_REPORT c) (d2.pinReport c)

def execClientVisit (c : Fin 32) (s : State) : Host.Outcome State Fault Refusal := done s (clientVisit s.dev c.val)

/-- FAR_REPORT takes a value. -/
def farApply (c : Nat) (l : List Byte) (d : Dev) : Dev :=
  let v := (farOf l).valid
  ((d.wrStr (keyAt O.FAR_REPORT c) l).putFlag (keyAt O.PIN_STATUS c) 10 v).onClient c (fun x => { x with farNew := v })

/-- A write of FAR_REPORT: its ROLE must be the other of the two (R288); applied in both units of a pair (R295). -/
def farWrite (c : Nat) (l : List Byte) (d : Dev) : Dev × Nat :=
  let role := (farOf l).role
  let bad := (role != 1 && role != 2) || role == d.clientRole c
  d.writeTogether { idx := 0x3C20 + c, sub := 0xC, addr := 0, data := l }
    (if l.length != 16 then abLength else if bad then abRange else 0) (farApply c l)

def execFarReport (m : Master) (c : Fin 32) (l : List Byte) (s : State) : Host.Outcome State Fault Refusal :=
  hostWrite s m (0x3C20 + c.val) 0xC l (fun d => d.ungated gClient (farWrite c.val l))

/-- CLIENT_TEST takes a value (R295). -/
def clientTestApply (c v : Nat) (d : Dev) : Dev := d.wr (keyAt O.CLIENT_TEST c) v

def clientTestWrite (c v : Nat) (d : Dev) : Dev × Nat :=
  rsvdCheck (d.rd (keyAt O.CLIENT_TEST c)) v 0xFC
    (d.writeTogether { idx := 0x3C00 + c, sub := 4, addr := 0, data := [BitVec.ofNat 8 v] } 0 (clientTestApply c v))

/-! ## Starts and boundaries -/

/-- A port starts (R292): nothing learnt, the ingress queue at its centre, the buffer at the fill target of its state; `evt` fields
stay. -/
def Dev.clientStart (d : Dev) (c : Nat) : Dev :=
  let st := keyAt O.CLIENT_STATUS c
  let k := keyAt O.PIN_STATUS c
  let d1 := { (d.wr st (d.rd st &&& 0xE000)).wr k (d.rd k &&& 0x7407) with clients := smDrop d.clients c }
  let d2 := ((d1.wr (keyAt O.DELAY c) 0).wr (keyAt O.ROUND_TRIP c) 0).wr (keyAt O.ASYMMETRY c) 0
  let d3 := d2.wr (keyAt O.MEMBER_SKEW c) noReading
  let mode := d3.genFld (keyAt O.PIN_CTRL c) 0 2
  let d4 := if mode == 0 then (d3.setPin c 0).fillAtTarget c 1024
    else if mode == 1 || d3.clientRole c == 0 then d3.pinOpen c 1 true
    else d3.pinOpen c 2 true
  (d4.onClient c (fun x => { (x.recentred c) with lead := x.target, buf := [], fillWas := x.target })).cpmStart c

/-- The enabled clients whose bound path is among the working members, or on the working ports, that changed. -/
def Dev.clientsOn (d : Dev) (changed : List Nat) : List Nat :=
  (List.range 32).filter (fun c =>
    let w := d.boundPath c
    d.clientType c != 0 && w != 0 && (changed.contains w || (changed.contains (portAddr (d.ctxPort w)) && d.partnerOf w != 0)))

end Sys2Proof.Machine
end

