-- ==== Sys2Proof/Machine/Tfi.lean ====
section
/-!
DEFINITION. The tributary fabric interface: delineation of TFI and mate lanes, cells, credits, classes and loss, ingress
channels (R297 to R314, R316).
-/
namespace Sys2Proof.Machine

def Dev.tfiOf (d : Dev) (l : Nat) : TfiLane := smLook {} d.tfi l
def Dev.onTfi (d : Dev) (l : Nat) (f : TfiLane → TfiLane) : Dev := { d with tfi := smPut {} d.tfi l (f (smLook {} d.tfi l)) }
def Dev.onMateLane (d : Dev) (k : Nat) (f : TfiLane → TfiLane) : Dev :=
  { d with mateLanes := smPut {} d.mateLanes k (f (smLook {} d.mateLanes k)) }

/-- Whether a lane runs (R297): mapped or kept, with the block running; a lane that stops runs until its queue is sent. -/
def Dev.tfiRuns (d : Dev) (l : Nat) : Bool := d.runs gTfi && (d.tfiLaneOn l || !(d.tfiOf l).egress.isEmpty)

/-- Whether a mate lane runs: its clock is on, and the unit is paired, in Service or Shadow and not in Clamp. -/
def Dev.mateLaneRuns (d : Dev) : Bool := d.gateOn gMate && d.paired && (d.inService || d.inShadow) && !d.clamped

/-- Whether a TFI transmitter drives cells (R300). -/
def Dev.tfiDrives (d : Dev) (l : Nat) : Bool := !d.inert && d.tfiRuns l && d.gateOpen

/-- Bytes through a lane's receiver (bit 1 of LANE_CTRL inverts) or transmitter (bit 2, Table TF-9): the scrambler of R298 hands an
inversion of its stream on to the cell. -/
def Dev.tfiPolar (d : Dev) (l i : Nat) (b : List Byte) : List Byte :=
  if d.genFld (keyAt O.TFI_LANE_CTRL l) i 1 == 1 then b.map (~~~ ·) else b

/-- A TFI event (Table FC-1). -/
def Dev.tfiEvent (d : Dev) (l detail level a : Nat) : Dev :=
  d.raise { cls := clsTfi, inst := l, level := level, addr := a, detail := detail }

/-! ## Cells (R301, Tables TF-2 to TF-4) -/

/-- The header's HEC: CRC-8 over 7 bytes, x^8 + x^2 + x + 1, XORed with 0x55. -/
def hec (l : List Byte) : Nat := (l.take 7).foldl (crcByteN 8 0x07) 0 ^^^ 0x55

/-- The class code of a cell's TYPE field. -/
abbrev cellData : Nat := 0
abbrev cellIdle : Nat := 1
abbrev cellEnd : Nat := 2

/-- The 8 header bytes. -/
def headerBytes (ty chan cls cso seq : Nat) (ais : Bool) : List Byte :=
  let v := ty * 2 ^ 62 + chan * 2 ^ 48 + cls * 2 ^ 46 + ofBit ais * 2 ^ 45 + cso * 2 ^ 38 + seq * 2 ^ 30
  let h := (bytesBE 8 v).take 7
  h ++ bytesBE 1 (hec h)

/-- The header of a queued cell. -/
def Cell.header (c : Cell) : List Byte :=
  headerBytes (if c.fin then cellEnd else cellData) c.chan c.cls c.cso c.seq c.ais

/-- A whole cell with its trailer. -/
def cellBytes (head payload : List Byte) (rxOk : Bool) (txCount limit : Nat) : List Byte :=
  let l := head ++ payload ++ (bytesBE 8 (ofBit rxOk * 2 ^ 63 + txCount * 2 ^ 48 + limit * 2 ^ 32)).take 4
  l ++ bytesBE 4 (crc32c l)

/-! ## Delineation (R299, Table TF-1) -/

/-- The status object of a lane. -/
def laneKey : CellLane → Key
  | .tfi l => keyAt O.TFI_LANE_STATUS l.val
  | .mate k => keyAt O.MATE_LANE_STATUS k.val

/-- Whether a lane runs. -/
def Dev.cellLaneRuns (d : Dev) : CellLane → Bool
  | .tfi l => d.tfiRuns l.val
  | .mate _ => d.mateLaneRuns

/-- A lane's items changed. -/
def Dev.onCellLane (d : Dev) (c : CellLane) (f : TfiLane → TfiLane) : Dev :=
  match c with
  | .tfi l => d.onTfi l.val f
  | .mate k => d.onMateLane k.val f

/-- A lane's items. -/
def Dev.cellLane (d : Dev) : CellLane → TfiLane
  | .tfi l => d.tfiOf l.val
  | .mate k => smLook {} d.mateLanes k.val

/-- DELIN_STATE takes a value: leaving SYNC sets DOWN_SEEN and takes the lane out of SYNC's summaries. -/
def Dev.setDelin (d : Dev) (c : CellLane) (st : Nat) : Dev :=
  let k := laneKey c
  let was := d.fld k 1 2
  let d1 := (d.putFld k 1 2 st).onCellLane c (fun x => { x with good := 0, bad := 0 })
  let d2 := if was == 2 && st != 2 then (d1.set1 k 9).onCellLane c (fun x => { x with t := none }) else d1
  match c with
  | .tfi l => d2.putFlag O.LANE_SYNC_MAP l.val (st == 2)
  | .mate m => if was == 2 && st != 2 then d2.putFlag O.PAIR_STATUS (11 + m.val) false else d2

/-- Block lock: delineation enters HUNT. -/
def blockLock (d : Dev) (c : CellLane) : Dev :=
  if d.cellLaneRuns c && d.fld (laneKey c) 1 2 == 3 then d.setDelin c 0 else d

def execTfiBlockLock (c : CellLane) (s : State) : Host.Outcome State Fault Refusal := done s (blockLock s.dev c)

/-- Loss of block lock: delineation falls to NO_LOCK. -/
def blockLockLoss (d : Dev) (c : CellLane) : Dev :=
  if d.cellLaneRuns c && d.fld (laneKey c) 1 2 != 3 then d.setDelin c 3 else d

def execTfiBlockLockLoss (c : CellLane) (s : State) : Host.Outcome State Fault Refusal := done s (blockLockLoss s.dev c)

/-- One header check in HUNT, PRESYNC or SYNC. -/
def Dev.delineate (d : Dev) (c : CellLane) (ok : Bool) : Dev :=
  let x := d.cellLane c
  let st := d.fld (laneKey c) 1 2
  if st == 0 then (if ok then d.setDelin c 1 else d)
  else if st == 1 then
    (if !ok then d.setDelin c 0
     else if x.good + 1 ≥ 6 then d.setDelin c 2
     else d.onCellLane c (fun y => { y with good := y.good + 1 }))
  else if st == 2 then
    (if ok then d.onCellLane c (fun y => { y with bad := 0 })
     else if x.bad + 1 ≥ 7 then d.setDelin c 0
     else d.onCellLane c (fun y => { y with bad := y.bad + 1 }))
  else d

/-! ## Ingress channels (R309 to R311, Table TF-6) -/

/-- The context whose KIND 1 entry names a channel on a lane. -/
def Dev.channelOn (d : Dev) (l chan : Nat) : Option Nat :=
  d.contexts.find? (fun a => let e := d.mapEntry a
    entryKind e == 1 && entryUnit e == l && entryTarget e == chan)

/-- PREFILL of a context. -/
def Dev.prefill (d : Dev) (a : Nat) : Nat := d.genFld (keyCtx O.TFI_CTRL a) 2 3

/-- The play-out of a channel is emptied (R310). -/
def Dev.playEmpty (d : Dev) (a : Nat) : Dev :=
  (d.onCh a (fun x => { x with play := [] })).onPathTx a (fun x => { x with feed := [] })

/-- IN_STATE takes a value; entry to WAIT or UNDERRUN starts the prefill anew, and only RUN keeps the play-out. -/
def Dev.setIn (d : Dev) (a st : Nat) : Dev :=
  let d1 := d.putFld (keyCtx O.TFI_CH_STATUS a) 0 2 st
  if st == 2 then d1
  else if st == 0 then d1.playEmpty a
  else (d1.playEmpty a).onCh a (fun x => { x with held := none, need := d.prefill a })

/-- In RUN the whole containers of the play-out are there for the transmit side (R309); `fuel` bounds their number. -/
def Dev.playOut (d : Dev) (a : Nat) : Nat → Dev
  | 0 => d
  | fuel + 1 =>
    let n := contLen (d.pathType a)
    let x := d.chOf a
    if d.fld (keyCtx O.TFI_CH_STATUS a) 0 2 != 2 || n == 0 || x.play.length < n then d
    else Dev.playOut ((d.onCh a (fun y => { y with play := y.play.drop n })).onPathTx a (fun y => { y with
      feed := lastOf 8 (y.feed ++ [x.play.take n]) })) a fuel

/-- A cell's container bytes join the play-out: from a container start on; where its CSO and the bytes held disagree, from that start on
(log entry 150). -/
def playJoin (n cso : Nat) (play payload : List Byte) (start : Bool) : List Byte :=
  if cso < 64 && (start || (play.length + cso) % n != 0) then payload.drop cso
  else if start then [] else play ++ payload

/-- Whether the channel's container is sent: RUN without AIS. -/
def Dev.tfiSending (d : Dev) (a : Nat) : Bool := d.rd (keyCtx O.TFI_CH_STATUS a) &&& 7 == 2

/-- Each return to sending the container recentres the store (R309). -/
def Dev.tfiReturn (d : Dev) (a : Nat) (was : Bool) : Dev := if !was && d.tfiSending a then d.recentre a else d

/-- Entry to UNDERRUN (R310). -/
def Dev.underrun (d : Dev) (a l : Nat) : Dev :=
  (((d.setIn a 3).set1 (keyCtx O.TFI_CH_STATUS a) 4).count (keyCtx O.UNDERRUNS a) 1).tfiEvent l 3 (adLevel a) a

/-- A cell as a candidate start, or as a further cell, under WAIT: bytes before the first container start are discarded. -/
def Dev.waitCell (d : Dev) (a cso : Nat) (payload : List Byte) : Dev :=
  let x := d.chOf a
  let play := playJoin (contLen (d.pathType a)) cso x.play payload x.held.isNone
  let held := match x.held with
    | some n => some (n + 1)
    | none => if cso < 127 then some 1 else none
  let d1 := d.onCh a (fun y => { y with held := held, play := play })
  if held.getD 0 ≥ x.need then d1.setIn a 2 else d1

/-- A DATA cell of a mapped channel; containers under RX_AIS are not sent (R309, R311). -/
def Dev.dataCell (d : Dev) (a l cso seq : Nat) (ais : Bool) (payload : List Byte) : Dev :=
  let k := keyCtx O.TFI_CH_STATUS a
  let was := d.tfiSending a
  let d0 := if cso < 127 then d.putFlag k 2 ais else d
  let st := d0.fld k 0 2
  let gap := (seq + 255 - (d0.chOf a).last) % 256
  let d1 := d0.onCh a (fun x => { x with last := seq })
  let d2 :=
    if st == 0 then (d1.setIn a 1).waitCell a cso payload
    else if st == 2 then
      (if gap == 0 then d1.onCh a (fun x => { x with play := playJoin (contLen (d.pathType a)) cso x.play payload false })
       else (((d1.count (keyCtx O.INGRESS_LOST a) gap).underrun a l).waitCell a cso payload))
    else d1.waitCell a cso payload
  let d3 := d2.playOut a 8
  let d4 := if d3.flag k 2 then d3.onPathTx a (fun x => { x with feed := [] }) else d3
  d4.tfiReturn a was

/-! ## Reception (R299, R303 to R306) -/

/-- Whether a limit lets the next DATA or END cell go (R303). -/
def creditFor (x : TfiLane) : Bool :=
  match x.limit with
  | some l => (l + 32768 - (x.sent + 1) % 32768) % 32768 < 16384
  | none => false

/-- A delivered cell of a TFI lane: credits, the ingress buffer, the channel. -/
def Dev.cellDeliver (d : Dev) (l : Nat) (head trail : Nat) (payload : List Byte) : Dev :=
  let k := keyAt O.TFI_LANE_STATUS l
  let ty := bits head 62 2
  let body := ty != cellIdle
  let tx := bits trail 48 15
  let ok := bit trail 63
  let x := d.tfiOf l
  let jump := match x.t with
    | some t => (tx + 32768 - t) % 32768
    | none => 0
  let lost := if jump ≤ 1 then 0 else jump - ofBit body
  let d1 := (((d.putFlag k 6 ok).verifyMark O.VERIFY_TFI_MAP l (!ok)).count (keyAt O.CELLS_LOST l) lost).onTfi l (fun y => { y with
    t := some tx, limit := if ok then some (bits trail 32 15) else y.limit })
  let d1 := d1.when (creditFor (d1.tfiOf l)) (fun y => y.putFlag k 10 false)
  if !body then d1
  else if x.held ≥ 256 then ((d1.count (keyAt O.INGRESS_OVERRUNS l) 1).set1 k 7).tfiEvent l 1 0 0
  else
    let d2 := (d1.count (keyAt O.INGRESS_CELLS l) 1).onTfi l (fun y => { y with held := y.held + 1 })
    let cso := if bits head 38 7 < 64 then bits head 38 7 else 127
    match d.channelOn l (bits head 48 14) with
    | none => if ty == cellData then d2.count (keyAt O.UNMAPPED_CELLS l) 1 else d2
    | some a =>
      if ty == cellData then d2.dataCell a l cso (bits head 30 8) (bit head 45) payload
      else (d2.setIn a 0).onCh a (fun c => { c with last := bits head 30 8 })

/-- A received cell: delineation, its checks, delivery. -/
def cellReceived (d : Dev) (c : CellLane) (raw : List Byte) (syncOk : Bool) : Dev :=
  if !d.cellLaneRuns c then d
  else
    let b := match c with
      | .tfi l => d.tfiPolar l.val 1 (fitBytes 80 raw)
      | .mate _ => fitBytes 80 raw
    let hecOk := hec b == (b.getD 7 0).toNat
    let wasSync := d.fld (laneKey c) 1 2 == 2
    let d1 := d.delineate c hecOk
    match c with
    | .mate _ => d1
    | .tfi l =>
      let head := ofBytesBE (b.take 8)
      let good := hecOk && bits head 62 2 != 3
      let crcOk := syncOk && crc32c (b.take 76) == ofBytesBE (b.drop 76)
      if !wasSync then d1
      else if !good then d1.count (keyAt O.HEC_ERRORS l.val) 1
      else if !crcOk then d1.count (keyAt O.CRC_ERRORS l.val) 1
      else d1.cellDeliver l.val head (ofBytesBE (b.drop 72)) ((b.drop 8).take 64)

def execTfiCellReceived (c : CellLane) (raw : List Byte) (syncOk : Bool) (s : State) : Host.Outcome State Fault Refusal :=
  done s (cellReceived s.dev c raw syncOk)

/-! ## Transmission (R303, R307, R308) -/

/-- CREDITS_AVAILABLE of a lane. -/
def creditsAvailable (x : TfiLane) : Nat :=
  match x.limit with
  | some l =>
    let n := (l + 32768 - x.sent) % 32768
    if n ≤ 16384 then n else 0
  | none => 0

/-- The oldest cell of the lowest-numbered class of a queue, and the rest. -/
def nextCell (q : List Cell) : Option (Cell × List Cell) :=
  match q.map (·.cls) with
  | [] => none
  | c :: r =>
    let low := r.foldl min c
    match q.findIdx? (fun x => x.cls == low) with
    | some i => match q[i]? with
      | some x => some (x, q.take i ++ q.drop (i + 1))
      | none => none
    | none => none

/-- A cell slot of a lane (R303): the ingress buffer gives one cell on; the oldest eligible cell of the lowest class goes
out under credit, or an IDLE cell. A lane that does not drive discards what it would send (R313). -/
def cellSend (d : Dev) (l : Nat) : Dev :=
  if !d.tfiRuns l then d
  else
    let k := keyAt O.TFI_LANE_STATUS l
    let x0 := d.tfiOf l
    let x := { x0 with held := x0.held - 1 }
    let rxOk := d.fld k 1 2 == 2 && x.t.isSome
    let limit := (x.t.getD 0 + (256 - x.held)) % 32768
    let drives := d.tfiDrives l
    let out := fun (y : Dev) (b : List Byte) =>
      y.onOut (fun o => { o with tfi := if drives then smInsert l (d.tfiPolar l 2 b) (smDrop o.tfi l) else smDrop o.tfi l })
    let idle := out (d.onTfi l (fun _ => x))
      (cellBytes (headerBytes cellIdle 0 0 127 0 false) (List.replicate 64 0xFF) rxOk x.sent limit)
    if !creditFor x then idle
    else match nextCell x.egress with
      | none => idle
      | some (c, rest) =>
        let n := (x.sent + 1) % 32768
        let d1 := ((d.onTfi l (fun _ => { x with egress := rest, sent := n })).count (keyAt O.EGRESS_CELLS l) 1).putFlag k 10 false
        out d1 (cellBytes c.header c.payload rxOk n limit)

def execTfiCellSend (l : Fin 32) (s : State) : Host.Outcome State Fault Refusal := done s (cellSend s.dev l.val)

/-- A DATA cell has waited 10 µs with no credit (Table TF-5). -/
def creditStall (d : Dev) (l : Nat) : Dev :=
  let x := d.tfiOf l
  if d.tfiRuns l && x.egress.any (fun c => !c.fin) && !creditFor x then d.putFlag (keyAt O.TFI_LANE_STATUS l) 10 true else d

def execCreditStall (l : Fin 32) (s : State) : Host.Outcome State Fault Refusal := done s (creditStall s.dev l.val)

/-- The newest cell of the highest-numbered class leaves a queue; the cell and the rest. -/
def dropCell (q : List Cell) : Option (Cell × List Cell) :=
  match q.map (·.cls) with
  | [] => none
  | c :: r =>
    let high := r.foldl max c
    match q.reverse.findIdx? (fun x => x.cls == high) with
    | some j => match q[q.length - 1 - j]? with
      | some x => some (x, q.take (q.length - 1 - j) ++ q.drop (q.length - j))
      | none => none
    | none => none

/-- The loss of a cell is reported (Table TF-5); its event comes at the end of the frame. -/
def Dev.dropped (d : Dev) (l : Nat) (c : Cell) : Dev :=
  let cls := min c.cls 3
  let d1 := ((d.count (keyAt (O.DROPS_CLASS0 + cls) l) 1).set1 (keyAt O.TFI_LANE_STATUS l) 8).set1 O.STARVED_LANE_MAP l
  let d2 := d1.onTfi l (fun x => { x with drops := some ((x.drops.getD false) || cls == 0) })
  match d.channelOn l c.chan with
  | some a => (d2.count (keyCtx O.EGRESS_DROPS a) 1).set1 (keyCtx O.TFI_CH_STATUS a) 5
  | none => d2

/-- A cell enters a lane's egress buffer; with 256 cells there, one is dropped (R308). The signature covers it at its
generation (R313). -/
def Dev.enqueue (d : Dev) (l : Nat) (c : Cell) : Dev :=
  let d0 := d.signBytes (64 + l) (c.header ++ c.payload)
  let q := (d.tfiOf l).egress ++ [c]
  if q.length ≤ 256 then d0.onTfi l (fun x => { x with egress := q })
  else match dropCell q with
    | some (x, rest) => (d0.onTfi l (fun y => { y with egress := rest })).dropped l x
    | none => d0

/-- The place in a cell at which a container starts, with its first byte at a place of its container; 127 for none (Table TF-3). -/
def cellStart (n pos : Nat) : Nat :=
  let k := (n - pos % n) % n
  if k < 64 then k else 127

/-- A channel completes 64 container bytes: a DATA cell is generated, whose CSO is where a container starts in it. While the path is in
AIS_OUT cells are all ones, with CSO at each nominal container start (R307). -/
def cellGenerate (d : Dev) (a : Nat) : Dev :=
  let e := d.mapEntry a
  let ais := d.aisOut (d.feeding a)
  let x := d.chOf a
  if !(d.runs gTfi && provisioned d.active a && entryKind e == 1) || (!ais && x.out.length < 64) then d
  else
    let n := contLen (d.pathType a)
    let c : Cell := {
      fin := false, chan := entryTarget e % 16384, cls := d.genFld (keyCtx O.TFI_CTRL a) 0 2, ais := ais
      cso := cellStart n x.pos, seq := x.seq, payload := if ais then allOnes 64 else x.out.take 64 }
    (d.onCh a (fun y => { y with
      seq := (y.seq + 1) % 256, pos := (y.pos + 64) % n, out := if ais then [] else y.out.drop 64 })).enqueue (entryUnit e) c

def execCellGenerate (a : Addr) (s : State) : Host.Outcome State Fault Refusal := done s (cellGenerate s.dev a.toNat)

/-- The play-out of a channel in RUN is empty when a byte is due (R310). -/
def playoutUnderrun (d : Dev) (a : Nat) : Dev :=
  let e := d.mapEntry a
  if d.runs gTfi && provisioned d.active a && entryKind e == 1 && d.fld (keyCtx O.TFI_CH_STATUS a) 0 2 == 2 then
    d.underrun a (entryUnit e)
  else d

def execPlayoutUnderrun (a : Addr) (s : State) : Host.Outcome State Fault Refusal := done s (playoutUnderrun s.dev a.toNat)

/-! ## Boundaries and starts -/

/-- One event per lane for the drops of the frame that ends (Table TF-5). -/
def Dev.tfiTick (d : Dev) : Dev :=
  (List.range 32).foldl (fun x l => match (x.tfiOf l).drops with
    | some z => (x.onTfi l (fun y => { y with drops := none })).tfiEvent l (2 + 256 * ofBit z) 0 0
    | none => x) d

/-- TFI_LANE_STATUS as a read returns it: RUNNING and TX_DRIVING are conditions of now. -/
def Dev.tfiStatus (d : Dev) (l : Nat) : Nat :=
  putBits (putBits (d.rd (keyAt O.TFI_LANE_STATUS l)) 4 1 (ofBit (d.tfiRuns l))) 3 1 (ofBit (d.tfiDrives l))

/-- MATE_LANE_STATUS as a read returns it. -/
def Dev.mateStatus (d : Dev) (k : Nat) : Nat :=
  putBits (d.rd (keyAt O.MATE_LANE_STATUS k)) 3 1 (ofBit d.mateLaneRuns)

/-- A lane starts: no lock, TX_COUNT 0, no limit (R304); queued cells are gone. -/
def Dev.tfiLaneStart (d : Dev) (l : Nat) : Dev :=
  let k := keyAt O.TFI_LANE_STATUS l
  (({ d with tfi := smDrop d.tfi l }.wr k ((d.rd k &&& 0x380) + 6)).putFlag O.LANE_SYNC_MAP l false).verifyMark O.VERIFY_TFI_MAP l (d.tfiRuns l)

/-- A mate lane starts. -/
def Dev.mateLaneStart (d : Dev) (k : Nat) : Dev :=
  let o := keyAt O.MATE_LANE_STATUS k
  ({ d with mateLanes := smDrop d.mateLanes k }.wr o ((d.rd o &&& 0x200) + 6)).putFlag O.PAIR_STATUS (11 + k) false

/-- A channel's ingress starts in IDLE; `evt` fields stay. -/
def Dev.tfiChStart (d : Dev) (a : Nat) : Dev :=
  let k := keyCtx O.TFI_CH_STATUS a
  ((d.wr k (d.rd k &&& 0x30)).onCh a (fun x => { seq := x.seq })).onPathTx a (fun x => { x with feed := [] })

/-- A newly mapped channel (R312): SEQ 0, IDLE, counters at 0. -/
def Dev.tfiChNew (d : Dev) (a : Nat) : Dev :=
  let d1 := { d with tfiCh := smDrop d.tfiCh a }.wr (keyCtx O.TFI_CH_STATUS a) 0
  ((d1.wr (keyCtx O.EGRESS_DROPS a) 0).wr (keyCtx O.INGRESS_LOST a) 0).wr (keyCtx O.UNDERRUNS a) 0

/-- A channel that loses its context: one END cell follows its queued cells (R312). -/
def Dev.tfiChGone (d : Dev) (a entry ctl : Nat) : Dev :=
  let c : Cell := {
    fin := true, chan := entryTarget entry % 16384, cls := bits ctl 0 2, ais := false, cso := 127, seq := (d.chOf a).seq
    payload := List.replicate 64 0xFF }
  let d1 := if d.runs gTfi then d.enqueue (entryUnit entry) c else d
  { d1 with tfiCh := smDrop d1.tfiCh a }.wr (keyCtx O.TFI_CH_STATUS a) 0

end Sys2Proof.Machine
end

