-- ==== Sys2Proof/Machine/Start.lean ====
section
/-!
DEFINITION. Starts: what blocks take on entry to a mode, when their clocks return, and at a switch-in (R472, R231, R276,
R292, R313, R145, R194, R215, R230, R247, R275, R312).
-/
namespace Sys2Proof.Machine

/-! ## Entry to a mode (R472) -/

/-- `f` over the enabled ports, the contexts in force, the groups and selectors, the enabled clients, the TFI lanes. -/
def Dev.eachPort (d : Dev) (f : Dev → Nat → Dev) : Dev := (portsOn d.active).foldl f d
def Dev.eachContext (d : Dev) (f : Dev → Nat → Dev) : Dev := d.contexts.foldl f d
def Dev.eachProt (d : Dev) (f : Dev → Nat → Dev) : Dev := (protAll d.active).foldl f d
def Dev.eachClient (d : Dev) (f : Dev → Nat → Dev) : Dev :=
  ((List.range 32).filter (fun c => d.clientType c != 0)).foldl f d

/-- The defect processor, the protection engine and what they hold start cleared (R231, R276). -/
def Dev.actionsStart (d : Dev) : Dev :=
  let d1 := (d.eachContext Dev.defectStart).eachPort (fun x p => x.defectStart (portAddr p))
  (({ d1 with latched := [] }.eachProt Dev.protStart).wr O.SELECTORS_ON_PROTECTION 0).wr O.PORT_DEFECT_MAP 0

/-- The TFI block starts: lanes without lock, channels in IDLE (R313). -/
def Dev.tfiStart (d : Dev) : Dev :=
  let d1 := (List.range 32).foldl Dev.tfiLaneStart d
  d1.eachContext (fun x a => if entryKind (x.mapEntry a) == 1 then x.tfiChStart a else x)

/-- Defects, protection, client ports and TFI start (R472, last item; R334). -/
def Dev.clearedStart (d : Dev) : Dev := (d.actionsStart.eachClient Dev.clientStart).tfiStart

/-- A receive start in every enabled port and provisioned context (R472). -/
def Dev.receiveStart (d : Dev) : Dev :=
  let d1 := d.alignStart.eachPort Dev.sectionStart
  ((d1.eachContext Dev.pointerStart).eachContext Dev.pohStart).clearedStart

/-- A quad starts: its PLL and CDRs lock anew (R113, R377). -/
def Dev.quadStart (d : Dev) (q : Nat) : Dev :=
  let d1 := ([0, 1, 2, 3].foldl (fun (x : Dev) i =>
    (x.putFld (keyAt O.LANE_STATUS (4 * q + i)) 0 4 0).spoilGate (4 * q + i)) d).putFlag (quadKey q) 3 false
  d1.onLine (fun x => { x with settle := x.settle.filter (· != q), anew := x.anew.filter (· != q), lost := x.lost.filter (· != q) })

/-- The blocks of a mask of Table CK-9 resume from the cleared state (R377). -/
def Dev.blockStart (d : Dev) (mask : Nat) : Dev :=
  let on := fun (x : Dev) (i : Nat) (f : Dev → Dev) => if bit mask i then f x else x
  let d1 := on (on d gAlign Dev.alignStart) gSection (fun x => x.eachPort Dev.sectionStart)
  let d2 := on (on d1 gPointer (fun x => x.eachContext Dev.pointerStart)) gPoh (fun x => x.eachContext Dev.pohStart)
  let d3 := on d2 gDefect (fun x => (x.eachContext Dev.defectStart).eachPort (fun y p => y.defectStart (portAddr p)))
  let d4 := on d3 gProtection (fun x => { x with latched := [] }.eachProt Dev.protStart)
  let d5 := on (on d4 gClient (fun x => x.eachClient Dev.clientStart)) gTfi Dev.tfiStart
  let d6 := on d5 gMate (fun x => [0, 1, 2, 3].foldl Dev.mateLaneStart x)
  (List.range 16).foldl (fun x q => on x (12 + q) (fun y => y.quadStart q)) d6

/-! ## Switch-in -/

/-- The source of a context's transmit side in a bank: the entry of its working member, and the context whose KIND 3
entry names that member (Tables MP-9, PO-1). -/
def sourceOf (b : Bank) (a : Nat) : Nat × Option Nat :=
  let w := (workingOf b a).getD a
  (bankRd b (keyCtx O.MAP_ENTRY w), (b.numbers.find? (fun e =>
    let v := bankRd b (keyCtx O.MAP_ENTRY e.1)
    entryKind v == 3 && entryTarget v == w)).map (·.1))

/-- The blocks of SD and SF restart where a threshold or BER_SOURCE changes; a threshold of 0 clears (R230). -/
def Dev.berSwap (d : Dev) (old : Bank) (a : Nat) : Dev :=
  let src := fun (b : Bank) => if adLevel a == 3 then bits (bankRd b (keyCtx O.DEFECT_CTRL a)) 6 2 else 0
  let moved := fun (sf : Bool) => threshOf old a sf != threshOf d.active a sf || src old != src d.active
  let b := smLook ({}, {}) d.ber a
  let one := fun (sf : Bool) (x : Ber) => if moved sf then berRestart (threshOf d.active a sf != 0) x else x
  let b2 := (one false b.1, one true b.2)
  let off := ofBit (b.1.declared && !b2.1.declared) * 2 ^ 26 + ofBit (b.2.declared && !b2.2.declared) * 2 ^ 27
  let d1 := { d with ber := smPut ({}, {}) d.ber a b2 }
  if off == 0 then d1
  else
    let k := keyCtx O.DEFECT_RAW a
    let clr := fun (v : Nat) => v &&& (0xFFFFFFFF ^^^ off)
    (d1.wr k (clr (d1.rd k))).report a (clr (d1.rd (keyCtx O.DEFECT_REPORTED a)))

/-- The alignment of a port that a switch-in enables, retypes or disables (Table FA-3): at once, or at its resumption where the
block does not run (R146). -/
def Dev.alignSwap (d : Dev) (p : Nat) : Dev :=
  if !d.runs gAlign then d.onAlign (fun a => { a with due := addOnce a.due p })
  else if portOn d.active p then d.alignEnable p else d.alignStop p

/-- A lane across a switch-in (R122, R124, R127). A rate, a port type or an enabling that changes masks the CDR-lock cause and spoils
the gate (log entry 133 for an enabling alone); a receiver that is no longer powered has no LOS; a checker stops on a lane whose
port is enabled. -/
def Dev.laneSwap (d : Dev) (old : Bank) (l : Nat) : Dev :=
  let new := d.active
  let d1 := if laneType old l != laneType new l || (laneOn new l && !laneOn old l) then
      (d.spoilGate l).onLine (fun z => { z with cdrMask := addOnce z.cdrMask l })
    else d
  let d2 := if laneOn new l then
      (d1.putFlag (keyAt O.PRBS_CTRL l) 4 false).onLine (fun z => { z with check := smDrop z.check l })
    else d1
  if d2.rxPowered l then d2 else (d2.putFld (keyAt O.LANE_STATUS l) 0 4 0).spoilGate l

/-- A port across a switch-in (Table FA-3, R161, R230). -/
def Dev.portSwap (d : Dev) (old : Bank) (p : Nat) : Dev :=
  let new := d.active
  let was := portOn old p
  let now := portOn new p
  let moved := now && (!was || portType old p != portType new p)
  let gone := was && !now
  let d1 :=
    if moved then (((d.alignSwap p).onOh (fun o => { o with tx := smDrop o.tx p, rx := smDrop o.rx p })).sectionStart p).defectStart
      (portAddr p)
    else if gone then ((d.alignSwap p).sectionStart p).defectStart (portAddr p)
    else if now then
      let x := ((d.alignKept p).compareJ0 p).compareTti p
      (x.when (isOtu (portType new p)) (fun y => y.comparePt p)).berSwap old (portAddr p)
    else d
  [false, true].foldl (fun x m =>
    let q := fun (b : Bank) => if portOn b p then bankRd b (keyAt (if m then O.DCC_QUEUE_M else O.DCC_QUEUE_R) p) else 0xFF
    if q new != q old && q new < 16 then (x.dccDrop (q new) 4096).putDccTx (q new) [] else x) d1

/-- A quad across a switch-in: a change of its mode restarts the PLL, and masks its lanes' CDR-lock cause (R113, R122); one that
becomes or ceases to be bonded starts lane alignment afresh (R110). -/
def Dev.quadSwap (d0 : Dev) (old : Bank) (q : Nat) : Dev :=
  let d := if bonded old q == bonded d0.active q then d0
    else ([0, 1, 2, 3].foldl (fun (x : Dev) k => x.wr (keyAt O.OTL_STATUS (4 * q + k)) 0) d0).onLine (fun x => { x with
      lol := smDrop x.lol q, marked := x.marked.filter (fun l => l / 4 != q) })
  if quadModeOf old q == quadModeOf d.active q then d
  else
    let d1 := d.putFlag (quadKey q) 3 false
    d1.onLine (fun x => { x with
      anew := addOnce x.anew q, settle := x.settle.filter (· != q), lost := x.lost.filter (· != q)
      cdrMask := [0, 1, 2, 3].foldl (fun m i => addOnce m (4 * q + i)) x.cdrMask })

/-- A capture that waits on a removed or moved context ends with zeros (R208). -/
def Dev.dropCaptures (d : Dev) (a : Nat) : Dev :=
  let mine := d.captures.filter (fun c => c.2 == a)
  let d1 := mine.foldl (fun x c => (x.wrStr (keyOf O.TRACE_CAPTURED c.1) (List.replicate 64 0)).wr (keyOf O.TRACE_CAPTURE c.1) 0) d
  { d1 with captures := d1.captures.filter (fun c => c.2 != a) }

/-- The counters and status of a context's pointer and overhead records. -/
def recordObjects : List ObjId :=
  [O.PTR_STATUS, O.PJ_RX_INC, O.PJ_RX_DEC, O.PJ_TX_INC, O.PJ_TX_DEC, O.NDF_RX, O.STORE_RECENTRES, O.POH_STATUS, O.BIP_ERRORS,
   O.REI_RX, O.LAST_CHANGE]

/-- A context that is new, or whose internal number changes, starts (R184, R215, R230, R247). -/
def Dev.contextNew (d : Dev) (a : Nat) : Dev :=
  let d1 := recordObjects.foldl (fun x o => x.wr (keyCtx o a) 0) (d.dropCaptures a)
  let n := match d1.rxPeriod a with
    | some e => e.1
    | none => 0
  let d2 := ((({ d1 with
    poh := smDrop d1.poh a, ptrTx := smDrop d1.ptrTx a, pathTx := smDrop d1.pathTx a
    pathRx := smPut {} d1.pathRx a { taken := n } }.pointerStart a).pohStart a).defectStart a).pmStart a
  let d3 := if entryKind (d2.mapEntry a) == 1 then d2.tfiChNew a else d2
  if (sourceOf d3.active a).1 != 0 || (sourceOf d3.active a).2.isSome then d3.recentre a else d3

/-- A removed context leaves nothing behind; its TFI channel ends (R230, R247, R312). -/
def Dev.contextGone (d : Dev) (old : Bank) (a : Nat) : Dev :=
  let e := bankRd old (keyCtx O.MAP_ENTRY a)
  let d1 := if entryKind e == 1 then d.tfiChGone a e (bankRd old (keyCtx O.TFI_CTRL a)) else d
  let d2 := (recordObjects.foldl (fun x o => x.wr (keyCtx o a) 0) (d1.dropCaptures a)).defectStart a
  { d2 with
    poh := smDrop d2.poh a, ptrTx := smDrop d2.ptrTx a, ptrRx := smDrop d2.ptrRx a, pm := smDrop d2.pm a
    pathRx := smDrop d2.pathRx a, pathTx := smDrop d2.pathTx a, out := { d2.out with poh := smDrop d2.out.poh a } }

/-- A context that keeps its internal number: its generator recentres where its entry or source changes, to none included (R194, R210, R215, R230, R312). -/
def Dev.contextKept (d : Dev) (old : Bank) (a : Nat) : Dev :=
  let new := d.active
  let e0 := bankRd old (keyCtx O.MAP_ENTRY a)
  let e1 := bankRd new (keyCtx O.MAP_ENTRY a)
  let ch := fun (e : Nat) => if entryKind e == 1 then some (entryUnit e, entryTarget e) else none
  let d1 := if ch e0 != ch e1 && (ch e0).isSome then d.tfiChGone a e0 (bankRd old (keyCtx O.TFI_CTRL a)) else d
  let d2 := if ch e0 != ch e1 && (ch e1).isSome then d1.tfiChNew a else d1
  let d3 := if sourceOf old a != sourceOf new a then
      (d2.onPathTx a (fun x => { x with feed := [], ready := [] })).recentre a
    else d2
  let mk := fun (b : Bank) => bits (bankRd b (keyCtx O.POH_CTRL a)) 22 2
  let d4 := if mk old != mk new then d3.markerRestart a else d3
  let d5 := if structured new a != structured old a then d4.h4Start a else d4
  let d6 := if portOn new (lanePort new (adPort a)) && !portOn old (lanePort old (adPort a)) then d5.pointerStart a else d5
  (d6.comparePath a).berSwap old a

/-- A context across a switch-in. -/
def Dev.contextSwap (d : Dev) (old : Bank) (a : Nat) : Dev :=
  let n0 := old.numbers.find? (fun e => e.1 == a)
  let n1 := d.active.numbers.find? (fun e => e.1 == a)
  if n1.isNone then (if n0.isNone then d else d.contextGone old a)
  else if n0 != n1 then d.contextNew a
  else d.contextKept old a

/-- A group or selector across a switch-in (R275). -/
def Dev.protSwap (d : Dev) (old : Bank) (w : Nat) : Dev :=
  let new := d.active
  if protPartner new w == 0 then (if protPartner old w == 0 then d else d.protGone w)
  else if protPartner new w != protPartner old w || protActive new w != protActive old w then d.protStart w
  else d

/-- A client that keeps its type: a change of PIN_SLEW goes on from the fill reached (R284), one of TARGET_DELAY slews from here (R295),
and ASYM_ALARM meets a new threshold (R293). -/
def Dev.pinSwap (d : Dev) (old : Bank) (c : Nat) : Dev :=
  let was := fun (o : ObjId) => bankRd old (keyAt o c)
  let d1 := if bits (was O.PIN_CTRL) 8 5 != d.pinSlew c then d.slewChanged c (bits (was O.PIN_CTRL) 8 5) else d
  let d2 := if was O.TARGET_DELAY != d.genA (keyAt O.TARGET_DELAY c) then d1.pinRetarget c else d1
  if was O.ASYM_THRESH != d.genA (keyAt O.ASYM_THRESH c) then d2.asymCheck c else d2

/-- A client across a switch-in (R250, R292). -/
def Dev.clientSwap (d0 : Dev) (old : Bank) (c : Nat) : Dev :=
  let ty := fun (b : Bank) => bits (bankRd b (keyAt O.CLIENT_CTRL c)) 0 4
  let new := d0.active
  let d := if ty new == ty old && ty new != 0 then d0.pinSwap old c else d0
  if ty new != ty old then
    (if ty new != 0 then d.clientStart c
     else { (d.wr (keyAt O.CLIENT_STATUS c) 0).wr (keyAt O.PIN_STATUS c) 0 with
       clients := smDrop d.clients c, cpm := smDrop d.cpm c })
  else
    let same := fun (o : ObjId) (m : Nat) => bankRd old (keyAt o c) / m == bankRd new (keyAt o c) / m
    if same O.CPM_CTRL 65536 && same O.ES_TCA_THRESH 1 && same O.SES_TCA_THRESH 1 then d
    else
      let p := smLook {} d.cpm c
      ({ d with cpm := smPut {} d.cpm c { p with window := [] } }).cpmAlerts c

/-- A TFI lane across a switch-in: one that starts to run starts its credits (R304). -/
def Dev.tfiSwap (d : Dev) (was : Nat → Bool) (l : Nat) : Dev :=
  let now := d.tfiLaneOn l
  if (now && !was l) || (!now && was l && (d.tfiOf l).egress.isEmpty) then d.tfiLaneStart l else d

/-- Everything that a switch-in changes besides the bank itself; `old` is the bank that was active. -/
def Dev.swapEffects (d : Dev) (old : Bank) : Dev :=
  let before := if d.activeB then { d with bankB := old } else { d with bankA := old }
  let d1 := (List.range 64).foldl (fun x p => x.portSwap old p) d
  let d2 := (List.range 64).foldl (fun x l => x.laneSwap old l) ((List.range 16).foldl (fun x q => x.quadSwap old q) d1)
  let gone := (old.numbers.map (·.1)).filter (fun a => !provisioned d.active a)
  let d3 := (gone ++ d.contexts).foldl (fun x a => x.contextSwap old a) d2
  let d4 := ((protAll old).filter (fun w => protPartner d.active w == 0) ++ protAll d.active).foldl (fun x w => x.protSwap old w) d3
  let d5 := (List.range 32).foldl (fun x c => x.clientSwap old c) d4
  let d6 := (List.range 32).foldl (fun x l => x.tfiSwap before.tfiLaneOn l) d5
  if bit (d6.genA O.PM_TIME_CTRL) 0 then d6
  else (d6.putFld O.PM_TIME_STATUS 0 2 0).onPmTime (fun t => { t with good := 0 })

end Sys2Proof.Machine
end

