-- ==== Sys2Proof/Machine/Pair.lean ====
section
/-!
DEFINITION. Equipment redundancy in pairs: claims and interlock, heartbeat, frame-phase lock, joining, signatures and
self-check, takeover, revert and handover, verification (R315 to R343).
-/
namespace Sys2Proof.Machine

/-- FAULTY, SUSPECT and UNRESOLVED of this unit (Table PA-11). -/
def Dev.faulty (d : Dev) : Bool := d.flag O.PAIR_STATUS 16
def Dev.suspect (d : Dev) : Bool := d.flag O.PAIR_STATUS 17
def Dev.unresolved (d : Dev) : Bool := d.flag O.PAIR_STATUS 18
def Dev.home (d : Dev) : Bool := d.flag O.STRAPS 10
def Dev.linkUp (d : Dev) : Bool := d.flag O.PAIR_STATUS 10
def Dev.claimIn (d : Dev) : Bool := d.flag O.PAIR_STATUS 9
def Dev.claiming (d : Dev) : Bool := d.flag O.PAIR_STATUS 7
def Dev.granted (d : Dev) : Bool := d.flag O.PAIR_STATUS 8
def Dev.genCopied (d : Dev) : Bool := d.flag O.PAIR_STATUS 4
def Dev.pairFrame (d : Dev) : Nat := d.rd O.PAIR_FRAME

/-- GATE_OPEN follows the grant and CLAIM_IN (R319). -/
def Dev.syncGate (d : Dev) : Dev := d.putFlag O.PAIR_STATUS 6 (d.granted && !d.claimIn)

/-- CLAIM_OUT starts to toggle, for a cause of Table PA-7 (R320); a takeover is a pair event that cancels a scheduled switch-in
(R93, outcome 5). -/
def Dev.startClaim (d : Dev) (cause : Nat) : Dev :=
  let join := d.pairState == 4
  let d0 := d.when (cause != 0) (fun x => x.cancelEarly 5)
  let d1 := (d0.putFlag O.PAIR_STATUS 7 true).onPair (fun p => { p with cause := cause, fromJoin := join, released := none })
  d1.when d.paired (fun x => x.setPairState 2)

/-- The unit enters Shadow to join (R320, R325): no claim, generation not copied. -/
def Dev.enterJoin (d : Dev) : Dev :=
  let d1 := ((d.stopClaim).setPairState 3).putFlag O.PAIR_STATUS 4 false
  (d1.wr O.SYNC_FRAMES 0).onPair (fun p => { p with part := none, fails := 0, run := 0, check := false, released := none })

/-- A Shadow with neither heartbeat nor mate claim (Table PA-5, last row): it claims when it holds a generation and is
not FAULTY, and otherwise reports a severe event. -/
def Dev.shadowAlone (d : Dev) : Dev :=
  if d.genCopied && !d.faulty then d.startClaim 2
  else (d.setPairState 7).pairEvent 2 true

/-! ## Heartbeat and claims -/

/-- A valid HEARTBEAT arrives (R316, R317): the link is up, the mate's status is kept, and a Shadow that was DETACHED
resumes its join by comparing generations (R327). A lane delivers cells in SYNC only (R299). -/
def heartbeatIn (d : Dev) (h : Heartbeat) : Dev :=
  if !d.pairRuns || !d.gateOn gMate || d.fld (keyAt O.MATE_LANE_STATUS h.lane.val) 1 2 != 2 then d
  else
    let st := h.status.toNat % 2 ^ 21
    let d1 := ((d.putFlag O.PAIR_STATUS (11 + h.lane.val) true).putFlag O.PAIR_STATUS 10 true).wr O.MATE_STATUS st
    let d2 := (d1.putFlag O.PAIR_STATUS 19 (bit st 16)).putFlag O.PAIR_STATUS 20 (bit st 17)
    let d3 := d2.onPair (fun p => { p with mateGen := h.gen.toNat, mateCrc := h.crc.toNat })
    if d.inShadow && d.pairState == 7 then
      let same := d.genCopied && d.rd O.ACTIVE_GENERATION == h.gen.toNat && d.active.genCrc.toNat == h.crc.toNat
      d3.setPairState (if same then 4 else 3)
    else d3

def execHeartbeat (h : Heartbeat) (s : State) : Host.Outcome State Fault Refusal := done s (heartbeatIn s.dev h)

/-- The unit sends its HEARTBEAT on each running lane (Table PA-1). -/
def heartbeatOut (d : Dev) : Dev :=
  if !d.pairRuns || !d.gateOn gMate then d
  else d.sendMate (.heartbeat (d.rd O.PAIR_STATUS % 2 ^ 21) d.pairFrame (d.rd O.ACTIVE_GENERATION) d.active.genCrc.toNat)

def execHeartbeatSend (s : State) : Host.Outcome State Fault Refusal := done s (heartbeatOut s.dev)

/-- The heartbeat is lost (R317, R333): the link is down, a scheduled switch-in is cancelled (Table PV-3), and a Shadow
acts as Table PA-5 gives. -/
def heartbeatLost (d : Dev) : Dev :=
  if !d.linkUp then d
  else
    let d1 := (d.putFld O.PAIR_STATUS 10 5 0).wr O.MATE_STATUS 0
    let d2 := ((d1.putFld O.PAIR_STATUS 19 2 0).count O.HEARTBEAT_LOSSES 1).set1 O.PAIR_STATUS 22
    let d3 := (d2.putFlag O.PAIR_STATUS 15 false).onPair (fun p => { p with part := none, agreed := none })
    let d4 := (d3.cancelEarly 5).pairEvent 2
    if d.inShadow && d.pairRuns && d.pairState != 2 then
      if d.claimIn then d4.setPairState 7 else d4.shadowAlone
    else d4

def execHeartbeatLoss (s : State) : Host.Outcome State Fault Refusal := done s (heartbeatLost s.dev)

/-- CLAIM_IN shows a claim (R318): the gate closes and a fresh grant is needed; a paired mate unit or a unit in Bisque
stops toggling, a paired home unit keeps claiming (R320). -/
def claimSeen (d : Dev) : Dev :=
  let d1 := ((d.putFlag O.PAIR_STATUS 9 true).putFlag O.PAIR_STATUS 8 false).putFlag O.PAIR_STATUS 6 false
  if !d.claiming then d1
  else if d.inBisque then d1.stopClaim
  else if d.paired && !d.home then
    let d2 := d1.cancelEarly 5
    (d2.when (!d.inShadow) (fun x => x.recordMode 3)).enterJoin
  else d1.when (d.paired && d.pairState == 1) (fun x => x.setPairState 2)

def execClaimInDetect (s : State) : Host.Outcome State Fault Refusal := done s (claimSeen s.dev)

/-- CLAIM_IN shows no claim any more (R318, R332, R333). -/
def claimGone (d : Dev) : Dev :=
  let d1 := (d.putFlag O.PAIR_STATUS 9 false)
  if d.inShadow && d.pairRuns && !d.claiming then
    match d.pair.released with
    | some c => if d.faulty || d.suspect then d1 else d1.startClaim c
    | none => if d.linkUp then d1 else d1.shadowAlone
  else d1

def execClaimInLoss (s : State) : Host.Outcome State Fault Refusal := done s (claimGone s.dev)

/-- The totals whose growth the verification window watches, per port (R341). -/
def reiTotals (d : Dev) : SMap Nat :=
  (List.range 64).flatMap (fun p =>
    [(3 * p, d.rd (keyAt O.REI_MS p)), (3 * p + 1, d.rd (keyAt O.SM_BEI p)), (3 * p + 2, d.rd (keyAt O.PM_BEI p))])

/-- Clears the verification maps and starts the window (R341). -/
def Dev.startVerify (d : Dev) : Dev :=
  let d1 := ((d.wr O.VERIFY_RDI_MAP 0).wr O.VERIFY_REI_MAP 0).wr O.VERIFY_TFI_MAP 0
  ((d1.wr O.VERIFY_CLIENT_MAP 0).wr O.VERIFY_STATUS 1).onPair (fun p => { p with verify := true, verifyBase := reiTotals d })

/-- The maps gain what is seen now, while the window runs (R341). -/
def Dev.verifySample (d : Dev) : Dev :=
  if !d.pair.verify then d
  else
    let limit := d.rd O.VERIFY_REI_LIMIT
    let grew := fun (p : Nat) (i : Nat) (o : ObjId) => d.rd (keyAt o p) > smLook 0 d.pair.verifyBase (3 * p + i) + limit
    let rei := (List.range 64).foldl (fun m p =>
      if grew p 0 O.REI_MS || grew p 1 O.SM_BEI || grew p 2 O.PM_BEI then m ||| 2 ^ p else m) (d.rd O.VERIFY_REI_MAP)
    let rdi := (List.range 64).foldl (fun m p =>
      if d.rd (keyCtx O.DEFECT_REPORTED (portAddr p)) &&& 0x4240 != 0 then m ||| 2 ^ p else m) (d.rd O.VERIFY_RDI_MAP)
    let tfi := (List.range 32).foldl (fun m l =>
      if d.flag (keyAt O.TFI_LANE_STATUS l) 4 && !d.flag (keyAt O.TFI_LANE_STATUS l) 6 then m ||| 2 ^ l else m)
      (d.rd O.VERIFY_TFI_MAP)
    let cli := (List.range 32).foldl (fun m c =>
      if d.flag (keyAt O.CLIENT_STATUS c) 5 then m ||| 2 ^ c else m) (d.rd O.VERIFY_CLIENT_MAP)
    (((d.wr O.VERIFY_REI_MAP rei).wr O.VERIFY_RDI_MAP rdi).wr O.VERIFY_TFI_MAP tfi).wr O.VERIFY_CLIENT_MAP cli

/-- The claim is granted (R319): the gate opens; a Shadow taking over enters Service; a takeover is recorded (R335),
and causes 2 to 7 start a verification window (R341). -/
def claimGranted (d : Dev) : Dev :=
  if !d.claiming || d.claimIn || d.granted then d
  else
    let d1 := (d.putFlag O.PAIR_STATUS 8 true).putFlag O.PAIR_STATUS 6 true
    if !d.paired then d1
    else if d.inBisque then d1
    else
      let fresh := d.pairState == 2 && d.pair.cause != 0
      let d2 := d1.when d.inShadow (fun x => x.recordMode 2)
      let d3 := (d2.setPairState 1).putFlag O.PAIR_STATUS 4 false
      let d4 := d3.when (fresh && d.pair.fromJoin) (fun x => x.clearedStart.pmInvalidate)
      if !fresh then d4
      else
        let d5 := ((d4.count O.TAKEOVERS 1).wr O.LAST_TAKEOVER_TIME d.time).wr O.LAST_TAKEOVER_CAUSE d.pair.cause
        let d6 := d5.set1 O.PAIR_STATUS 24
        let d7 := d6.when (2 ≤ d.pair.cause) (fun x => x.startVerify.verifySample)
        (d7.onPair (fun p => { p with cause := 0, fromJoin := false })).pairEvent 1

def execClaimGrant (s : State) : Host.Outcome State Fault Refusal := done s (claimGranted s.dev)

/-- Heartbeats went on for 100 µs after the mate's claim disappeared (Table PA-5, row 2). -/
def interlockFault (d : Dev) : Dev :=
  if d.inShadow && d.pairRuns && d.linkUp && !d.claimIn && !d.claiming then
    (d.set1 O.PAIR_STATUS 27).pairEvent 6 true
  else d

def execInterlockFault (s : State) : Host.Outcome State Fault Refusal := done s (interlockFault s.dev)

/-! ## Frame-phase lock (R322) -/

/-- The Shadow locks: it takes the active's DEVICE_TIME, pair frame number and PM_SECOND. -/
def phaseLocked (d : Dev) (f : FrameMark) : Dev :=
  if d.inShadow && d.pairRuns && d.linkUp then
    ((d.putFlag O.PAIR_STATUS 15 true).wr O.DEVICE_TIME f.time.toNat).wr O.PAIR_FRAME f.frame.toNat
      |>.wr O.PM_SECOND f.second.toNat |>.onPmTime (fun t => { t with current := f.second.toNat, started := true })
  else d

def execPhaseLock (f : FrameMark) (s : State) : Host.Outcome State Fault Refusal := done s (phaseLocked s.dev f)

/-- The lock is lost: the Shadow rejoins at the dynamic part when generations agree, else at the generation part
(R322, R327). -/
def phaseLost (d : Dev) : Dev :=
  if d.inShadow && d.pairRuns && d.flag O.PAIR_STATUS 15 then
    let d1 := ((d.putFlag O.PAIR_STATUS 15 false).set1 O.PAIR_STATUS 26).onPair (fun p => { p with part := none, run := 0 })
    let same := d.genCopied && d.rd O.ACTIVE_GENERATION == d.pair.mateGen && d.active.genCrc.toNat == d.pair.mateCrc
    let d2 := d1.when (3 ≤ d.pairState && d.pairState ≤ 6) (fun x => x.setPairState (if same then 4 else 3))
    d2.pairEvent 7
  else d

def execPhaseLockLoss (s : State) : Host.Outcome State Fault Refusal := done s (phaseLost s.dev)

/-- A FRAME_MARK: a locked Shadow follows the frame number and notes a flagged tick; a phase error above 2 cycles
loses the lock. -/
def frameMarked (d : Dev) (f : FrameMark) : Dev :=
  if d.inShadow && d.pairRuns && d.linkUp && d.flag O.PAIR_STATUS 15 then
    if f.error > 2 then phaseLost d
    else (d.wr O.PAIR_FRAME f.frame.toNat).onPair (fun p =>
      { p with mateTick := f.tick, mateSecond := f.second.toNat })
  else d

def execFrameMark (f : FrameMark) (s : State) : Host.Outcome State Fault Refusal := done s (frameMarked s.dev f)

/-! ## Joining (R324 to R327) -/

/-- Whether a copy moves in a Shadow: all four mate lanes are up (R325, R327). -/
def Dev.copyOn (d : Dev) : Bool := d.inShadow && d.pairRuns && d.fld O.PAIR_STATUS 11 4 == 15

/-- A join starts or restarts: lock, all four lanes up, the active in Service and not admitting (R325, R327); a part that a lost lane
broke off starts anew, and after three failures of a part none starts. On the active the first part starts to leave. -/
def joinStarted (d : Dev) : Dev :=
  if d.copyOn && d.flag O.PAIR_STATUS 15 && d.fld O.MATE_STATUS 0 4 == 1 && d.pair.fails < 3
      && (d.pairState == 3 || d.pairState == 4) then
    if d.pairState == 3 then (d.wr O.COPY_PROGRESS (2 ^ 30)).onPair (fun p => { p with part := some .generation })
    else if d.pair.part == some .pm then d.wr O.COPY_PROGRESS (3 * 2 ^ 30)
    else
      let target := d.active.genOp.toNat
      let d1 := (d.wr O.COPY_PROGRESS (2 * 2 ^ 30)).onPair (fun p => { p with part := some .dynamic })
      d1.when (target < d.op) (fun x => ((x.putFlag O.OP_STATUS 8 true).putFld O.OP_STATUS 2 2 target).onClk
        (fun c => { c with raise := true, settled := false }))
  else if d.inService && d.pairState == 1 && d.linkUp && d.rd O.PENDING_STATE != 2 && d.rd O.PENDING_STATE != 3 then
    d.sendMate (.copy (if d.fld O.MATE_STATUS 0 4 == 4 then .dynamic else .generation))
  else d

def execJoinStart (s : State) : Host.Outcome State Fault Refusal := done s (joinStarted s.dev)

/-- COPY_PROGRESS of a part: its number and the bytes received so far (Table PA-8). -/
def Dev.progress (d : Dev) (part bytes : Nat) : Dev :=
  let old := if d.fld O.COPY_PROGRESS 30 2 == part then d.fld O.COPY_PROGRESS 0 30 else 0
  d.wr O.COPY_PROGRESS (part * 2 ^ 30 + (old + bytes) % 2 ^ 30)

/-- Whether a state copy carries the value of a key (Table PA-3): context state outside the banks, and no guarded object (R12). -/
def copyable (k : Key) : Bool :=
  match findObj k.idx k.sub with
  | some o => inContextState o.base o.sub && !o.gen && !o.guard
  | none => false

/-- A client's record from the mate: its fill and control state, with the buffers' contents of this unit (R325). -/
def ClientSt.taken (now : Nat) (own x : ClientSt) : ClientSt :=
  { x with since := now - x.since, ingress := own.ingress, came := own.came, lead := own.lead, buf := own.buf, intBits := own.intBits }

/-- A channel's record from the mate: its control state, with the bytes held by this unit. -/
def TfiCh.taken (own x : TfiCh) : TfiCh := { x with out := own.out, pos := own.pos, play := own.play }

/-- A record of the dynamic part is written in the Shadow (R326; log entry 154). -/
def Dev.copyRec (d : Dev) : CopyRec → Dev
  | .word k v => if copyable k then d.wr k v.toNat else d
  | .text k v => if copyable k then d.wrStr k v else d
  | .sections p rx tx => (d.onSecRx p.val (fun _ => rx)).onSecTx p.val (fun _ => tx)
  | .pointers a rx tx => { d with ptrRx := smPut {} d.ptrRx a.toNat rx, ptrTx := smPut {} d.ptrTx a.toNat tx }
  | .overhead a x => { d with poh := smPut {} d.poh a.toNat x }
  | .blocks a sd sf => { d with ber := smPut ({}, {}) d.ber a.toNat (sd, sf) }
  | .actions a v => { d with acts := smPut 0 d.acts a.toNat v }
  | .channel a x => d.onCh a.toNat (fun own => own.taken x)
  | .selector a x => d.onProt a.toNat (fun _ => { x with wtr := x.wtr.map (· + d.elapsed) })
  | .client c x pm => { d.onClient c.val (fun own => own.taken d.elapsed x) with cpm := smPut {} d.cpm c.val pm }
  | .dccTx q l => { d with oh := { d.oh with dccTx := smPut [] d.oh.dccTx q.val l } }

/-- A record of the PM part. -/
def Dev.copyPm (d : Dev) (r : Addr × PmCtx) : Dev := { d with pm := smPut {} d.pm r.1.toNat r.2 }

/-- Records of the copy are written in the Shadow (R325, R326). -/
def copied (d : Dev) (p : CopyPart) : Dev :=
  if !d.copyOn then d
  else match p with
    | .generation b n =>
      if d.pair.part == some .generation then (d.edit (fun _ => b)).progress 1 n else d
    | .dynamic recs n =>
      if d.pair.part == some .dynamic then (recs.foldl Dev.copyRec d).progress 2 n else d
    | .pm recs n =>
      if d.pair.part == some .pm then (recs.foldl Dev.copyPm d).progress 3 n else d

def execCopy (p : CopyPart) (s : State) : Host.Outcome State Fault Refusal := done s (copied s.dev p)

/-- A part of the copy ends (R325, R327): a good generation part is switched in at the next boundary, the PM part ends
the join; a bad part counts a failure, and the third ends in a severe event. -/
def partEnded (d : Dev) (p : PartName) (crcOk : Bool) : Dev :=
  if !(d.copyOn && d.pair.part == some p) then d
  else if !crcOk then
    let d := (d.channelUsed 1).when (p == .generation) (fun x => x.mateVerify 32768)
    let n := d.pair.fails + 1
    let d1 := (d.count O.COPY_FAILURES 1).onPair (fun x => { x with fails := n })
    let no := match p with
      | .generation => 1
      | .dynamic => 2
      | .pm => 3
    if n < 3 then (d1.wr O.COPY_PROGRESS (no * 2 ^ 30)).pairEvent 5
    else ((d1.set1 O.PAIR_STATUS 25).onPair (fun x => { x with part := none })).pairEvent 5 true
  else match p with
    | .generation =>
      let d1 := ((d.channelUsed 1).mateVerify 65535 |>.putFlag O.PAIR_STATUS 4 true).setPairState 4
      let d2 := d1.onProv (fun v => { v with sched := some { committed := true, copied := true } })
      ((d2.wr O.PENDING_STATE 3).wr O.COPY_PROGRESS (2 * 2 ^ 30)).onPair (fun x => { x with part := some .dynamic, fails := 0 })
    | .dynamic =>
      (d.wr O.COPY_PROGRESS (3 * 2 ^ 30)).onPair (fun x => { x with part := some .pm, fails := 0 })
    | .pm =>
      (((d.wr O.COPY_PROGRESS 0).setPairState 5).wr O.SYNC_FRAMES 0).onPair (fun x => { x with part := none, run := 0 })

def execEndRecord (p : PartName) (crcOk : Bool) (s : State) : Host.Outcome State Fault Refusal :=
  done s (partEnded s.dev p crcOk)

/-! ## Signatures and self-check (R328 to R331) -/

/-- The revert count restarts: it runs at a home unit in READY without marks, with REVERT_EN (R336). -/
def Dev.restartRevert (d : Dev) : Dev :=
  let ok := d.home && d.inShadow && d.pairState == 6 && !d.faulty && !d.suspect && !d.unresolved && d.flag O.PAIR_CTRL 1
  d.onPair (fun p => { p with revertAt := if ok then some (d.elapsed + d.rd O.REVERT_WTR * 1000000000) else none })

/-- A self-check starts in this unit (R330). -/
def Dev.startCheck (d : Dev) : Dev :=
  (d.scanHold.wr O.SELF_CHECK_RESULT 0).onPair (fun p => { p with check := true, ownCheck := none, mateCheck := none })

/-- The sources of a frame whose value differs from this unit's own (R328). -/
def mismatches (own : SMap Word) (values : List (BitVec 32)) : List Nat :=
  (List.range 128).filter (fun i => (smLook 0 own i).toNat != ((values[i]?).getD 0).toNat)

/-- The active's signatures of a frame arrive (R328, R329): matching frames advance SYNCING to READY, a differing one is
counted, and two in a row in READY start a self-check. -/
def signaturesIn (d : Dev) (frame : Nat) (values : List (BitVec 32)) : Dev :=
  if !(d.inShadow && d.pairRuns && d.linkUp && (d.pairState == 5 || d.pairState == 6)) then d
  else
    let own := match d.pair.sigHist.find? (fun e => e.1 == frame) with
      | some e => e.2
      | none => []
    match mismatches own values with
    | [] =>
      let n := min (d.rd O.SYNC_FRAMES + 1) 255
      let d1 := (d.wr O.SYNC_FRAMES n).onPair (fun p => { p with run := 0 })
      if d.pairState == 5 && n ≥ 16 then (d1.setPairState 6).restartRevert else d1
    | src :: _ =>
      let d1 := ((d.count O.MISMATCH_FRAMES 1).set1 O.PAIR_STATUS 23).wr O.LAST_MISMATCH (frame % 2 ^ 24 * 256 + src)
      let run := d.pair.run + 1
      let d2 := ((d1.wr O.SYNC_FRAMES 0).onPair (fun p => { p with run := run })).restartRevert.pairEvent 3
      if d.pairState == 6 && run ≥ 2 && !d.unresolved && !d.pair.check then d2.startCheck.sendMate (.selfCheck none)
      else d2

def execSignatures (frame : BitVec 32) (values : List (BitVec 32)) (s : State) : Host.Outcome State Fault Refusal :=
  done s (signaturesIn s.dev frame.toNat values)

/-- Whether a self-check result is a fail (R330). -/
def checkFails (r : CheckResult) : Bool := r.bank || r.ecc || r.datapath

/-- The PAIR event of a self-check outcome (Table FC-1, DETAIL 4). -/
def Dev.checkEvent (d : Dev) (forced : Bool) : Dev :=
  d.pairEvent (4 + d.fld O.SELF_CHECK_RESULT 8 4 * 256 + d.fld O.SELF_CHECK_RESULT 0 4 * 65536) forced

/-- The outcome of a self-check by Table PA-4. -/
def Dev.checkOutcome (d : Dev) (own mate : Bool) : Dev :=
  let d1 := d.scanHold.onPair (fun p => { p with check := false, run := 0 })
  let active := d.inService
  if own && !mate then
    if active then d1.checkEvent false |>.releaseClaim 3 true
    else (d1.putFlag O.PAIR_STATUS 16 true).checkEvent false
  else if !own && mate then d1.checkEvent false
  else if !own then
    ((d1.putFlag O.PAIR_STATUS 18 true).when (!active) (fun x => x.putFlag O.PAIR_STATUS 17 true)).checkEvent false
  else if active then d1.checkEvent true
  else (d1.putFlag O.PAIR_STATUS 16 true).checkEvent false

/-- The outcome is decided once both results are known. -/
def Dev.checkDecide (d : Dev) : Dev :=
  match d.pair.ownCheck, d.pair.mateCheck with
  | some o, some m => if d.pair.check then d.checkOutcome (checkFails o) (checkFails m) else d
  | _, _ => d

/-- A SELF_CHECK message: a start, or the mate's result (R329, R330, Table PA-9). -/
def selfCheckIn (d : Dev) (mate : Option CheckResult) : Dev :=
  if !d.pairRuns then d
  else match mate with
    | none => if d.pair.check then d else d.startCheck
    | some r =>
      if !d.pair.check then d
      else
        let v := 1 + 2 * ofBit r.bank + 4 * ofBit r.ecc + 8 * ofBit r.datapath
        ((d.putFld O.SELF_CHECK_RESULT 8 4 v).onPair (fun p => { p with mateCheck := some r })).checkDecide

def execSelfCheck (mate : Option CheckResult) (s : State) : Host.Outcome State Fault Refusal :=
  done s (selfCheckIn s.dev mate)

/-- This unit's checks end (R330): a gated check-value unit fails the bank check (R376), a recorded uncorrectable error
fails the ECC check; the result goes to the mate. -/
def selfCheckOwn (d : Dev) (own : CheckResult) : Dev :=
  if !d.pair.check || d.pair.ownCheck.isSome then d
  else
    let r : CheckResult := { own with bank := own.bank || !d.gateOn gCheck, ecc := own.ecc || d.pair.eccSeen }
    let v := 1 + 2 * ofBit r.bank + 4 * ofBit r.ecc + 8 * ofBit r.datapath
    ((d.scanHold.channelUsed 0 |>.putFld O.SELF_CHECK_RESULT 0 4 v).sendMate (.selfCheck (some r))).onPair (fun p => { p with ownCheck := some r })
      |>.checkDecide

def execSelfCheckEnd (own : CheckResult) (s : State) : Host.Outcome State Fault Refusal := done s (selfCheckOwn s.dev own)

/-- The mate's result has not arrived 250 µs after the start: it counts as a fail (R331). -/
def selfCheckLate (d : Dev) : Dev :=
  if !d.pair.check || d.pair.mateCheck.isSome then d
  else
    let own := match d.pair.ownCheck with
      | some r => checkFails r
      | none => true
    (d.putFlag O.SELF_CHECK_RESULT 12 true).checkOutcome own true

def execSelfCheckTimeout (s : State) : Host.Outcome State Fault Refusal := done s (selfCheckLate s.dev)

/-! ## Takeover, revert, handover (R332 to R340) -/

/-- A RELEASE arrives (R332): a Shadow with a complete copy that is neither FAULTY nor SUSPECT claims, at once or when
the mate's claim disappears (log entry 14). -/
def releaseIn (d : Dev) (cause : Nat) : Dev :=
  if d.inShadow && d.pairRuns && (d.pairState == 5 || d.pairState == 6) && !d.faulty && !d.suspect then
    if d.claimIn then d.onPair (fun p => { p with released := some cause }) else d.startClaim cause
  else d

def execRelease (cause : Fin 8) (s : State) : Host.Outcome State Fault Refusal := done s (releaseIn s.dev cause.val)

/-- A boundary at least two frames after now (R337, R338). -/
def Dev.boundaryAfter (d : Dev) (b : Nat) : Nat := laterFrame b ((d.pairFrame + 2) % 2 ^ 32)

/-- The revert count ends at the home unit (R336, R337). -/
def revertDue (d : Dev) : Dev :=
  if d.pair.revertAt.isSome && d.home && d.inShadow && d.pairRuns && d.pairState == 6 && !d.faulty && !d.suspect && !d.unresolved
      && d.flag O.PAIR_CTRL 1 then
    (d.onPair (fun p => { p with revertAt := none })).sendRequest 6
  else d

def execRevertWtrExpiry (s : State) : Host.Outcome State Fault Refusal := done s (revertDue s.dev)

/-- A REVERT_REQUEST arrives: the active grants a revert unless it is in a self-check, a join or a joint commit past
R92 (R337); a standby grants a handover when it is READY, unmarked and in no self-check or join (R338). -/
def revertRequested (d : Dev) (boundary cause : Nat) : Dev :=
  let b := d.boundaryAfter boundary
  let joining := 3 ≤ d.fld O.MATE_STATUS 0 4 && d.fld O.MATE_STATUS 0 4 ≤ 4
  let pastPoint := match d.prov.sched with
    | some s => s.committed && s.joint.isSome
    | none => false
  if d.inService && d.paired && d.pairState == 1 then
    if d.pair.check || joining || pastPoint then d
    else (d.sendMate (.revertGrant b)).onPair (fun p => { p with agreed := some { boundary := b, takes := false, cause := 6 } })
  else if d.inShadow && d.pairRuns && d.pairState == 6 && !d.faulty && !d.suspect && !d.pair.check && d.pair.part.isNone then
    (d.sendMate (.revertGrant b)).onPair (fun p => { p with agreed := some { boundary := b, takes := true, cause := cause } })
  else d

def execRevertRequest (boundary : BitVec 32) (cause : Fin 8) (s : State) : Host.Outcome State Fault Refusal :=
  done s (revertRequested s.dev boundary.toNat cause.val)

/-- A REVERT_GRANT answers this unit's request and names the boundary (R337, R338). -/
def revertGranted (d : Dev) (b : Nat) : Dev :=
  match d.pair.request with
  | none => d
  | some (_, cause) => d.onPair (fun p => { p with request := none, agreed := some { boundary := b, takes := cause == 6, cause := cause } })

def execRevertGrant (boundary : BitVec 32) (s : State) : Host.Outcome State Fault Refusal :=
  done s (revertGranted s.dev boundary.toNat)

/-- No grant within four frames (R338): a forced handover ends without effect, a mode change proceeds alone, a revert
restarts its count (log entry 15). -/
def grantLate (d : Dev) : Dev :=
  match d.pair.request with
  | none => d
  | some (_, cause) =>
    let d1 := d.onPair (fun p => { p with request := none })
    if cause == 5 then d1.wr O.FORCE_HANDOVER 0
    else if cause == 7 then d1.onMode (fun m => { m with trans := m.trans.map (fun t => { t with handshake := none }) })
    else d1.restartRevert

def execGrantTimeout (s : State) : Host.Outcome State Fault Refusal := done s (grantLate s.dev)

/-- The handover at the agreed boundary, once it has come (Table PA-6): each unit acts only if the heartbeat is present. -/
def handoverAt (d : Dev) : Dev :=
  match d.pair.agreed with
  | none => d
  | some a =>
    if !frameReached d.pairFrame a.boundary then d else
    let d0 := d.onPair (fun p => { p with agreed := none })
    let d1 := d0.when (a.cause == 5) (fun x => x.wr O.FORCE_HANDOVER 0)
    if !d.linkUp then d1.onMode (fun m => { m with trans := m.trans.map (fun t => { t with handshake := none }) })
    else
      let d2 := d1.cancelEarly 5
      if a.takes then d2.startClaim a.cause
      else
        let d3 := d2.stopClaim.sendMate (.release a.cause)
        match a.cause, d.mode.trans with
        | 7, some t =>
          if t.target == 3 then ((d3.recordMode 3).setPairState 5).wr O.SYNC_FRAMES 0 |>.wr O.MODE_GUARDED 0
          else (d3.setPairState 0).onMode (fun m => { m with trans := some { t with handshake := none } })
        | _, _ => ((d3.recordMode 3).setPairState 5).wr O.SYNC_FRAMES 0

def execHandover (s : State) : Host.Outcome State Fault Refusal := done s (handoverAt s.dev)

/-- FORCE_HANDOVER applied (R340): refused unless this unit is active and the mate READY and unmarked. -/
def forceHandover (d : Dev) : Dev × Nat :=
  if d.pairState == 1 && d.mateReady && d.pair.request.isNone && d.pair.agreed.isNone then
    ((d.wr O.FORCE_HANDOVER 1).sendRequest 5, 0)
  else (d, abRefused)

def execForceHandover (m : Master) (s : State) : Host.Outcome State Fault Refusal :=
  hostGuard s m 0x2501 2 8 1 (fun _ d => forceHandover d)

/-- PAIR_CTRL applied (Table PA-12): CLEAR_MARKS clears the marks; a change of PAIR_EN shows in the pair state at once
(log entry 16). -/
def pairCtrlApply (v : Nat) (d : Dev) : Dev × Nat :=
  let old := d.rd O.PAIR_CTRL
  let bad := (old ^^^ v) &&& 0xFFFFFEFC != 0
  let d1 := { (d.wr O.PAIR_CTRL (v &&& 0xFFFFFEFF)) with undoc := d.undoc || bad }
  let d2 := d1.when (bit v 8) (fun x => x.putFld O.PAIR_STATUS 16 3 0)
  let d3 := if bit v 0 == bit old 0 then d2
    else if !bit v 0 then (d2.setPairState 0).putFld O.PAIR_STATUS 10 5 0 |>.wr O.MATE_STATUS 0
    else if d.inService then d2.setPairState (if d.granted then 1 else 2)
    else if d.inShadow then d2.setPairState 3
    else d2
  (if bit v 1 == bit old 1 && bit v 8 == false then d3 else d3.restartRevert, 0)

def execPairCtrl (m : Master) (v : BitVec 32) (s : State) : Host.Outcome State Fault Refusal :=
  hostGuard s m 0x2501 1 32 v.toNat pairCtrlApply

/-- The verification window ends (R341). -/
def verifyEnd (d : Dev) : Dev :=
  if !d.pair.verify then d
  else
    let d1 := d.verifySample
    let findings := d1.rd O.VERIFY_RDI_MAP != 0 || d1.rd O.VERIFY_REI_MAP != 0 || d1.rd O.VERIFY_TFI_MAP != 0
      || d1.rd O.VERIFY_CLIENT_MAP != 0
    let d2 := (d1.wr O.VERIFY_STATUS (4 + 2 * ofBit findings)).onPair (fun p => { p with verify := false, verifyBase := [] })
    d2.pairEvent (8 + 256 * ofBit findings)

def execVerifyWindowEnd (s : State) : Host.Outcome State Fault Refusal := done s (verifyEnd s.dev)

end Sys2Proof.Machine
end

