-- ==== Sys2Proof/Machine/CheckValue.lean ====
section
/-!
DEFINITION. The check-value unit: check-value algorithms, host scans, the periodic integrity check (R404 to R416).
-/
namespace Sys2Proof.Machine

/-! ## Channel results -/

/-- RESULT of a channel (R406). -/
def Dev.cvResult (d : Dev) (n : Nat) : Nat :=
  let alg := d.rd (keyAt O.ALGORITHM n)
  (d.rd (keyAt O.RUNNING n) ^^^ crcXor alg) % (if alg == 2 then 2 ^ 16 else 2 ^ 32)

/-! ## Regions (Table CV-3) -/

/-- The region, 0 to 4 in the order of Table CV-3, that a range of bytes lies inside. -/
def scanRegion (start len : Nat) : Option Nat :=
  let inside := fun (lo hi : Nat) => lo ≤ start && start + len ≤ hi + 1
  if inside 0 0x1FFFFF then some 0
  else if inside 0x400000 0x5FFFFF then some 1
  else if inside 0x800000 0xB7FFFF then some 2
  else if inside 0xC00000 0x137FFFF then some 3
  else if inside 0x1400000 0x14FFFFF then some 4
  else none

/-- Whether the pending bank is region `r`. -/
def Dev.isPendingRegion (d : Dev) (r : Nat) : Bool := (r == 0 && d.activeB) || (r == 1 && !d.activeB)

/-- Whether a frozen host scan holds the pending bank (R409). -/
def Dev.bankFrozen (d : Dev) : Bool :=
  match d.cvu.host with
  | some s => s.frozen && (match scanRegion s.start s.len with | some r => r ≤ 1 | none => false)
  | none => false

/-- Whether a frozen host scan stalls the management controller (R409). -/
def Dev.firmwareFrozen (d : Dev) : Bool :=
  match d.cvu.host with
  | some s => s.frozen && scanRegion s.start s.len == some 4
  | none => false

/-! ## Host scans (R407 to R410) -/

/-- The host scan ends ABORTED with a cause of Table CV-9, with RUNNING as far as it got: the value of bytes whose placement the manual
does not publish is free (log entry 6). -/
def Dev.abortScan (d : Dev) (cause : Nat) : Dev :=
  match d.cvu.host with
  | none => d
  | some s =>
    let n := d.scanBeats s
    let d1 := ((d.putFld O.SCAN_STATUS 0 3 4).putFld O.SCAN_STATUS 4 4 cause).putFlag O.SCAN_STATUS 9 false
    let d2 := (d1.set1 O.CV_STATUS 11).wr O.SCAN_NEXT (s.next n)
    (d2.when (n != 0) (fun x => (x.wr (keyAt O.RUNNING 3)
      ((Config.freeWord x.free).toNat % (if s.alg == 2 then 2 ^ 16 else 2 ^ 32))).fresh)).onCvu (fun c => { c with host := none })

/-- Clamp and gating abort every user's scan (R410). -/
def Dev.abortScans (d : Dev) (cause : Nat) : Dev := (d.abortScan cause).onCvu (fun c => { c with integ := false })

/-- A host scan starts (R407, R409, R410). -/
def startScan (d : Dev) (v : Nat) : Dev × Nat :=
  let start := d.rd O.SCAN_START
  let len := d.rd O.SCAN_LENGTH
  let alg := bits v 2 2
  let freeze := bit v 1
  if d.cvu.host.isSome then (d, abRefused)
  else if start % 8 != 0 || len % 8 != 0 || len < 8 then (d, abRange)
  else match scanRegion start len with
    | none => (d, abRange)
    | some r =>
      let freezable := r == 4 || (d.isPendingRegion r && d.rd O.PENDING_STATE == 0)
      if freeze && !freezable then (d, abRefused)
      else
        let d1 := (d.wr O.SCAN_CTRL (v &&& 0xCF)).wr (keyAt O.ALGORITHM 3) alg
        let d2 := d1.when (bit v 0) (fun x => x.wr (keyAt O.RUNNING 3) (crcInit alg))
        let d3 := (d2.wr O.SCAN_NEXT start).wr O.SCAN_STATUS (1 + 512 * ofBit freeze)
        (d3.onCvu (fun c => { c with host := some {
          alg := alg, start := start, len := len, frozen := freeze, init := bit v 0
          since := max d.elapsed c.mateUntil } }), 0)

/-- A write of SCAN_CTRL (Table CV-8, R410). -/
def scanCtrlWrite (d : Dev) (v : Nat) : Dev × Nat :=
  let old := d.rd O.SCAN_CTRL
  let bad := (old ^^^ v) &&& 0xC0 != 0
  let mark := fun (x : Dev) => { x with undoc := x.undoc || bad }
  if bits v 2 2 == 3 || (bit v 4 && bit v 5) then (d, abRange)
  else if bit v 4 then
    let r := startScan d v
    if r.2 == 0 then (mark r.1, 0) else r
  else (mark ((d.wr O.SCAN_CTRL (v &&& 0xCF)).when (bit v 5) (fun x => x.abortScan 1)), 0)

def execGo (m : Master) (s : State) : Host.Outcome State Fault Refusal :=
  hostNum s m O.SCAN_CTRL (s.dev.rd O.SCAN_CTRL ||| 16) (fun d =>
    if !d.gateOn gCheck then (d, 0) else scanCtrlWrite d (d.rd O.SCAN_CTRL ||| 16))

def execAbort (m : Master) (s : State) : Host.Outcome State Fault Refusal :=
  hostNum s m O.SCAN_CTRL (s.dev.rd O.SCAN_CTRL ||| 32) (fun d =>
    if !d.gateOn gCheck then (d, 0) else scanCtrlWrite d (d.rd O.SCAN_CTRL ||| 32))

/-- The bytes 64 to the end of a bank, scanned with CRC-32C from the initial value, give its GEN_CRC (R83, R415); any
other scan's value is not fixed by the manual, which publishes no placement (log entry 6). -/
def scanRunning (d : Dev) (s : Scan) : Nat :=
  let crc := fun (b : Bool) => (d.crcOf b).toNat ^^^ 0xFFFFFFFF
  if s.alg == 0 && s.init && s.len == 0x1FFFC0 && s.start == 0x40 then crc false
  else if s.alg == 0 && s.init && s.len == 0x1FFFC0 && s.start == 0x400040 then crc true
  else (Config.freeWord d.free).toNat % (if s.alg == 2 then 2 ^ 16 else 2 ^ 32)

/-- The host scan completes (R410); LIVE when its region was not frozen and was written during it (R408). An uncorrectable word ends it
ABORTED, and single-bit errors are counted (R31, R411). -/
def scanDone (d : Dev) (touched : Bool) (ecc : Ecc) : Dev :=
  match d.cvu.host with
  | none => d
  | some s =>
    if d.displaced then d
    else if ecc == .uncorrectable then (d.memoryErrorSomewhere ((scanRegion s.start s.len).getD 0)).abortScan 4
    else
      let d := d.eccHit ((scanRegion s.start s.len).getD 0) ecc
      let d1 := (d.wr (keyAt O.RUNNING 3) (scanRunning d s)).fresh
      let d2 := (d1.wr O.SCAN_STATUS (3 + 256 * ofBit (touched && !s.frozen))).wr O.SCAN_NEXT (s.start + s.len)
      (d2.set1 O.CV_STATUS 10).onCvu (fun c => { c with host := none })

def execScanComplete (touched : Bool) (ecc : Ecc) (s : State) : Host.Outcome State Fault Refusal := done s (scanDone s.dev touched ecc)

/-- Whether a channel's user is active (R406): channel 1 also while it is fed by the stream of a dynamic or PM part (R415). -/
def Dev.channelBusy (d : Dev) (n : Nat) : Bool :=
  (n == 0 && d.selfScan) || (n == 1 && (d.mateScan || d.pair.part == some .dynamic || d.pair.part == some .pm))
    || (n == 2 && d.cvu.integ) || (n == 3 && d.cvu.host.isSome)

/-- A write of RUNNING (R406): refused while the channel's user is active. -/
def runningWrite (d : Dev) (n v : Nat) : Dev × Nat :=
  if d.channelBusy n then (d, abRefused)
  else (d.wr (keyAt O.RUNNING n) (if d.rd (keyAt O.ALGORITHM n) == 2 then v % 2 ^ 16 else v), 0)

def execRunning (m : Master) (n : Fin 4) (v : BitVec 32) (s : State) : Host.Outcome State Fault Refusal :=
  hostNum s m (keyAt O.RUNNING n.val) v.toNat (fun d => if !d.gateOn gCheck then (d, 0) else runningWrite d n.val v.toNat)

/-! ## Generation integrity (R412, R413) -/

/-- A check falls due: it starts unless one runs, the unit is gated, or nothing makes it due. -/
def integrityStart (d : Dev) : Dev :=
  let due := d.rd O.INTEGRITY_PERIOD != 0 || d.cvu.dueFrames == some 0
  if d.inBoot || d.clamped || !d.gateOn gCheck || d.cvu.integ || !due then d
  else (d.scanHold.wr (keyAt O.RUNNING 2) (crcInit 0)).onCvu (fun c =>
    { c with integ := true, dueFrames := if c.dueFrames == some 0 then none else c.dueFrames })

def execIntegrityCheckStart (s : State) : Host.Outcome State Fault Refusal := done s (integrityStart s.dev)

/-- The value an attempt leaves in LAST_COMPUTED, if it computed one. -/
def attemptValue : Attempt → Option Nat
  | .result v => some v.toNat
  | _ => none

/-- An attempt that met an uncorrectable word reports it (R411): the header word is at offset 0 of its bank. -/
def attemptReport (bank : Nat) (d : Dev) : Attempt → Dev
  | .result _ => d
  | .badHeader => d.memoryError bank 0
  | .badData => d.memoryErrorSomewhere bank

/-- The DETAIL of a failed check (Table CV-4). -/
def integrityDetail (l : List Attempt) : Nat :=
  if l.all (· == .badHeader) then 2
  else if l.all (· == .badData) then 3
  else 1 + ((l.filterMap attemptValue).getLast?.getD 0) % 2 ^ 24 * 256

/-- A check ends (R412, R413). A check fails only when three attempts fail; the single-bit errors that its reads met are counted (R31). -/
def integrityEnd (d : Dev) (attempts : List Attempt) (corrected : Nat) : Dev :=
  if !d.cvu.integ || d.integDisplaced then d
  else
    let gen := d.active.genCrc.toNat
    let bank := d.rd O.ACTIVE_BANK
    let tries := attempts.take 3
    let pass := tries.any (fun a => attemptValue a == some gen)
    if !pass && tries.length < 3 then d
    else
      let d0 := (tries.foldl (attemptReport bank) d.scanHold).count (O.ECC_CORRECTED + bank) corrected
      let last := ((tries.filterMap attemptValue).getLast?).getD (d.rd O.LAST_COMPUTED)
      let d1 := ((d0.wr O.LAST_COMPUTED last).wr O.LAST_CHECK_TIME d.time).count O.INTEGRITY_CHECKS 1
      let d2 := (d1.wr (keyAt O.RUNNING 2) (last ^^^ 0xFFFFFFFF)).onCvu (fun c => { c with integ := false })
      let faulty := d.flag O.CV_STATUS 8
      let first := match tries with
        | a :: _ => attemptValue a == some gen
        | [] => false
      if pass then
        let d3 := d2.when (!first) (fun x => x.count O.INTEGRITY_RESCANS 1)
        if faulty then (d3.putFlag O.CV_STATUS 8 false).raise { cls := clsIntegrity, inst := bank, level := 5, detail := 4, clear := true }
        else d3
      else
        let d3 := ((d2.putFlag O.CV_STATUS 8 true).set1 O.CV_STATUS 9).count O.INTEGRITY_FAILURES 1
        if faulty then d3 else d3.raise { cls := clsIntegrity, inst := bank, level := 5, detail := integrityDetail tries }

def execIntegrityCheckEnd (attempts : List Attempt) (corrected : BitVec 32) (s : State) : Host.Outcome State Fault Refusal :=
  done s (integrityEnd s.dev attempts corrected.toNat)

end Sys2Proof.Machine
end

