-- ==== Sys2Proof/Machine/Clocks.lean ====
section
/-!
DEFINITION. Kiln: sources, monitors, selection and fallback, Clamp, operating points, block gating, auxiliary clocks
and device time (R360 to R385).
-/
namespace Sys2Proof.Machine

/-- The bit of CLOCK_STATUS that says a source is qualified or a PLL locked (Table CK-11). -/
def sourceBit : Source → Nat
  | .intosc => 2 | .xtal => 3 | .refA => 4 | .refB => 5 | .synth => 6 | .mgmtPll => 9 | .corePll => 10 | .tfiPll => 11

/-- A reference's place in the order of R364, if it is one. -/
def refCode : Source → Option Nat
  | .refA => some 0 | .refB => some 1 | .synth => some 2
  | _ => none

def Dev.qualified (d : Dev) (s : Source) : Bool := d.flag O.CLOCK_STATUS (sourceBit s)

/-- A line reference is enabled in REF_CTRL of the generation in force and qualified (R364). -/
def Dev.refUsable (d : Dev) (i : Nat) : Bool := d.genBit O.REF_CTRL i && d.flag O.CLOCK_STATUS (4 + i)

/-- The first usable reference in the order of R364; 3 when there is none. -/
def Dev.bestRef (d : Dev) : Nat :=
  if d.refUsable 0 then 0 else if d.refUsable 1 then 1 else if d.refUsable 2 then 2 else 3

def Dev.refSelected (d : Dev) : Nat := d.fld O.CLOCK_STATUS 0 2

/-- The multiplexer forces a switch away from a stopped clock (R366). -/
def Dev.forcedSwitch (d : Dev) (stopped : Bool) : Dev :=
  d.when stopped (fun x => ((x.count O.FORCED_SWITCHES 1).set1 O.CLOCK_STATUS 23).clockEvent 4)

/-- The management domain moves to the internal oscillator, and device time runs from it (R363, R365, R379). -/
def Dev.mgmtFallback (d : Dev) (stopped : Bool) : Dev :=
  ((((d.putFlag O.CLOCK_STATUS 8 true).set1 O.CLOCK_STATUS 20).putFlag O.TIME_STATUS 0 true).clockEvent 2).forcedSwitch stopped

/-- The line reference changes (R364). -/
def Dev.switchRef (d : Dev) (r : Nat) (stopped : Bool) : Dev :=
  (((d.putFld O.CLOCK_STATUS 0 2 r).set1 O.CLOCK_STATUS 22).clockEvent 3).forcedSwitch stopped

/-- Entry into Clamp for causes given as a mask of Table CK-3 (R34, R346, R368): outputs are inert, the claim stops, a
scheduled switch-in and a transition end, host scans abort. -/
def Dev.enterClamp (d : Dev) (causes : Nat) : Dev :=
  let old := d.rd O.CLAMP_CAUSE
  let d1 := d.wr O.CLAMP_CAUSE (old ||| causes ||| causes * 2 ^ 16)
  if d.clamped then d1
  else
    let d2 := (((d1.putFlag O.MODE_STATUS 9 true).set1 O.MODE_STATUS 22).putFlag O.MODE_STATUS 10 false)
    let d3 := ((d2.putFld O.MODE_STATUS 4 3 d.modeCode).onMode (fun m => { m with trans := none })).wr O.MODE_GUARDED 0
    let d4 := ((d3.stopClaim.cancelSched 3).upset 3).abortScans 3
    let d5 := d4.onPair (fun p => { p with request := none, agreed := none, check := false, released := none })
    let lost := causes % 2 == 1
    let d6 := d5.onClk (fun c => { c with mgmtLost := c.mgmtLost || lost })
    ((d6.onLine (fun x => { x with spoiled := List.range 64 })).clockEvent 5 (d6.rd O.CLAMP_CAUSE % 2 ^ 16)).pmBreak

/-- Causes of Table CK-3 end. -/
def Dev.causeEnds (d : Dev) (mask : Nat) : Dev :=
  let v := d.rd O.CLAMP_CAUSE
  d.wr O.CLAMP_CAUSE (v - (v &&& mask))

/-- A reference that was qualified keeps only its stopped-clock check while the crystal is not (R361). -/
def Dev.monitorRuns (d : Dev) (s : Source) (stopped : Bool) : Bool :=
  d.qualified s && (stopped || d.qualified .xtal || !(s == .refA || s == .refB))

/-- A monitor trips (R361 to R368). -/
def monitorTrip (d : Dev) (s : Source) (stopped : Bool) : Dev :=
  if !d.monitorRuns s stopped then d
  else
    let d1 := (d.putFlag O.CLOCK_STATUS (sourceBit s) false).count O.MONITOR_TRIPS 1 |>.set1 O.CLOCK_STATUS 21
    let onInt := d.flag O.CLOCK_STATUS 8
    let d2 := if s == .xtal then d1.putFld O.CLOCK_STATUS 9 3 0 |>.putFlag O.CLOCK_STATUS 6 false else d1
    let d3 := d2.clockEvent 1
    -- the management domain (R363)
    let d4 := if (s == .xtal || s == .mgmtPll) && !onInt then
        if d3.qualified .intosc then
          d3.mgmtFallback stopped
        else (d3.onClk (fun c => { c with mgmtDead := stopped })).enterClamp 1
      else if s == .intosc && onInt then d3.enterClamp 1
      else d3
    -- the core and TFI domains (R368)
    let pll := if s == .xtal then 6 else if s == .corePll then 2 else if s == .tfiPll then 4 else 0
    let d5 := d4.when (pll != 0) (fun x => x.enterClamp pll)
    -- the line reference (R364, R365)
    let lostRef := if s == .xtal then some 2 else refCode s
    if d.inBoot || lostRef != some d.refSelected || d.refSelected == 3 then d5
    else
      let best := d5.bestRef
      if best == 3 then (d5.putFld O.CLOCK_STATUS 0 2 3).enterClamp 8 |>.onClk
        (fun c => { c with stopped := if stopped then [d.refSelected] else [] })
      else d5.switchRef best stopped

def execMonitorTrip (src : Source) (stopped : Bool) (s : State) : Host.Outcome State Fault Refusal :=
  done s (monitorTrip s.dev src stopped)

/-- A source completes its qualification, or a PLL locks (R361): no reference newly qualifies while the crystal is not
qualified; a domain that waits in Clamp for it switches to it (R365). -/
def sourceQualified (d : Dev) (s : Source) : Dev :=
  let needsXtal := s == .refA || s == .refB || s == .synth || s == .mgmtPll || s == .corePll || s == .tfiPll
  if needsXtal && !d.qualified .xtal then d
  else
    let d1 := d.putFlag O.CLOCK_STATUS (sourceBit s) true
    let d2 := match s with
      | .intosc => (if d.inBoot && !d.qualified .mgmtPll then
          (d1.putFlag O.CLOCK_STATUS 8 true).putFlag O.TIME_STATUS 0 true
        else if d.flag O.CLAMP_CAUSE 0 && !d.flag O.CLOCK_STATUS 8 then d1.mgmtFallback d.clk.mgmtDead else d1).causeEnds 1
      | .corePll => (d1.when (d.inBoot && d.mode.boot == .oscillators) (fun x =>
          x.onMode (fun m => { m with boot := .memoryClear }))).causeEnds 2
      | .tfiPll => d1.causeEnds 4
      | _ => d1
    if d.inBoot then (if s == .synth then d2.putFld O.CLOCK_STATUS 0 2 2 else d2)
    else if d.refSelected == 3 && d2.bestRef != 3 then
      (d2.switchRef d2.bestRef (!d.clk.stopped.isEmpty)).causeEnds 8 |>.onClk (fun c => { c with stopped := [] })
    else d2

def execSourceQualified (src : Source) (s : State) : Host.Outcome State Fault Refusal := done s (sourceQualified s.dev src)

/-- The bit of Table CK-3 of a monitored supply. -/
def railBit : Rail → Nat
  | .vddCore => 4 | .vddSram => 5 | .vddaSd => 6 | .vddhSd => 7

def execSupplyLow (r : Rail) (s : State) : Host.Outcome State Fault Refusal :=
  done s (s.dev.enterClamp (2 ^ railBit r))

def execSupplyRestored (r : Rail) (s : State) : Host.Outcome State Fault Refusal :=
  done s (s.dev.causeEnds (2 ^ railBit r))

/-- A zeroisation that waited for Inert goes on: the fuse pair of Retired is blown (R421 step 2). -/
def Dev.zeroiseBurn (d : Dev) : Dev := d.onSec (fun s => { s with burns := s.burns ++ [.lifecycle 3] })

/-- Clamp is released (R346, R369, R401): no cause remains and the management, core and TFI domains have sources. The
recorded mode leads to Inert; in Boot, Boot resumes. -/
def clampReleased (d : Dev) : Dev :=
  let sources := (if d.flag O.CLOCK_STATUS 8 then d.qualified .intosc else d.qualified .mgmtPll)
    && (d.inBoot || (d.qualified .corePll && d.qualified .tfiPll))
  if !d.clamped || d.rd O.CLAMP_CAUSE % 2 ^ 16 != 0 || !sources then d
  else
    let d1 := (d.putFlag O.MODE_STATUS 9 false).set1 O.MODE_STATUS 23
    let d2 := if 2 ≤ d.modeCode then
        ((((d1.cancelEarly 3).recordMode 1).setPairState 0).putFlag O.PAIR_STATUS 4 false).when d.sec.zeroising Dev.zeroiseBurn else d1
    let d3 := if d.clk.mgmtLost then d2.clockEvent 5 (d.rd O.CLAMP_CAUSE / 2 ^ 16) else d2
    (d3.clockEvent 6 0 true).pmRelease.onClk (fun c => { c with mgmtLost := false })

def execClampRelease (s : State) : Host.Outcome State Fault Refusal := done s (clampReleased s.dev)

/-- A return to an earlier reference (R364): leaving the synthesised one always, between B and A only with REVERT. -/
def referenceReturn (d : Dev) (s : Source) : Dev :=
  match refCode s with
  | none => d
  | some r =>
    if d.inBoot || d.refSelected == 3 || !d.refUsable r || r ≥ d.refSelected then d
    else if d.refSelected == 1 && !d.genBit O.REF_CTRL 3 then d
    else d.switchRef r false

def execReferenceReturn (src : Source) (s : State) : Host.Outcome State Fault Refusal := done s (referenceReturn s.dev src)

/-- The management domain returns to its PLL (R363), crystal qualified and PLL locked; the CAN controller resumes with
its state intact (R468). -/
def mgmtReturn (d : Dev) : Dev :=
  if !d.qualified .xtal then d
  else
    let d1 := ((d.putFlag O.CLOCK_STATUS 9 true).putFlag O.CLOCK_STATUS 8 false).putFlag O.TIME_STATUS 0 false
    ((d1.causeEnds 1).onOut (fun o => { o with can := o.can ++ d.can.held })).onCan (fun c => { c with held := [] })

def execMgmtPllReturn (s : State) : Host.Outcome State Fault Refusal := done s (mgmtReturn s.dev)

/-! ## Operating points (R370 to R375) -/

/-- Kiln starts to raise the core to a higher point (Table CK-5). -/
def Dev.startRaise (d : Dev) (target : Nat) : Dev :=
  ((d.putFlag O.OP_STATUS 8 true).putFld O.OP_STATUS 2 2 target).onClk
    (fun c => { c with raise := true, settled := false, lower := false })

/-- The target point being entered (Table CK-12). -/
def Dev.targetOp (d : Dev) : Nat := d.fld O.OP_STATUS 2 2

def voltageSettled (d : Dev) (mv : Nat) : Dev :=
  if d.clk.raise then (d.wr O.VCORE_READBACK mv).onClk (fun c => { c with settled := true }) else d

def execVoltageSettled (mv : BitVec 16) (s : State) : Host.Outcome State Fault Refusal :=
  done s (voltageSettled s.dev mv.toNat)

/-- The divisor changes at a frame boundary (R370 to R372): upward once the voltage has settled, and the swap that waited for it can
come at the next boundary (R90, Table PV-7); downward at the boundary after the swap. -/
def divisorChanged (d : Dev) : Dev :=
  let target := d.targetOp
  let move := fun (x : Dev) =>
    if d.op == target then x
    else ((x.putFld O.OP_STATUS 0 2 target).wr O.ACTIVE_OP target).set1 O.OP_STATUS 10 |>.count O.OP_CHANGES 1
  if d.clk.raise && d.clk.settled then
    ((move d).putFlag O.OP_STATUS 8 false).onClk (fun c => { c with raise := false, settled := false })
      |>.onProv (fun p => { p with sched := p.sched.map (fun s => { s with raised := true }) }) |>.switchPoint
  else if d.clk.lower then move d
  else d

def execDivisorChange (s : State) : Host.Outcome State Fault Refusal := done s (divisorChanged s.dev)

def voltageLowered (d : Dev) (mv : Nat) : Dev :=
  if d.clk.lower && d.op == d.targetOp then
    ((d.wr O.VCORE_READBACK mv).putFlag O.OP_STATUS 8 false).onClk (fun c => { c with lower := false })
  else d

def execVoltageLowered (mv : BitVec 16) (s : State) : Host.Outcome State Fault Refusal :=
  done s (voltageLowered s.dev mv.toNat)

/-- An upward change fails (R373). -/
def avsFailed (d : Dev) : Dev :=
  if !d.clk.raise then d
  else
    let d1 := (d.putFlag O.OP_STATUS (4 + d.targetOp) true).set1 O.OP_STATUS 11
    let d2 := ((d1.putFld O.OP_STATUS 2 2 d.op).putFlag O.OP_STATUS 8 false).onClk (fun c => { c with raise := false, settled := false })
    d2.cancelRaise.clockEvent 7

def execAvsFault (s : State) : Host.Outcome State Fault Refusal := done s (avsFailed s.dev)

/-- OP_OVERRIDE applied (R374). -/
def opOverrideApply (v : Nat) (d : Dev) : Dev × Nat :=
  let raising := v != 0 && v - 1 < d.op
  if v != 0 && d.flag O.OP_STATUS (4 + (v - 1)) then (d, abRefused)
  else if raising && d.flag O.OP_STATUS 8 then (d, abRefused)
  else
    let d1 := d.wr O.OP_OVERRIDE v
    let d2 := if v == d.rd O.OP_OVERRIDE then d1 else d1.cancelEarly 4
    (d2.when raising (fun x => x.startRaise (v - 1)), 0)

def execOpOverride (m : Master) (v : BitVec 8) (s : State) : Host.Outcome State Fault Refusal :=
  hostGuard s m 0x2102 1 8 v.toNat opOverrideApply

def opRetry (d : Dev) : Dev × Nat := (d.putFld O.OP_STATUS 4 3 0, 0)

def execOpRetry (m : Master) (v : BitVec 8) (s : State) : Host.Outcome State Fault Refusal :=
  hostNum s m O.OP_RETRY v.toNat (fun d => trigger v.toNat d opRetry)

/-! ## Block gating (R376, R377) -/

/-- BLOCK_CLOCK_ENABLE applied: cleared bits stop their blocks at once, set bits let them resume at the next boundary;
any change cancels a scheduled switch-in. -/
def gatesApply (v : Nat) (d : Dev) : Dev × Nat :=
  let old := d.rd O.BLOCK_CLOCK_ENABLE
  let bad := (old ^^^ v) &&& 0xF0000000 != 0
  let off := old &&& (0x0FFFFFFF ^^^ (v &&& 0x0FFFFFFF))
  let on := v &&& (0x0FFFFFFF ^^^ (old &&& 0x0FFFFFFF))
  let d1 := { ((d.wr O.BLOCK_CLOCK_ENABLE v).wr O.BLOCK_CLOCK_STATE (v &&& 0x0FFFFFFF)) with undoc := d.undoc || bad }
  let d2 := d1.onClk (fun c => { c with resume := (c.resume ||| on) &&& (v &&& 0x0FFFFFFF) })
  let d3 := ((List.range 64).filter (fun l => bit off (12 + l / 4))).foldl Dev.spoilGate (d2.when (v != old) (fun x => x.cancelEarly 4))
  let d4 := d3.when (bit off gCheck) (fun x => x.abortScans 2)
  ((d4.when (bit off gMate && d.paired) (fun x => (x.putFld O.PAIR_STATUS 11 4 0))).pmBreak, 0)

def execBlockClockEnable (m : Master) (v : BitVec 32) (s : State) : Host.Outcome State Fault Refusal :=
  hostGuard s m 0x2110 1 32 v.toNat gatesApply

/-- Blocks whose bits were set again resume at a frame boundary (R377, R472). -/
def blocksResume (d : Dev) : Dev :=
  let mask := d.clk.resume
  let d1 := d.onClk (fun c => { c with resume := 0 })
  if d.traffic then d1.blockStart mask else d1

def execBlockResume (s : State) : Host.Outcome State Fault Refusal := done s (blocksResume s.dev)

/-! ## Auxiliary clocks and device time (R378 to R381) -/

/-- An auxiliary synthesiser relocks after a switch-in changed its control (R378). -/
def execAuxRelock (n : Fin 2) (s : State) : Host.Outcome State Fault Refusal :=
  done s (s.dev.onClk (fun c => { c with auxHeld := c.auxHeld.filter (· != n.val) }))

/-- TIME_STEP (R380): applied at the next boundary; a second write replaces the first; refused in Shadow. -/
def timeStepWrite (d : Dev) (v : Nat) : Dev × Nat :=
  if d.inShadow then (d, abRefused)
  else ((d.putFlag O.TIME_STATUS 1 true).onClk (fun c => { c with step := some (toSigned 32 v) }), 0)

def execTimeStep (m : Master) (v : BitVec 32) (s : State) : Host.Outcome State Fault Refusal :=
  hostNum s m O.TIME_STEP v.toNat (fun d => timeStepWrite d v.toNat)

/-- The pending step is added to DEVICE_TIME at a boundary; the second in progress counts as shifted (R380). -/
def Dev.applyStep (d : Dev) : Dev :=
  match d.clk.step with
  | none => d
  | some i =>
    let t := (((d.time : Int) + i) % (2 : Int) ^ 64).toNat
    ((d.wr O.DEVICE_TIME t).putFlag O.TIME_STATUS 1 false).set1 O.TIME_STATUS 2 |>.onClk (fun c => { c with step := none })
      |>.onPmTime (fun p => { p with stepped := true })

/-- A 1 s gate of a reference ends (R381). -/
def refGateEnd (d : Dev) (s : Source) (count : Nat) (valid : Bool) : Dev :=
  let v := if valid && d.qualified s && d.qualified .xtal then ppmOffset count 155520000 1 else noReading
  match s with
  | .refA => d.wr O.REFA_OFFSET v
  | .refB => d.wr O.REFB_OFFSET v
  | _ => d

def execRefOffsetGateEnd (src : Source) (count : Nat) (valid : Bool) (s : State) : Host.Outcome State Fault Refusal :=
  done s (refGateEnd s.dev src count valid)

end Sys2Proof.Machine
end

