-- ==== Sys2Proof/Machine/Modes.lean ====
section
/-!
DEFINITION. Operating modes: requests, the change at a frame boundary, wake control, resets and Boot (R344 to R359, R420 to
R422, R462).
-/
namespace Sys2Proof.Machine

/-! ## Requests (R348, R349) -/

/-- MODE_REQUEST written with a mode code. -/
def modeRequestWrite (v : Nat) (d : Dev) : Dev × Nat :=
  if v < 1 || 5 < v then (d, abRange) else d.requestMode v false

/-- MODE_GUARDED applied with a mode code. -/
def modeGuardedApply (v : Nat) (d : Dev) : Dev × Nat := d.requestMode v true

def execModeRequestInert (m : Master) (s : State) : Host.Outcome State Fault Refusal :=
  hostNum s m O.MODE_REQUEST 1 (modeRequestWrite 1)
def execModeRequestService (m : Master) (s : State) : Host.Outcome State Fault Refusal :=
  hostNum s m O.MODE_REQUEST 2 (modeRequestWrite 2)
def execModeRequestShadow (m : Master) (s : State) : Host.Outcome State Fault Refusal :=
  hostNum s m O.MODE_REQUEST 3 (modeRequestWrite 3)
def execModeRequestQuiesce (m : Master) (s : State) : Host.Outcome State Fault Refusal :=
  hostNum s m O.MODE_REQUEST 4 (modeRequestWrite 4)
def execModeGuardedInert (m : Master) (s : State) : Host.Outcome State Fault Refusal :=
  hostGuard s m 0x2001 2 8 1 modeGuardedApply
def execModeGuardedShadow (m : Master) (s : State) : Host.Outcome State Fault Refusal :=
  hostGuard s m 0x2001 2 8 3 modeGuardedApply
def execModeGuardedQuiesce (m : Master) (s : State) : Host.Outcome State Fault Refusal :=
  hostGuard s m 0x2001 2 8 4 modeGuardedApply
def execModeGuardedBisque (m : Master) (s : State) : Host.Outcome State Fault Refusal :=
  hostGuard s m 0x2001 2 8 5 modeGuardedApply

/-- WAKE_CTRL (R352): WAKE_MODE 3 aborts. -/
def wakeWrite (v : Nat) (d : Dev) : Dev × Nat :=
  if bits v 1 2 == 3 then (d, abRange)
  else ({ d.wr O.WAKE_CTRL v with undoc := d.undoc || (d.rd O.WAKE_CTRL ^^^ v) &&& 0xF8 != 0 }, 0)

def execWakeCtrl (m : Master) (v : BitVec 8) (s : State) : Host.Outcome State Fault Refusal :=
  hostNum s m O.WAKE_CTRL v.toNat (wakeWrite v.toNat)

/-! ## The change at boundary F (R350, R320, R472) -/

/-- The SerDes and quad PLLs power down; in Quiesce the monitored receivers stay (R351, R122). -/
def Dev.serdesDown (d : Dev) (quiesce : Bool) : Dev :=
  let d1 := (List.range 64).foldl (fun (x : Dev) l =>
    if quiesce && d.genBit (keyAt O.LANE_CTRL l) 7 then x else (x.putFld (keyAt O.LANE_STATUS l) 0 4 0).spoilGate l) d
  ((List.range 16).foldl (fun (x : Dev) q => x.putFlag (quadKey q) 3 false) d1).onLine
    (fun x => { x with settle := [], anew := [], lost := [] })

/-- The pair logic stops but for the interlock (Table MO-3): UNPAIRED, the link not followed, nothing copied. -/
def Dev.pairIdle (d : Dev) : Dev :=
  let d1 := ((d.stopClaim.setPairState 0).putFlag O.PAIR_STATUS 4 false).putFld O.PAIR_STATUS 10 6 0
  ((d1.putFld O.PAIR_STATUS 19 2 0).wr O.MATE_STATUS 0).onPair (fun p =>
    { p with part := none, check := false, request := none, agreed := none, released := none, revertAt := none })

/-- A mode that drives or joins starts its claim or its join at F (R320, R321). -/
def Dev.enterClaim (d : Dev) (target : Nat) : Dev :=
  if target == 3 then (d.onPair (fun p => { p with request := none, agreed := none })).enterJoin
  else if d.claimIn then d else d.startClaim 1

/-- Whether a scheduled switch-in has passed the point of R92. -/
def Dev.swapCommitted (d : Dev) : Bool :=
  match d.prov.sched with
  | some s => s.committed
  | none => false

/-- The mode changes at F (R350 steps 2 to 4). A change waits while its handshake runs (R340) and while a swap is committed
(R350, commit frame). -/
def modeChange (d : Dev) : Dev :=
  match d.mode.trans with
  | none => d
  | some t =>
    if d.clamped || t.handshake.isSome || d.swapCommitted then d
    else
      let target := if t.target == 2 && d.paired && d.claimIn then 3 else t.target
      let d1 := (d.cancelEarly 3).recordMode target
      if target == 1 || target == 4 then
        let d2 := (d1.serdesDown (target == 4)).pairIdle
        d2.when (target == 1 && d.sec.zeroising) Dev.zeroiseBurn
      else
        let d2 := if d.inInert || d.inQuiesce then d1.receiveStart else d1.actionsStart
        (d2.when d.inService Dev.stopClaim).enterClaim target

def execModeChange (s : State) : Host.Outcome State Fault Refusal := done s (modeChange s.dev)

/-! ## Resets (R353, R462) -/

/-- What a burn leaves in the OTP (R420, R423, R426). -/
def burnDone (d : Dev) (b : Burn) : Dev :=
  match b with
  | .lifecycle v => d.wr O.LIFECYCLE v
  | .rollback v => d.wr O.ROLLBACK_COUNTER v
  | .owner fp => (d.wrStr O.OWNER_KEY_FP fp).putFlag O.SEC_STATUS 0 true

/-- Burns in progress are completed, never undone (R420). -/
def Dev.burnAll (d : Dev) : Dev := (d.sec.burns.foldl burnDone d).onSec (fun s => { s with burns := [] })

/-- A reset: Boot, with what the OTP, Saggar's store and the always-on domain keep (R353, R417, R420, R421, R434, R446); the
TAP has a reset of its own (R450), the level of TEST_EN is the pin's. -/
def Dev.rebooted (d : Dev) (cause straps : Nat) : Dev :=
  let o := d.burnAll
  let base : Dev := { devReset with
    elapsed := d.elapsed, free := d.free, jtag := d.jtag, out := { can := d.out.can, mate := d.out.mate } }
  let b1 := (((base.wr O.LIFECYCLE o.lifecycle).wr O.ROLLBACK_COUNTER (o.rd O.ROLLBACK_COUNTER)).wr O.REPORT_COUNTER
    (o.rd O.REPORT_COUNTER)).wrStr O.OWNER_KEY_FP (o.rdStr O.OWNER_KEY_FP)
  let b2 := (b1.putFlag O.SEC_STATUS 0 (o.flag O.SEC_STATUS 0)).putFlag O.SEC_STATUS 1 (o.flag O.SEC_STATUS 1 && o.lifecycle != 3)
  (b2.wr O.RESET_CAUSE cause).wr O.STRAPS (straps % 2048 + 2048 * ofBit (d.flag O.STRAPS 11))

def execPowerOn (straps : Straps) (s : State) : Host.Outcome State Fault Refusal :=
  .next { s with dev := s.dev.rebooted 0 straps.toNat }

/-- RESET_N low for a time (R462): below 2 µs ignored, from 10 µs a reset; between, either, which the manual leaves open (a
free value, log entry 5). -/
def resetPulse (d : Dev) (lowNs straps : Nat) : Dev :=
  if lowNs < 2000 then d
  else if 10000 ≤ lowNs then d.rebooted 1 straps
  else if Config.freeBit d.free then d.fresh.rebooted 1 straps
  else d.fresh

def execResetN (lowNs : Nat) (straps : Straps) (s : State) : Host.Outcome State Fault Refusal :=
  .next { s with dev := resetPulse s.dev lowNs straps.toNat }

/-- The watchdog expires (R353, R367); it is paused while the controller is halted (R428). -/
def execWatchdogExpiry (straps : Straps) (s : State) : Host.Outcome State Fault Refusal :=
  .next { s with dev := if s.dev.halted then s.dev else s.dev.rebooted 2 straps.toNat }

/-- UNIT_RESET applied (R353). -/
def unitResetApply (straps : Nat) (_ : Nat) (d : Dev) : Dev × Nat := (d.rebooted 3 straps, 0)

def execUnitReset (m : Master) (straps : Straps) (s : State) : Host.Outcome State Fault Refusal :=
  hostGuard s m 0x2001 3 8 1 (unitResetApply straps.toNat)

/-! ## Boot (R354 to R357, R422) -/

/-- The memories are clear (Table MO-7): Saggar turns to the first slot. -/
def sramCleared (d : Dev) : Dev :=
  if d.inBoot && d.mode.boot == .memoryClear then d.onMode (fun m => { m with boot := .firstSlot }) else d

def execSramClearEnd (s : State) : Host.Outcome State Fault Refusal := done s (sramCleared s.dev)

/-- A field of the manifest of Table SE-2. -/
def manifestAt (b : List Byte) (off n : Nat) : List Byte := (b.drop off).take n

/-- The segments of a manifest (Table SE-2): flash offset, RAM offset and length. -/
def manifestSegments (b : List Byte) : List (Nat × Nat × Nat) :=
  (List.range (ofBytesBE (manifestAt b 8 4))).map (fun i =>
    let f := fun (o : Nat) => ofBytesBE (manifestAt b (16 + 80 * i + o) 4)
    (f 0, f 4, f 8))

/-- Whether two ranges do not overlap. -/
def apart (a an b bn : Nat) : Bool := a + an ≤ b || b + bn ≤ a

/-- FORMAT, SEGMENT_COUNT and the places of the segments are as R422 asks. -/
def manifestFits (b : List Byte) : Bool :=
  let count := ofBytesBE (manifestAt b 8 4)
  let segs := manifestSegments b
  ofBytesBE (manifestAt b 0 4) == 1 && 1 ≤ count && count ≤ 8
    && segs.all (fun s => s.1 + s.2.2 ≤ 0x800000 && s.2.1 + s.2.2 ≤ 0x100000)
    && (List.range segs.length).all (fun i => (List.range i).all (fun j => match segs[i]?, segs[j]? with
      | some x, some y => apart x.2.1 x.2.2 y.2.1 y.2.2 && apart x.1 x.2.2 y.1 y.2.2
      | _, _ => true))

/-- The keys and signatures of a manifest verify (R418, R422). -/
def manifestSigned (d : Dev) (b : List Byte) : Bool :=
  let body := manifestAt b 0 656
  let key := manifestAt b 656 57
  let owner := manifestAt b 827 57
  Config.fingerprint key == Config.vendorKeyFp && Config.signatureGood key body (manifestAt b 713 114)
    && (!d.flag O.SEC_STATUS 0
      || (Config.fingerprint owner == d.rdStr O.OWNER_KEY_FP && Config.signatureGood owner body (manifestAt b 884 114)))

/-- The BOOT_ERROR of a slot (Table MO-6), 0 when it verifies: the first condition that fails (R355, R422). -/
def slotError (d : Dev) (second : Bool) (c : SlotContent) : Nat :=
  let base := if second then 3 else 0
  match c with
  | .unreadable => 7
  | .manifest b segs =>
    if !manifestFits b || !manifestSigned d b then base + 1
    else if !segs then base + 2
    else if ofBytesBE (manifestAt b 4 4) < d.rd O.ROLLBACK_COUNTER then base + 3
    else 0

/-- The slot that BOOT_SEL gives for a try: 0 A, 1 B (R355). -/
def bootSlot (d : Dev) (second : Bool) : Nat :=
  let sel := d.fld O.STRAPS 8 2
  if second then 1 - sel % 2 else sel % 2

/-- Saggar has read and checked a slot (R355, R422): firmware starts, or the second slot is tried, or Boot halts. -/
def slotVerified (d : Dev) (c : SlotContent) : Dev :=
  let second := d.mode.boot == .secondSlot
  if !d.inBoot || d.clamped || !(second || d.mode.boot == .firstSlot) then d
  else
    let e := slotError d second c
    if e == 0 then
      let b := match c with
        | .manifest x _ => x
        | .unreadable => []
      (d.wrStr O.MANIFEST_DIGEST (fitBytes 64 (Config.digest (manifestAt b 0 656)))).onMode (fun m => { m with
        boot := .firmware, slot := bootSlot d second, slotRb := ofBytesBE (manifestAt b 4 4), fallback := second })
    else
      let more := !second && d.fld O.STRAPS 8 2 < 2
      d.onMode (fun m => { m with bootError := e, boot := if more then .secondSlot else .halted })

def execBootSlotVerify (c : SlotContent) (s : State) : Host.Outcome State Fault Refusal := done s (slotVerified s.dev c)

/-- The Milber STATUS word in Boot (Table MO-6). -/
def bootWord (d : Dev) : Nat :=
  let stage := match d.mode.boot with
    | .oscillators => 1 | .memoryClear => 2 | .firstSlot => 3 | .secondSlot => 4 | .firmware => 5 | .halted => 15
  0xB0000000 + stage * 2 ^ 24 + d.mode.bootError * 2 ^ 16

/-- Generation 0 (R84), whose wheel is compiled for the point at which Boot ends, OP2. -/
def generation0 : Bank := { compiled {} 2 with genCrc := (bankCrc (compiled {} 2) []).setWidth 64 }

/-- Boot ends in Inert (R356, R357): generation 0 in both banks, the first selection of the reference (R364), the CAN layer
through Initialisation (R358). -/
def bootEnded (d : Dev) (ms : Nat) : Dev :=
  if !d.inBoot || d.clamped || d.mode.boot != .firmware then d
  else
    let d1 := { d with bankA := generation0, bankB := generation0 }
    let d2 := ((d1.putFld O.MODE_STATUS 0 3 1).putFld O.MODE_STATUS 4 3 1).wr O.MODE_ENTRY_TIME d.time
    let d3 := (d2.wr O.ACTIVE_CRC generation0.genCrc.toNat).wr O.ACTIVE_OP 2
    let d4 := d3.wr O.BOOT_INFO (d.mode.slotRb % 256 * 2 ^ 16 + ms * 2 ^ 8 + 4 * ofBit d.mode.fallback + d.mode.slot)
    let best := d4.bestRef
    let d5 := d4.putFld O.CLOCK_STATUS 0 2 best
    (d5.when (best == 3) (fun x => x.enterClamp 8)).canInit

def execBootEnd (bootMs : BitVec 8) (s : State) : Host.Outcome State Fault Refusal := done s (bootEnded s.dev bootMs.toNat)

end Sys2Proof.Machine
end

