-- ==== Sys2Proof/Machine/Admission.lean ====
section
/-!
DEFINITION. The arithmetic of admission: path positions, loads, budgets and the eleven checks (R94 to R101, R105, R108, R161,
R175 to R177, R193, R254 to R257, R270 to R272, R279, R286, R432, R449). Log entries 26 to 31.
-/
namespace Sys2Proof.Machine

/-! ## Positions (Table MP-1, R175, R176) -/

/-- The port type that carries a port number's AU-4s: a bonded OTU3 port carries those of its whole quad (R7). -/
def carrier (b : Bank) (p : Nat) : Nat := if portType b (p / 4 * 4) == 6 then 6 else portType b p

/-- The AU-4 positions under one port number. -/
def auPositions (b : Bank) (p : Nat) : Nat := let t := carrier b p; if t == 6 then 64 else stmN t

/-- Whether a path type sits at a position, its parent apart (Table MP-1). -/
def fits (b : Bank) (a v : Nat) : Bool :=
  let n := auPositions b (adPort a)
  let au := adAu4 a
  let two := adLevel a == 2
  let one := adLevel a == 1
  let tu := one && adL a != 0 && adM a != 0
  if v == 1 then two && adK a == 0 && au < n
  else if v == 2 then two && adK a == 0 && au % 4 == 0 && au + 4 ≤ n
  else if v == 3 then two && adK a == 0 && au % 16 == 0 && au + 16 ≤ n
  else if v == 4 then two && adK a == 0 && au == 0 && 64 ≤ n
  else if v == 5 then two && adK a != 0 && au < n
  else if v == 6 then one && adL a == 0 && adM a == 0 && adK a != 0 && au < n
  else if v == 7 then tu && adM a ≤ 3 && au < n
  else v == 8 && tu && au < n

/-- PATH_TYPE of a context in a bank; 0 where none is provisioned. -/
def typeIn (b : Bank) (a : Nat) : Nat := bankRd b (keyCtx O.PATH_TYPE a)

/-- Whether the parent that Table MP-1 asks for is provisioned. -/
def parentFits (b : Bank) (a v : Nat) : Bool :=
  let vc4 := typeIn b (au4Addr (adPort a) (adAu4 a)) == 1
  if v ≤ 5 then true
  else if v == 6 then vc4
  else vc4 || typeIn b (au3Addr (adPort a) (adAu4 a) (adK a)) == 5

/-- Whether a path type at `a` meets another context where both cannot stand (R176). -/
def clashes (b : Bank) (a v c : Nat) : Bool :=
  let w := typeIn b c
  if c == a || adPort c != adPort a || adLevel c != adLevel a then false
  else if adLevel a == 2 then
    let meet := adAu4 c < adAu4 a + auCount v && adAu4 a < adAu4 c + auCount w
    meet && !(v == 5 && w == 5 && adK a != adK c)
  else if adAu4 c != adAu4 a || adK c != adK a then false
  else (v == 6) != (w == 6) || (adL c == adL a && v != w)

/-- The level-1 contexts under a level-2 context (R176). -/
def under (b : Bank) (a : Nat) : List Nat :=
  (b.numbers.map (·.1)).filter (fun c => adLevel c == 1 && adPort c == adPort a && adAu4 c == adAu4 a
    && (adK a == 0 || adK c == adK a))

/-- The internal numbers of a level in use. -/
def numbersOf (b : Bank) (level : Nat) : List Nat := (b.numbers.filter (fun e => adLevel e.1 == level)).map (·.2)

/-- The lowest free number of a level (R178). -/
def lowestFree (b : Bank) (level : Nat) : Nat :=
  let used := numbersOf b level
  ((List.range (used.length + 1)).find? (fun n => !used.contains n)).getD 0

/-- A context leaves a bank: its number is freed and its settings are gone. -/
def unprovision (b : Bank) (a : Nat) : Bank :=
  { b with
    numbers := smDrop b.numbers a
    regs := b.regs.filter (fun e => Key.inst e.1 != a)
    strs := b.strs.filter (fun e => Key.inst e.1 != a) }

/-- PATH_TYPE written at an address of level 1 or 2 (R175, R176, R178): the abort code, or the bank after it. -/
def pathTypeIn (b : Bank) (a v : Nat) : Bank × Nat :=
  let here := provisioned b a
  let loaded := adLevel a == 2 && !(under b a).isEmpty
  if v > 8 then (b, abRange)
  else if v == 0 then (if here && loaded then (b, abRange) else (unprovision b a, 0))
  else if !fits b a v || !parentFits b a v then (b, abRange)
  else if (b.numbers.map (·.1)).any (fun c => clashes b a v c) then (b, abRange)
  else if here && loaded && typeIn b a != v then (b, abRange)
  else if !here && (numbersOf b (adLevel a)).length ≥ (if adLevel a == 2 then 12288 else 49152) then (b, abRange)
  else
    let b1 := if here then b else { b with numbers := smInsert a (lowestFree b (adLevel a)) b.numbers }
    (bankWr b1 (keyCtx O.PATH_TYPE a) v, 0)

/-- The port that a context's AU-4s belong to. -/
def ownerPort (b : Bank) (a : Nat) : Nat := if portType b (adPort a / 4 * 4) == 6 then adPort a / 4 * 4 else adPort a

/-- PORT_TYPE written in a bank (R105, R177). -/
def portTypeIn (b : Bank) (p v : Nat) : Bank × Nat :=
  let b1 := bankWr b (keyAt O.PORT_TYPE p) v
  let bad := (b.numbers.map (·.1)).any (fun a =>
    (ownerPort b a == p || ownerPort b1 a == p) && !fits b1 a (typeIn b a))
  if v > 6 || (v == 6 && p % 4 != 0) || bad then (b, abRange) else (b1, 0)

/-! ## The mapping table (Tables MP-8, MP-9) -/

/-- Whether a mapping entry keeps the ranges of Table MP-8. -/
def entryOk (e : Nat) : Bool :=
  let k := entryKind e
  bits e 37 25 == 0 &&
  (if k == 0 then e == 0
   else if k == 1 then bits e 14 18 == 0
   else if k == 2 then entryTarget e == 0
   else entryUnit e == 0 && addrValid (entryTarget e))

/-- The mapping entry of a context in a bank. -/
def entryIn (b : Bank) (a : Nat) : Nat := bankRd b (keyCtx O.MAP_ENTRY a)

/-- The entries of a kind in a bank (3402). -/
def countKind (b : Bank) (k : Nat) : Nat := (b.numbers.filter (fun e => entryKind (entryIn b e.1) == k)).length

/-! ## Candidates (R94) -/

/-- A failing candidate: the address it ranks at, its object, the context it reports. -/
abbrev Finding := Nat × Nat × Nat

/-- The object of instance `i` of a per-instance object, as OFFENDING_OBJECT carries it. -/
def codeAt (o : ObjId) (i : Nat) : Nat := keyAt o i * 256

/-- The first of two candidates in the order of R94. -/
def earlier (x y : Finding) : Finding := if x.1 < y.1 || (x.1 == y.1 && x.2.1 ≤ y.2.1) then x else y

/-- The first failing candidate of a check. -/
def firstOf : List Finding → Option Finding
  | [] => none
  | x :: r => some (r.foldl earlier x)

/-- The contexts of a bank. -/
def ctxs (b : Bank) : List Nat := b.numbers.map (·.1)

/-- The context that a client is bound to in a bank; 0 for none (R279). -/
def boundIn (b : Bank) (c : Nat) : Nat :=
  ((ctxs b).find? (fun a => entryKind (entryIn b a) == 2 && entryUnit (entryIn b a) == c)).getD 0

/-- CLIENT_TYPE in a bank. -/
def clientIn (b : Bank) (c : Nat) : Nat := bits (bankRd b (keyAt O.CLIENT_CTRL c)) 0 4
def clientsIn (b : Bank) : List Nat := (List.range 32).filter (fun c => clientIn b c != 0)

/-- The TFI lanes that a bank enables. -/
def lanesIn (b : Bank) : List Nat := (List.range 32).filter (fun l => bit (bankRd b (keyAt O.TFI_LANE_CTRL l)) 0)

/-- The groups of a bank by working port, and its selectors by working member. -/
def groupsIn (b : Bank) : List Nat := (List.range 64).filter (fun w => protPartner b (portAddr w) != 0)
def selectorsIn (b : Bank) : List Nat := (ctxs b).filter (fun a => protPartner b a != 0)
def groupPartner (b : Bank) (w : Nat) : Nat := bankRd b (keyAt O.PROTECTION_PORT w)

/-! ## Check 1 (R431, R432) -/

def check1 (act b : Bank) (s : AdmSnap) : List Finding :=
  let guardd := if !s.privileged && bankRd act O.SEC_POLICY != bankRd b O.SEC_POLICY then [(0, codeAt O.SEC_POLICY 0, 0)] else []
  let off := if s.lifecycle != 3 then []
    else (portsOn b).map (fun p => (portAddr p, codeAt O.PORT_TYPE p, 0))
      ++ (clientsIn b).map (fun c => (boundIn b c, codeAt O.CLIENT_CTRL c, 0))
      ++ (lanesIn b).map (fun l => (0, codeAt O.TFI_LANE_CTRL l, 0))
      ++ (selectorsIn b).map (fun w => (w, codeAt O.SNCP_PROTECTING 0, 0))
  guardd ++ off

/-! ## Check 2 (R193, R255, R257, R279) -/

/-- Whether a client type rides on a path type (Table CL-1). -/
def clientFits (ty pt : Nat) : Bool := if ty == 4 || ty == 5 then pt == 8 else ty != 0 && pt == 7

/-- What a non-zero entry names: nothing else may name the same (R193). -/
def destination (e : Nat) : Nat :=
  if entryKind e == 1 then 2 ^ 62 + entryUnit e * 2 ^ 32 + bits e 0 14
  else if entryKind e == 2 then 2 ^ 63 + entryUnit e
  else 2 ^ 62 + 2 ^ 63 + entryTarget e

/-- Whether a context belongs to a port of a bank. -/
def onPort (b : Bank) (p a : Nat) : Bool := ownerPort b a == p

/-- The mapping entry of a context breaks R193 or R279. -/
def entryBad (b : Bank) (dests : List Nat) (a : Nat) : Bool :=
  let e := entryIn b a
  let k := entryKind e
  let t := entryTarget e
  k != 0 && (
    (dests.filter (· == destination e)).length > 1
    || (k == 3 && (!provisioned b t || t == a || entryKind (entryIn b t) != 0 || typeIn b t != typeIn b a))
    || (k == 2 && !clientFits (clientIn b (entryUnit e)) (typeIn b a))
    || (adLevel a == 2 && !(under b a).isEmpty)
    || (selectorsIn b).any (fun w => protPartner b w == a)
    || (groupsIn b).any (fun w => onPort b (groupPartner b w) a))

/-- The context at the same place of the other port of a group (R255); `p` and `w` name bonded quads by their first. -/
def mirror (a src dst : Nat) : Nat := movePort a (adPort a + dst - src)

def check2 (b : Bank) : List Finding :=
  let dests := ((ctxs b).map (entryIn b)).filter (fun e => entryKind e != 0) |>.map destination
  let maps := ((ctxs b).filter (entryBad b dests)).map (fun a => (a, codeAt O.MAP_ENTRY 0, a))
  let groups := (groupsIn b).flatMap (fun w =>
    let p := groupPartner b w
    let obj := codeAt O.PROTECTION_PORT w
    if p == w || portType b p != portType b w || bankRd b (keyAt O.PORT_STANDARD p) != bankRd b (keyAt O.PORT_STANDARD w) then
      [(portAddr w, obj, portAddr w)]
    else
      let lone := (ctxs b).filter (fun a =>
        (onPort b w a && typeIn b (mirror a w p) != typeIn b a) || (onPort b p a && typeIn b (mirror a p w) != typeIn b a))
      (lone.take 1).map (fun a => (portAddr w, obj, a)))
  let sels := ((selectorsIn b).filter (fun w => provisioned b (protPartner b w) && typeIn b (protPartner b w) != typeIn b w)).map
    (fun w => (w, codeAt O.SNCP_PROTECTING 0, w))
  maps ++ groups ++ sels

/-! ## Check 3 (R105, R108, R161, R255, R257, R449) -/

/-- The claims of a list that an earlier claim already makes. -/
def secondClaims : List (List Nat × Finding) → List Nat → List Finding
  | [], _ => []
  | (keys, f) :: r, held => (if keys.any held.contains then [f] else []) ++ secondClaims r (held ++ keys)

/-- DCC queues that enabled ports name, in order (R161). -/
def dccClaims (b : Bank) : List (List Nat × Finding) :=
  (portsOn b).flatMap (fun p => [O.DCC_QUEUE_R, O.DCC_QUEUE_M].filterMap (fun o =>
    let q := bankRd b (keyAt o p)
    if q < 16 then some ([q], (portAddr p, codeAt o p, 0)) else none))

def check3 (b : Bank) : List Finding :=
  let pins := secondClaims ([O.FRAME_PULSE_PIN, O.TICK_PIN, O.CLAIM_MONITOR_PIN, O.RECCLK_PIN].filterMap (fun o =>
    if bankRd b o < 4 then some ([bankRd b o], (0, codeAt o 0, 0)) else none)) []
  let quads := (List.range 16).flatMap (fun q =>
    let ps := [4 * q, 4 * q + 1, 4 * q + 2, 4 * q + 3]
    if portType b (4 * q) == 6 then
      (ps.drop 1).filterMap (fun p => if portType b p != 0 then some (portAddr p, codeAt O.PORT_TYPE p, 0) else none)
    else
      let on := ps.filter (portOn b)
      let otu := fun (p : Nat) => portType b p == 5
      match on with
      | [] => []
      | f :: r => (r.filter (fun p => otu p != otu f)).map (fun p => (portAddr p, codeAt O.PORT_TYPE p, 0)))
  let members := secondClaims ((selectorsIn b).map (fun w =>
    ([w, protPartner b w], (w, codeAt O.SNCP_PROTECTING 0, w)))) []
  let groups := secondClaims ((groupsIn b).map (fun w =>
    ([w, groupPartner b w], (portAddr w, codeAt O.PROTECTION_PORT w, 0)))) []
  let nested := (groupsIn b).flatMap (fun w =>
    let hit := (selectorsIn b).flatMap (fun x => [x, protPartner b x]) |>.filter (fun a =>
      onPort b w a || onPort b (groupPartner b w) a)
    (hit.take 1).map (fun a => (portAddr w, codeAt O.PROTECTION_PORT w, a)))
  pins ++ quads ++ secondClaims (dccClaims b) [] ++ members ++ groups ++ nested

/-! ## Check 4 (R39, R449, Table CK-9) -/

def check4 (b : Bank) (s : AdmSnap) : List Finding :=
  let off := fun (l : List Nat) => l.any (fun i => !bit s.gates i)
  let ports := (portsOn b).filterMap (fun p =>
    if off ([12 + p / 4, gAlign, gSection, gDefect] ++ (if 5 ≤ portType b p then [gMapping] else [])) then some (portAddr p, codeAt O.PORT_TYPE p, 0) else none)
  let cs := (ctxs b).filterMap (fun a =>
    if off [gPointer, gMapping, gPoh, gDefect, gPm] then some (a, codeAt O.PATH_TYPE 0, a) else none)
  let maps := (ctxs b).filterMap (fun a =>
    if entryKind (entryIn b a) == 1 && off [gTfi] then some (a, codeAt O.MAP_ENTRY 0, a) else none)
  let lanes := (lanesIn b).filterMap (fun l => if off [gTfi] then some (0, codeAt O.TFI_LANE_CTRL l, 0) else none)
  let clients := (clientsIn b).filterMap (fun c =>
    if off [gClient, gPm] then some (boundIn b c, codeAt O.CLIENT_CTRL c, boundIn b c) else none)
  let prots := if !off [gProtection] then [] else
    (groupsIn b).map (fun w => (portAddr w, codeAt O.MSP_CTRL w, portAddr w))
      ++ (selectorsIn b).map (fun w => (w, codeAt O.SNCP_PROTECTING 0, w))
  let rec_ := if bankRd b O.RECCLK_PIN < 4 && off [12 + bankRd b O.RECCLK_LANE / 4] then [(0, codeAt O.RECCLK_PIN 0, 0)] else []
  ports ++ cs ++ maps ++ lanes ++ clients ++ prots ++ rec_

/-! ## Check 5 (R286) -/

/-- The route delay d of a client: the measured one where there is one, else the greater that the host supplies. The working member's
d_in is the selected member's less the skew applied toward protection (R288, R289). -/
def routeDelay (d : Dev) (b : Bank) (c : Nat) : Int :=
  let st := d.fld (keyAt O.PIN_STATUS c) 0 3
  let x := smLook {} d.clients c
  match x.dIn with
  | some i =>
    if 3 ≤ st && bits (bankRd b (keyAt O.PIN_CTRL c)) 0 2 == 2 then
      let skew := if d.flag (keyAt O.PIN_STATUS c) 11 then toSigned 32 (d.rd (keyAt O.MEMBER_SKEW c)) else 0
      max (i - x.offset) (i - x.offset + skew)
    else max (bankRd b (keyAt O.ROUTE_DELAY_W c) : Int) (bankRd b (keyAt O.ROUTE_DELAY_P c))
  | none => max (bankRd b (keyAt O.ROUTE_DELAY_W c) : Int) (bankRd b (keyAt O.ROUTE_DELAY_P c))

def check5 (d : Dev) (b : Bank) : List Finding :=
  (clientsIn b).filterMap (fun c =>
    let ty := clientIn b c
    let r : Int := clientRate ty
    let t : Int := (bankRd b (keyAt O.TARGET_DELAY c) : Int) * 1000
    if bits (bankRd b (keyAt O.PIN_CTRL c)) 0 2 != 0
        && decide (t * r < (routeDelay d b c + (clientFixed ty : Int)) * r + 128 * 1000000) then
      some (boundIn b c, codeAt O.TARGET_DELAY c, boundIn b c)
    else none)

/-! ## Check 6 (R100, R254, R258, R270 to R272) -/

/-- The ports, and the contexts with BIP triggers, behind a member: itself and its ancestors. -/
def memberPort (b : Bank) (a : Nat) : Nat := if adLevel a == 3 then adPort a else ownerPort b a
def memberChain (b : Bank) (a : Nat) : List Nat :=
  if adLevel a == 1 then [a, parentOf b a, portAddr (memberPort b a)]
  else if adLevel a == 2 then [a, portAddr (memberPort b a)] else [a]

/-- SD's declaration time in µs on a context or port, 9b periods; 0 where its threshold is off (Table DF-3). -/
def sdTime (b : Bank) (a : Nat) : Nat :=
  let n := threshOf b a false
  if n == 0 then 0
  else
    let multi := isTu1 (typeIn b a)
    let rate := if adLevel a == 3 then portRate (portType b (adPort a)) else pathRate (typeIn b a)
    9 * blockLength rate multi n * (if multi then 500 else 125)

/-- LOS_WINDOW + 4 µs, the greatest over a port's lanes; OOF_M. -/
def losTime (b : Bank) (p : Nat) : Nat :=
  min 100 ((portLanes b p).foldl (fun m l => max m (bankRd b (keyAt O.LOS_WINDOW l) + 4)) 0)
def oofM (b : Bank) (p : Nat) : Nat := bits (bankRd b (keyAt O.ALIGN_CTRL p)) 4 4

/-- The detection time in µs of a trigger on one member (Table PS-5). SF_INT's is above 1,250 µs; the manual gives no
figure (`sf`, a free value). -/
def detection (b : Bank) (sf i a : Nat) : Nat :=
  let p := memberPort b a
  if i == 0 then losTime b p
  else if i == 1 then oofM b p * 125
  else if i == 2 then 375
  else if i == 3 then (if isTu1 (typeIn b a) then 500 else 375)
  else if i == 4 then 1250 + sf
  else (memberChain b a).foldl (fun m x => max m (sdTime b x)) 0

/-- The two members of a group or selector. -/
def membersOf (b : Bank) (w : Nat) : List Nat := [w, protPartner b w]

/-- The summed triggers of a group or selector: bit and sum (R100). -/
def sums (b : Bank) (sf w : Nat) : List (Nat × Nat) :=
  let ctl := protCtl b w
  let on := bits ctl 0 6 &&& bits ctl 8 6
  let sdOff := ((membersOf b w).flatMap (memberChain b)).all (fun a => threshOf b a false == 0)
  (List.range 6).filterMap (fun i =>
    if !bit on i || (i == 5 && sdOff) || (i == 3 && adLevel w == 3) then none
    else some (i, (membersOf b w).foldl (fun m a => max m (detection b sf i a)) 0 + 250 + bits ctl 17 7 * 100000))

/-- The sums of the pair in µs: heartbeat loss and signature mismatch, each with the interlock settle and the transmitter enable
(Tables PS-5, PS-6; R272). -/
def equipmentSums : List Nat := [100 + (20 + 50), 500 + (20 + 50)]

/-- PROTECT_WORST, at most what its 16 bits hold; the pair's sums are among them while pairing is enabled (log entry 153). -/
def protectWorst (b : Bank) (sf : Nat) (paired : Bool) : Nat :=
  let pair := (if paired then equipmentSums else []).foldl max 0
  min 65535 ((protAll b).foldl (fun m w => (sums b sf w).foldl (fun n e => max n e.2) m) pair)

/-- The candidate that a sum above 1,000 µs refuses (R272). -/
def sumFinding (b : Bank) (w : Nat) (e : Nat × Nat) : Finding :=
  let ctlObj := if adLevel w == 3 then (w, codeAt O.MSP_CTRL (adPort w), w) else (w, codeAt O.SNCP_CTRL 0, w)
  if bits (protCtl b w) 17 7 != 0 || e.1 == 4 || e.1 == 5 then ctlObj
  else if e.1 == 1 then
    let pw := memberPort b w
    let pp := memberPort b (protPartner b w)
    let p := if oofM b pp > oofM b pw then pp else pw
    (portAddr p, codeAt O.ALIGN_CTRL p, w)
  else ctlObj

def check6 (b : Bank) (sf : Nat) : List Finding :=
  ((selectorsIn b).drop 30720 |>.take 1).map (fun w => (w, codeAt O.SNCP_PROTECTING 0, w))
    ++ ((groupsIn b).drop 32 |>.take 1).map (fun w => (portAddr w, codeAt O.MSP_CTRL w, portAddr w))
    ++ (protAll b).flatMap (fun w => ((sums b sf w).filter (fun e => e.2 > 1000)).map (sumFinding b w))

/-! ## Checks 7 to 9 (R97 to R99) -/

/-- The TFI load in kb/s of a lane in a bank. -/
def laneLoad (b : Bank) (l : Nat) : Nat :=
  (ctxs b).foldl (fun n a =>
    let e := entryIn b a
    if entryKind e == 1 && entryUnit e == l then n + pathRate (typeIn b a) else n) 0

/-- The greatest lane load and its lane (R99): the lowest lane number where several carry it (log entry 123). -/
def lanePeak (b : Bank) : Nat × Nat :=
  (List.range 32).foldl (fun (m : Nat × Nat) l => if laneLoad b l > m.1 then (laneLoad b l, l) else m) (0, 0)

/-- The entries at which a lane's sum passes its limit. -/
def check7 (b : Bank) : List Finding :=
  let step := fun (acc : SMap Nat × List Finding) (a : Nat) =>
    let e := entryIn b a
    if entryKind e != 1 then acc
    else
      let l := entryUnit e
      let old := smLook 0 acc.1 l
      let new := old + pathRate (typeIn b a)
      (smPut 0 acc.1 l new, if old ≤ 20000000 && new > 20000000 then acc.2 ++ [(a, codeAt O.MAP_ENTRY 0, a)] else acc.2)
  ((ctxs b).foldl step ([], [])).2

/-- The admission rate of a port type (Table PV-5). -/
def admissionRate (t : Nat) : Nat :=
  if t == 5 then 10709226 else if t == 6 then 43018414 else if t == 4 then 9953280 else 155520 * stmN t

def lineLoad (b : Bank) : Nat := (portsOn b).foldl (fun n p => n + admissionRate (portType b p)) 0

/-- 2 × the slot load (R97). -/
def slotLoad2 (b : Bank) : Nat :=
  let s := (portsOn b).foldl (fun n p => n + (if portType b p == 6 then 4 else 1)) 0
  let h := ((ctxs b).filter (fun a => adLevel a == 2)).length
  let l := ((ctxs b).filter (fun a => adLevel a == 1)).length
  let p := ((selectorsIn b).filter (fun w => provisioned b (protPartner b w))).length
  48 * s + 8 * h + 3 * l + 16 * (clientsIn b).length + 2 * p

/-- The limits at an operating point (R97, R98). -/
def slotLimit2 (op : Nat) : Nat := if op == 0 then 337500 else if op == 1 then 270000 else 202500
def lineLimit (op : Nat) : Nat := if op == 0 then 729600000 else if op == 1 then 583680000 else 437760000

/-- Whether a bank fits an operating point. -/
def fitsOp (b : Bank) (op : Nat) : Bool := slotLoad2 b ≤ slotLimit2 op && lineLoad b ≤ lineLimit op

/-- Whether a point is available (R101). -/
def opAvailable (s : AdmSnap) (op : Nat) : Bool := (s.override == 0 || s.override - 1 == op) && !bit s.unavail op

/-! ## The outcome -/

/-- What admission writes: result code, candidate, point and limits (R89, R101). -/
structure AdmOutcome where
  code  : Nat
  obj   : Nat
  ctx   : Nat
  op    : Nat
  limit : Nat
deriving DecidableEq, Repr

/-- The first check of a list that fails, with its code. -/
def firstFailing : List (Nat × List Finding) → Option (Nat × Finding)
  | [] => none
  | (code, l) :: r => match firstOf l with
    | some f => some (code, f)
    | none => firstFailing r

/-- Checks 1 to 11 on a bank (R94, R101); `crc` is the GEN_CRC it gets at a point. -/
def admitted (d : Dev) (b : Bank) (s : AdmSnap) (sf : Nat) (mate : MateAdmission)
    (crc : Nat → BitVec 32) : AdmOutcome :=
  let early := [(0x0B, check1 d.active b s), (0x08, check2 b), (0x06, check3 b), (0x07, check4 b s), (0x05, check5 d b),
    (0x04, check6 b sf), (0x03, check7 b),
    (0x02, if lineLoad b > lineLimit 0 then [(0, codeAt O.LINE_LOAD 0, 0)] else []),
    (0x01, if slotLoad2 b > slotLimit2 0 then [(0, codeAt O.SLOT_LOAD_X2 0, 0)] else [])]
  match firstFailing early with
  | some (code, f) => { code := code, obj := f.2.1, ctx := f.2.2, op := 0, limit := 0 }
  | none =>
    let low := if fitsOp b 2 then 2 else if fitsOp b 1 then 1 else 0
    match [2, 1, 0].find? (fun op => fitsOp b op && opAvailable s op) with
    | none => { code := 0x09, obj := codeAt O.SELECTED_OP 0, ctx := 0, op := low, limit := low }
    | some op =>
      let agree := mate.delivered && mate.result == 0 && mate.op.toNat == op && mate.crc == crc op
      if s.joint && !agree then { code := 0x0A, obj := codeAt O.COMMIT_RESULT 0, ctx := 0, op := op, limit := op }
      else { code := 0, obj := 0, ctx := 0, op := op, limit := op }

end Sys2Proof.Machine
end

