-- ==== Sys2Proof/Machine/Provisioning.lean ====
section
/-!
DEFINITION. Generations: edits of the pending bank, COMMIT and admission, the bank copy, scheduled switch-in, joint commits and
the bulk mapping blocks (R85 to R96, R175 to R178, R195).
-/
namespace Sys2Proof.Machine

/-! ## Held writes -/

/-- A write that a state holds back stays in the master's queue (R86). -/
def Dev.holdWrite (d : Dev) (m : Master) (idx sub : Nat) (data : List Byte) : Dev × Nat :=
  d.queueReq m { tag := tagNone, body := .write idx sub data }

/-! ## The pending bank (Table PV-2) -/

/-- Requests on the pending bank are held while it is COPYING, and while a frozen host scan reads it (R86, R409). -/
def Dev.bankHeld (d : Dev) : Bool := d.rd O.PENDING_STATE == 1 || d.bankFrozen

/-- Whether a `gen` write is refused: in Shadow, ADMITTING and SCHEDULED (R86, R87). -/
def Dev.editRefused (d : Dev) : Bool := d.inShadow || d.rd O.PENDING_STATE == 2 || d.rd O.PENDING_STATE == 3

/-- PATH_TYPE written to the selected context (R78, R175). -/
def pathTypeWrite (m : Master) (v : Nat) (d : Dev) : Dev × Nat :=
  let a := d.selected m
  if !d.gateOn gPointer then (d, 0)
  else if adLevel a != 1 && adLevel a != 2 then (d, abNoContext)
  else if d.editRefused then (d, abRefused)
  else
    let r := pathTypeIn d.pendingBank a v
    if r.2 == 0 then (d.edit (fun _ => r.1), 0) else (d, r.2)

/-- PATH_TYPE written by a master: held while its bank is. -/
def pathTypeHost (m : Master) (v : Nat) (d : Dev) : Dev × Nat :=
  if d.bankHeld && !d.inShadow then d.holdWrite m 0x3010 1 [BitVec.ofNat 8 v] else pathTypeWrite m v d

def execPathType (m : Master) (v : BitVec 8) (s : State) : Host.Outcome State Fault Refusal :=
  hostNum s m O.PATH_TYPE v.toNat (pathTypeHost m v.toNat)

/-- PORT_TYPE written (R59, R105, R177). -/
def portTypeWrite (p v : Nat) (d : Dev) : Dev × Nat :=
  if !d.quadGate (p / 4) then (d, 0)
  else if d.editRefused then (d, abRefused)
  else
    let r := portTypeIn d.pendingBank p v
    if r.2 == 0 then (d.edit (fun _ => r.1), 0) else (d, r.2)

def portTypeHost (m : Master) (p v : Nat) (d : Dev) : Dev × Nat :=
  if d.bankHeld && !d.inShadow then d.holdWrite m (0x2800 + p) 1 [BitVec.ofNat 8 v] else portTypeWrite p v d

def execPortType (m : Master) (p : Fin 64) (v : BitVec 8) (s : State) : Host.Outcome State Fault Refusal :=
  hostNum s m (keyAt O.PORT_TYPE p.val) v.toNat (portTypeHost m p.val v.toNat)

/-! ## COMMIT (R88, R95) -/

/-- A join runs, as the active sees it: the mate reports JOIN_GENERATION or JOIN_STATE (R327). -/
def Dev.joinRuns (d : Dev) : Bool :=
  d.inService && d.paired && d.linkUp && (d.fld O.MATE_STATUS 0 4 == 3 || d.fld O.MATE_STATUS 0 4 == 4)

/-- The conditions that admission sees, at COMMIT (R95). The model takes SWITCH_AT and the points that Kiln reports unavailable at
the same moment (log entries 121 and 122). -/
def Dev.snapNow (d : Dev) (privileged joint : Bool) : AdmSnap :=
  { privileged := privileged, gates := d.rd O.BLOCK_CLOCK_ENABLE, override := d.rd O.OP_OVERRIDE
    unavail := d.fld O.OP_STATUS 4 3, lifecycle := d.lifecycle, mode := d.modeCode, joint := joint
    paired := d.paired, switchAt := d.rd O.SWITCH_AT }

/-- Admission starts. -/
def Dev.admitting (d : Dev) (s : AdmSnap) : Dev :=
  ((d.wr O.PENDING_STATE 2).wr O.COMMIT 1).onProv (fun p => { p with adm := some s, upset := none })

/-- COMMIT fires (R88, R96): with a READY Shadow the bank goes to the mate. -/
def commitFire (m : Master) (d : Dev) : Dev × Nat :=
  if d.editRefused || d.joinRuns then (d, abRefused)
  else
    let joint := d.inService && d.paired && d.shadowReady
    let d1 := d.admitting (d.snapNow (d.privilege m != 0) joint)
    (d1.when joint (fun x => x.sendMate (.commitBank d.pendingBank)), 0)

/-- Whether Table PV-2 and a freeze hold a trigger of 2601 back: CANCEL_SWITCH only while COPYING (R86, R409). -/
def Dev.triggerHeld (d : Dev) (sub : Nat) : Bool :=
  if sub == 3 then d.rd O.PENDING_STATE == 1 else d.bankHeld && !d.inShadow

/-- A trigger of the pending bank by a master (Table PV-2): held, or fired. -/
def heldTrigger (m : Master) (sub v : Nat) (f : Dev → Dev × Nat) (d : Dev) : Dev × Nat :=
  if d.triggerHeld sub then d.holdWrite m 0x2601 sub [BitVec.ofNat 8 v] else trigger v d f

def execCommit (m : Master) (v : BitVec 8) (s : State) : Host.Outcome State Fault Refusal :=
  hostNum s m O.COMMIT v.toNat (heldTrigger m 1 v.toNat (commitFire m))

/-- The admission figures of 2602 (R101). -/
def Dev.figures (d : Dev) (b : Bank) (sf : Nat) (paired : Bool) (o : AdmOutcome) : Dev :=
  let peak := lanePeak b
  let d1 := (d.wr O.SLOT_LOAD_X2 (slotLoad2 b)).wr O.SLOT_LIMIT_X2 (slotLimit2 o.limit)
  let d2 := (d1.wr O.LINE_LOAD (lineLoad b)).wr O.LINE_LIMIT (lineLimit o.limit)
  let d3 := (d2.wr O.SELECTED_OP o.op).wr O.PROTECT_WORST (protectWorst b sf paired)
  (d3.wr O.TFI_LANE_PEAK peak.1).wr O.TFI_LANE_PEAK_LANE peak.2

/-- The earliest boundary, by its pair frame number, that this unit can agree for a joint switch-in accepted now: 16 frames after
its acceptance, and at or after SWITCH_AT (R90, R96). -/
def Dev.earliestJoint (d : Dev) (switchAt : Nat) : Nat :=
  let into := match d.pins.boundary with
    | some b => min 125000 (d.elapsed - b)
    | none => 0
  (d.rd O.PAIR_FRAME + max 17 ((switchAt + into - d.time + 124999) / 125000)) % 2 ^ 32

/-- A change of the conditions during ADMITTING cancels the accepted switch-in (R95): with the outcome of Table PV-3, or, where that
table gives none (lifecycle, debug level), with a free one of its cancellations (log entry 127). -/
def Dev.cancelUpset (d : Dev) : Dev :=
  match d.prov.upset with
  | none => d
  | some 0 => d.fresh.cancelSched (2 + (Config.freeWord d.free).toNat % 5)
  | some v => d.cancelSched v

/-- Acceptance (R89, R90, R96, R102): the header is written, SCHEDULED is entered, an upward change of the core starts. A joint
switch-in takes the later of the boundaries that the two units can agree; changed conditions cancel it (R95). -/
def Dev.accept (d : Dev) (s : AdmSnap) (o : AdmOutcome) (boundary : Nat) : Dev :=
  let w := d.onPending (fun b => compiled b o.op)
  let d1 := w.onPending (fun b => { b with
    genOp := BitVec.ofNat 64 o.op, genPaired := BitVec.ofNat 64 (ofBit s.joint), acceptTime := BitVec.ofNat 64 d.time
    switchAt := BitVec.ofNat 64 s.switchAt, genCrc := (w.crcOf (!d.activeB)).setWidth 64 })
  let up := o.op < d.op
  let sched : Sched := { joint := if s.joint then some (laterFrame boundary (d.earliestJoint s.switchAt)) else none, raised := !up }
  let d2 := (d1.wr O.PENDING_STATE 3).onProv (fun p => { p with sched := some sched })
  (d2.when (up && !(d.clk.raise && d.targetOp == o.op)) (fun x => x.startRaise o.op)).cancelUpset

/-- Refusal: the pending bank is as the host left it; on the mate of a joint commit it returns to what it was (R89, R96). -/
def Dev.refuse (d : Dev) : Dev :=
  match d.prov.mateOld with
  | some b => (d.wr O.PENDING_STATE 0).onPending (fun _ => b)
  | none => d.wr O.PENDING_STATE 0

/-- Admission ends (R88, R89, R95). -/
def admissionEnded (d : Dev) (mate : MateAdmission) : Dev :=
  match d.prov.adm with
  | none => d
  | some s =>
    let b := d.pendingBank
    let sf := (Config.freeWord d.free).toNat % 65536
    let o := admitted d b s sf mate (fun op => (d.onPending (fun x => compiled x op)).crcOf (!d.activeB))
    let d1 := ((d.wr O.COMMIT_RESULT o.code).wr O.OFFENDING_OBJECT o.obj).wr O.OFFENDING_CONTEXT o.ctx
    let d2 := ((d1.figures b sf s.paired o).count O.COMMIT_COUNT 1).wr O.COMMIT 0
    let d3 := (d2.onProv (fun p => { p with adm := none })).fresh
    (if o.code == 0 then d3.accept s o mate.boundary else d3.refuse).onProv (fun p => { p with mateOld := none, upset := none })

def execAdmissionEnd (mate : MateAdmission) (s : State) : Host.Outcome State Fault Refusal := done s (admissionEnded s.dev mate)

/-- A COMMIT_BANK message (R96): a Shadow takes the bank and admits it under its own conditions. -/
def commitBank (d : Dev) (b : Bank) (crcOk : Bool) : Dev :=
  if !(d.inShadow && d.paired && d.linkUp) || d.rd O.PENDING_STATE != 0 then d
  else
    let d1 := (d.channelUsed 1).mateVerify 32768
    if !crcOk then d1
    else
      let d2 := d1.onProv (fun p => { p with mateOld := some d.pendingBank })
      (d2.edit (fun _ => b)).admitting (d2.snapNow true true)

/-- A joint switch-in that the mate cancels is cancelled here with outcome 5 (Table PV-3). -/
def commitIn (d : Dev) (m : CommitMsg) : Dev :=
  match m with
  | .bank b crcOk => commitBank d b crcOk
  | .cancel => if d.paired && d.linkUp then d.cancelEarly 5 else d

def execCommitBank (msg : CommitMsg) (s : State) : Host.Outcome State Fault Refusal := done s (commitIn s.dev msg)

/-! ## The copy (R85) -/

/-- PENDING_RESET fires. -/
def pendingResetFire (d : Dev) : Dev × Nat :=
  if d.editRefused then (d, abRefused) else ((d.wr O.PENDING_STATE 1).wr O.PENDING_RESET 1, 0)

def execPendingReset (m : Master) (v : BitVec 8) (s : State) : Host.Outcome State Fault Refusal :=
  hostNum s m O.PENDING_RESET v.toNat (heldTrigger m 8 v.toNat pendingResetFire)

/-- The cells of one bank as the copy leaves them in the other. -/
def copyCells (mem : List Host.Cell) (src dst : Nat) : List Host.Cell :=
  let body := (mem.filter (fun c => src ≤ c.1 && c.1 < src + 0x200000)).map (fun c => (c.1 - src + dst, c.2))
  let rest := dropCells mem dst 0x200000
  rest.filter (fun c => c.1 < dst) ++ body ++ rest.filter (fun c => dst ≤ c.1)

/-- The copy ends: the pending bank equals the active one but for its header's times and BASE_NUMBER; EDITABLE. -/
def bankCopied (d : Dev) : Dev :=
  if d.rd O.PENDING_STATE != 1 then d
  else
    let b := d.active
    let new : Bank := { b with acceptTime := 0, switchAt := 0, switchTime := 0, baseNumber := b.genNumber }
    let d1 := ((d.onPending (fun _ => new)).wr O.PENDING_STATE 0).wr O.PENDING_RESET 0
    { d1 with mem := copyCells d.mem (bankBase d.activeB) (bankBase (!d.activeB)) }

/-! ## Switch-in (R90 to R93) -/

/-- CANCEL_SWITCH fires. -/
def cancelFire (d : Dev) : Dev × Nat :=
  match d.prov.sched with
  | none => (d, abRefused)
  | some s => if s.committed then (d, abRefused) else (d.cancelSched 2, 0)

def execCancelSwitch (m : Master) (v : BitVec 8) (s : State) : Host.Outcome State Fault Refusal :=
  hostNum s m O.CANCEL_SWITCH v.toNat (heldTrigger m 3 v.toNat cancelFire)

/-- The owners of the TEST_OUT pins in a bank (Table PK-6): the function that names pin `n`; 4 for none. -/
def pinOwner (b : Bank) (n : Nat) : Nat :=
  let f := [O.FRAME_PULSE_PIN, O.TICK_PIN, O.CLAIM_MONITOR_PIN, O.RECCLK_PIN]
  ((List.range 4).find? (fun i => match f[i]? with | some o => bankRd b o == n | none => false)).getD 4

/-- Pins whose owner changed are held low for 1 µs (R449). -/
def Dev.pinsSwap (d : Dev) (old : Bank) : Dev :=
  (List.range 4).foldl (fun (x : Dev) n =>
    if pinOwner old n == pinOwner x.active n then x
    else { x with pins := { x.pins with quiet := smPut 0 x.pins.quiet n (x.elapsed + 1000) } }) d

/-- A switch-in that disables the selected reference makes Kiln take the next one (R364, R365). -/
def Dev.refSwap (d : Dev) : Dev :=
  if d.refSelected == 3 || d.refUsable d.refSelected then d
  else if d.bestRef == 3 then (d.putFld O.CLOCK_STATUS 0 2 3).enterClamp 8
  else d.switchRef d.bestRef false

/-- What a new generation's control words do to Kiln and Saggar: auxiliary outputs relock (R378), the core goes down (R102),
debug follows SEC_POLICY (Table SE-6), a session that it forbids ends (R433). -/
def Dev.unitSwap (d : Dev) (old : Bank) : Dev :=
  let aux := fun (x : Dev) (i : Nat) (o : ObjId) => x.when (bankRd old o != bankRd x.active o) (fun y =>
    y.onClk (fun c => { c with auxHeld := addOnce c.auxHeld i }))
  let d1 := aux (aux d 0 O.AUX0_CTRL) 1 O.AUX1_CTRL
  let op := d.active.genOp.toNat
  let ov := d.rd O.OP_OVERRIDE
  let d2 := d1.when (d.op < op && (ov == 0 || ov - 1 == op)) (fun x => x.startLower op)
  let d3 := d2.capDebug (debugCap d2 d2.modeCode)
  (d3.when (!d.genBit O.SEC_POLICY 1) (fun x => x.endSession 6)).pinsSwap old |>.refSwap

/-- The banks swap (R85, R91). ACTIVE_OP takes the point still running where Kiln lowers the core after the swap (log entry
124). -/
def Dev.swap (d : Dev) (s : Sched) : Dev :=
  let old := d.active
  let n := d.rd O.ACTIVE_GENERATION
  let num := if s.copied then d.pendingBank.genNumber.toNat else if n == 0xFFFFFFFF then 1 else n + 1
  let d1 := d.onPending (fun b => { b with genNumber := BitVec.ofNat 64 num, switchTime := BitVec.ofNat 64 d.time })
  let d2 := (d1.wr O.ACTIVE_BANK (ofBit (!d.activeB))).wr O.ACTIVE_GENERATION num
  let d3 := ((d2.wr O.ACTIVE_CRC d2.active.genCrc.toNat).wr O.ACTIVE_OP d.op).wr O.SWITCH_IN_TIME d.time
  let d4 := ((d3.wr O.SWITCH_OUTCOME 1).wr O.PENDING_STATE 1).onProv (fun p => { p with sched := none, mateOld := none })
  ((d4.onCvu (fun c => { c with dueFrames := some 16 })).swapEffects old).unitSwap old

/-- The chosen boundary (R90, R91): the one after the point of R92. -/
def switchedIn (d : Dev) : Dev :=
  match d.prov.sched with
  | none => d
  | some s => if d.clamped || !s.committed then d else d.swap s

def execSwitchIn (s : State) : Host.Outcome State Fault Refusal := done s (switchedIn s.dev)

/-! ## Bulk mapping access (R195) -/

/-- The context with an internal number in a bank. -/
def numbered (b : Bank) (level n : Nat) : Option Nat :=
  (b.numbers.find? (fun e => adLevel e.1 == level && e.2 == n)).map (·.1)

def Dev.mapSelector (d : Dev) (m : Master) : Nat := d.rd (keyOf O.MAP_BLOCK_SELECT (masterNo m))

/-- MAP_BLOCK_SELECT written. -/
def mapSelectWrite (m : Master) (v : Nat) (d : Dev) : Dev × Nat :=
  d.ungated gMapping (fun x =>
    if (bits v 29 3 == 1 || bits v 29 3 == 2) && bits v 16 13 == 0 then (x.wr (keyOf O.MAP_BLOCK_SELECT (masterNo m)) v, 0)
    else (x, abRange))

def execMapBlockSelect (m : Master) (v : BitVec 32) (s : State) : Host.Outcome State Fault Refusal :=
  hostNum s m O.MAP_BLOCK_SELECT v.toNat (mapSelectWrite m v.toNat)

/-- The selector's number advances by the entries transferred. -/
def Dev.mapAdvance (d : Dev) (m : Master) (n : Nat) : Dev :=
  let k := keyOf O.MAP_BLOCK_SELECT (masterNo m)
  d.putFld k 0 16 (d.fld k 0 16 + n)

/-- The entries of a bank from the selected number upward, and their count. -/
def mapBlock (d : Dev) (m : Master) (b : Bank) (maxLen : Nat) : List Byte × Nat :=
  let sel := d.mapSelector m
  let level := bits sel 29 3
  let first := bits sel 0 16
  let n := min (min 512 (maxLen / 8)) (classSize level - first)
  ((List.range n).flatMap (fun i => bytesBE 8 (match numbered b level (first + i) with
    | some a => entryIn b a
    | none => 0)), n)

/-- A read of MAP_BLOCK or MAP_BLOCK_ACTIVE: abort code, value, entries. -/
def mapRead (d : Dev) (m : Master) (b : Bank) (maxLen : Nat) : Nat × List Byte × Nat :=
  if !d.gateOn gMapping then (0, [], 0)
  else if d.mapSelector m == 0 then (abNoContext, [], 0)
  else
    let r := mapBlock d m b maxLen
    (0, r.1, r.2)

/-- The whole entries that a byte string carries. -/
def entriesOf : Nat → List Byte → List Nat
  | 0, _ => []
  | n + 1, l => ofBytesBE (l.take 8) :: entriesOf n (l.drop 8)

/-- The abort code of the first entry that fails, 0 when none does. -/
def entriesCheck (b : Bank) (level : Nat) : Nat → List Nat → Nat
  | _, [] => 0
  | n, e :: r =>
    if !entryOk e then abRange
    else if e != 0 && (classSize level ≤ n || (numbered b level n).isNone) then abNoContext
    else entriesCheck b level (n + 1) r

/-- Entries put at consecutive numbers. -/
def entriesPut (level : Nat) : Nat → List Nat → Bank → Bank
  | _, [], b => b
  | n, e :: r, b => entriesPut level (n + 1) r (match numbered b level n with
    | some a => bankWr b (keyCtx O.MAP_ENTRY a) e
    | none => b)

/-- MAP_BLOCK written. -/
def mapBlockWrite (m : Master) (data : List Byte) (d : Dev) : Dev × Nat :=
  let n := data.length / 8
  let sel := d.mapSelector m
  let level := bits sel 29 3
  let first := bits sel 0 16
  let es := entriesOf n data
  let bad := entriesCheck d.pendingBank level first es
  if !d.gateOn gMapping then (d, 0)
  else if data.length % 8 != 0 || n == 0 || 512 < n then (d, abLength)
  else if d.editRefused then (d, abRefused)
  else if sel == 0 then (d, abNoContext)
  else if bad != 0 then (d, bad)
  else ((d.edit (entriesPut level first es)).mapAdvance m n, 0)

def execMapBlockWrite (m : Master) (data : List Byte) (s : State) : Host.Outcome State Fault Refusal :=
  hostWrite s m (Key.idx O.MAP_BLOCK) (Key.sub O.MAP_BLOCK) data (fun d =>
    if d.bankHeld && !d.inShadow then d.holdWrite m 0x3401 2 data else mapBlockWrite m data d)

end Sys2Proof.Machine
end

