-- ==== Sys2Proof/Machine/Boundary.lean ====
section
/-!
DEFINITION. The device frame boundary (R19): what takes effect at it, and writes that both units of a pair apply (R173).
-/
namespace Sys2Proof.Machine

/-! ## Writes that both units apply (R173, R214, R264, R295) -/

/-- S1_TX, K1K2_FORCE_VALUE, M1_FORCE_VALUE and APS_TX take a value. -/
def plainApply (k : Key) (v : Nat) (d : Dev) : Dev := d.wr k v

/-- The write of an object of Table SO-7 takes effect. -/
def sectionApply (p sub : Nat) (data : List Byte) (d : Dev) : Dev :=
  let v := ofBytesLE data
  if sub == 4 then plainApply (keyAt O.S1_TX p) v d
  else if sub == 8 then soTestApply p v d
  else if sub == 9 then plainApply (keyAt O.K1K2_FORCE_VALUE p) v d
  else if sub == 10 then plainApply (keyAt O.M1_FORCE_VALUE p) v d
  else if sub == 11 then dccTxApply p false data d
  else if sub == 12 then dccTxApply p true data d
  else d

/-- A waiting write takes effect. -/
def applyPaired (d : Dev) (w : PairedWrite) : Dev :=
  let v := ofBytesLE w.data
  if 0x28C0 ≤ w.idx && w.idx < 0x2900 then sectionApply (w.idx - 0x28C0) w.sub w.data d
  else if 0x29C0 ≤ w.idx && w.idx < 0x2A00 && w.sub == 3 then commandApply (portAddr (w.idx - 0x29C0)) v d
  else if w.idx == 0x3040 && w.sub == 3 then commandApply w.addr v d
  else if w.idx == 0x3020 && w.sub == 6 then plainApply (keyCtx O.APS_TX w.addr) v d
  else if w.idx == 0x3020 && w.sub == 7 then pohTestApply w.addr v d
  else if 0x3C00 ≤ w.idx && w.idx < 0x3C20 && w.sub == 4 then clientTestApply (w.idx - 0x3C00) v d
  else if 0x3C20 ≤ w.idx && w.idx < 0x3C40 && w.sub == 12 then farApply (w.idx - 0x3C20) w.data d
  else d

/-- The waiting writes whose boundary has come take effect; all of them once the pair no longer runs (R173). -/
def Dev.applyWaiting (d : Dev) : Dev :=
  let now := fun (w : PairedWrite) => !d.pairRuns || frameReached d.pairFrame w.at_
  (d.pairWait.filter now).foldl applyPaired { d with pairWait := d.pairWait.filter (fun w => !now w) }

/-- A PAIRED_WRITE message reaches a Shadow. -/
def pairedWriteIn (d : Dev) (w : PairedWrite) : Dev :=
  if d.inShadow && d.paired && d.linkUp then { d with pairWait := d.pairWait ++ [w] } else d

def execPairedWrite (index : BitVec 16) (sub : BitVec 8) (a : Addr) (data : List Byte) (boundary : BitVec 32) (s : State) :
    Host.Outcome State Fault Refusal :=
  done s (pairedWriteIn s.dev { idx := index.toNat, sub := sub.toNat, addr := a.toNat, data := data, at_ := boundary.toNat })

/-! ## Consequent actions (R16) -/

/-- The actions that a context's record asks for: ACTION_STATUS, and at bit 16 the AIS of H4_LOM toward TU-12s and TU-11s (R225). -/
def Dev.askedActs (d : Dev) (a : Nat) : Nat :=
  d.fld (keyCtx O.ACTION_STATUS a) 0 8 + ofBit (bit (d.rd (keyCtx O.DEFECT_RAW a)) 25) * 2 ^ 16

/-- The contexts whose next frame starts at the present boundary: the ports and all contexts but TU-12s and TU-11s, and these in the
frame that carries V1 (R16; log entry 151). -/
def Dev.actsDue (d : Dev) : List Nat :=
  (portsOn d.active).map portAddr ++ d.contexts.filter (fun a => !isTu1 (d.pathType a) || d.phase == 1)

/-- The actions asked for act from the present boundary on (R16). -/
def Dev.latchActions (d : Dev) : Dev :=
  { d with acts := d.actsDue.foldl (fun m a => smPut 0 m a (d.askedActs a)) d.acts }

/-- A generator whose AIS ends recentres (R191): those fed by another context, by the AIS sent before and after the boundary. -/
def Dev.leaveAis (old d : Dev) : Dev :=
  (d.contexts.filter (fun a => (d.groomedFrom a).isSome && old.txAis a && !d.txAis a)).foldl Dev.recentre d

/-! ## The boundary -/

/-- Every client port's transmit side in the frame that ends (Table CL-3; log entry 152). -/
def Dev.clientFrames (d : Dev) : Dev := (List.range 32).foldl Dev.clientSend d

/-- Selections take effect (R261), and the clients they feed move (R289). -/
def Dev.boundarySelections (d : Dev) : Dev :=
  let cs := if d.runs gProtection then d.clientsOn d.changing else []
  cs.foldl Dev.pinSwitch d.applySelections

/-- The pair frame number counts (Table PA-1). -/
def Dev.pairTick (d : Dev) : Dev := d.when d.pairRuns (fun x => x.wr O.PAIR_FRAME ((x.pairFrame + 1) % 2 ^ 32))

/-- The signatures of the frame `f` that ends, and the active unit's messages for the boundary (Table PA-1, R328). -/
def Dev.boundaryPair (d : Dev) (f : Nat) : Dev :=
  if !d.pairRuns then d
  else
    let d2 := d.latchSignatures f
    let sigs := match d2.pair.sigHist with
      | [] => []
      | e :: _ => e.2
    if d2.pairState == 1 && d2.linkUp && d2.gateOn gMate then
      (d2.sendMate (.signatures f sigs)).sendMate (.frameMark d2.pairFrame d2.time (d2.rd O.PM_SECOND) d2.pmTime.due)
    else d2

/-- The frames to the check that follows a switch-in (R412). -/
def Dev.boundaryCheck (d : Dev) : Dev := d.onCvu (fun c => { c with dueFrames := c.dueFrames.map (· - 1) })

/-- A frame boundary (R19): client ports have sent the frame that ends, a time step is applied (R380), lines settle (R113), alignment
integrates (R141), consequent actions (R16) and selections (R261) take effect and the protection engine latches triggers, drops are
reported (Table TF-5), paired writes are applied (R173), and a switch-in may pass the point of R92. -/
def frameBoundary (d : Dev) : Dev :=
  let d0 := d.clientFrames
  let d0 := { d0 with frames := d0.frames + 1, pins := { d0.pins with boundary := some d0.elapsed } }
  let d1 := d0.pairTick.applyStep.quadSettle.alignTick
  let d2 := (d1.leaveAis d1.latchActions.boundarySelections).latchTriggers
  ((d2.tfiTick.boundaryPair d.pairFrame).applyWaiting.boundaryCheck).switchPoint

def execFrameBoundary (s : State) : Host.Outcome State Fault Refusal := done s (frameBoundary s.dev)

end Sys2Proof.Machine
end

