-- ==== Sys2Proof/Machine/FaultRows.lean ====
section
/-!
DEFINITION. The commands of fault collection: events, pulses, acknowledgement, history, injection, FAULT_N and class settings
(R386 to R403).
-/
namespace Sys2Proof.Machine

/-- A block's event reaches fault collection (R388). A MEMORY event is an uncorrectable error for the self-check (R330). -/
def eventIn (d : Dev) (e : EventOp) : Dev :=
  let src := e.source.toNat
  if !sourceExists src then d
  else
    let ev : Ev := {
      cls := src / 256, inst := src % 256, level := e.level.toNat, addr := e.addr.toNat, detail := e.detail.toNat
      clear := e.clear, forced := e.forced, injected := e.injected }
    let ecc := ev.cls == clsMemory && !e.clear && !e.injected
    (d.when ecc (fun x => x.onPair (fun p => { p with eccSeen := true }))).raise ev

def execEventRecord (e : EventOp) (s : State) : Host.Outcome State Fault Refusal := done s (eventIn s.dev e)

def execPulseEnd (injected : Bool) (s : State) : Host.Outcome State Fault Refusal := done s (s.dev.endPulse injected)

def execAckSeq (m : Master) (v : BitVec 32) (s : State) : Host.Outcome State Fault Refusal :=
  hostNum s m O.ACK_SEQ v.toNat (fun d => (d.acknowledge v.toNat, 0))

/-- INJECT_FIRE fires (R400). -/
def injectFire (d : Dev) : Dev × Nat :=
  let src := d.rd O.INJECT_SOURCE
  let a := d.rd O.INJECT_ADDRESS
  if !d.inBisque then (d, abRefused)
  else if !sourceExists (src % 65536) then (d, abRange)
  else
    (d.raise { cls := src / 256 % 256, inst := src % 256, level := adLevel a, addr := a, detail := d.rd O.INJECT_DETAIL
               clear := bit src 16, injected := true }, 0)

def execInjectFire (m : Master) (v : BitVec 8) (s : State) : Host.Outcome State Fault Refusal :=
  hostNum s m O.INJECT_FIRE v.toNat (fun d => trigger v.toNat d injectFire)

/-- FAULT_N_CTRL written (Table FC-11); hardware that sets HOLD in the same cycle wins (R44, R45). -/
def faultNWrite (v : Nat) (coincident : Bool) (d : Dev) : Dev × Nat :=
  let old := d.rd O.FAULT_N_CTRL
  let over_ := if coincident then true else bit old 3 && !bit v 3
  let new := ofBit (coincident || bit v 0) + 8 * ofBit over_ + (v &&& 0xF0)
  ({ d.wr O.FAULT_N_CTRL new with undoc := d.undoc || (old ^^^ v) &&& 0xF0 != 0 }, 0)

def execFaultNCtrl (m : Master) (v : BitVec 8) (coincident : Bool) (s : State) : Host.Outcome State Fault Refusal :=
  hostNum s m O.FAULT_N_CTRL v.toNat (faultNWrite v.toNat coincident)

/-- SEVERE_N written: 1 to 255; the class's counting windows close (R390). -/
def severeNWrite (k v : Nat) (d : Dev) : Dev × Nat :=
  if v < 1 || 255 < v then (d, abRange) else ((d.wr (keyAt O.SEVERE_N k) v).closeCounts k, 0)

/-- SEVERE_WINDOW written: 1 to 65,000 ms. -/
def severeWindowWrite (k v : Nat) (d : Dev) : Dev × Nat :=
  if v < 1 || 65000 < v then (d, abRange) else ((d.wr (keyAt O.SEVERE_WINDOW k) v).closeCounts k, 0)

def execSevereSetting (m : Master) (k : Fin 13) (f : SevereField) (v : BitVec 32) (s : State) :
    Host.Outcome State Fault Refusal :=
  hostNum s m (keyAt (match f with | .severeN => O.SEVERE_N | .severeWindow => O.SEVERE_WINDOW) k.val) v.toNat (match f with
    | .severeN => severeNWrite k.val v.toNat
    | .severeWindow => severeWindowWrite k.val v.toNat)

/-- REACTION applied (R395, Table FC-10). -/
def reactionApply (k v : Nat) (d : Dev) : Dev × Nat :=
  let key := keyAt O.REACTION k
  ({ d.wr key v with undoc := d.undoc || (d.rd key ^^^ v) &&& 0xF0 != 0 }, 0)

def execReaction (m : Master) (k : Fin 13) (v : BitVec 8) (s : State) : Host.Outcome State Fault Refusal :=
  hostGuard s m (0x2340 + k.val) 3 8 v.toNat (reactionApply k.val)

end Sys2Proof.Machine
end

