-- ==== Sys2Proof/Machine/Security.lean ====
section
/-!
DEFINITION. Saggar: lifecycle, zeroisation, rollback, nonces and tokens, debug levels, CAN privilege sessions, attestation (R417
to R434, R436).
-/
namespace Sys2Proof.Machine

/-! ## Identity (R418, R421) -/

def Dev.identityPresent (d : Dev) : Bool := d.flag O.SEC_STATUS 1
def Dev.ownerInstalled (d : Dev) : Bool := d.flag O.SEC_STATUS 0

/-- IDENTITY_KEY: zeros after a zeroisation. -/
def Dev.identityKey (d : Dev) : List Byte := if d.identityPresent then fitBytes 57 Config.identityKey else List.replicate 57 0

/-- IDENTITY_FP. -/
def Dev.identityFp (d : Dev) : List Byte :=
  if d.identityPresent then fitBytes 32 (Config.fingerprint (fitBytes 57 Config.identityKey)) else List.replicate 32 0

/-! ## Lifecycle (R419 to R421) -/

/-- LIFECYCLE_REQUEST applied: Manufacture to Deployed, in Inert. -/
def lifecycleApply (v : Nat) (d : Dev) : Dev × Nat :=
  if d.lifecycle != 0 || !d.inInert then (d, abRefused)
  else ((d.wr O.LIFECYCLE_REQUEST v).onSec (fun s => { s with burns := s.burns ++ [.lifecycle 1] }), 0)

def execLifecycleRequest (m : Master) (v : BitVec 8) (s : State) : Host.Outcome State Fault Refusal :=
  hostGuard s m 0x2201 1 8 v.toNat lifecycleApply

/-- ZEROISE applied (R421 step 1): outside Inert the device leaves its mode as a guarded request for Inert would. -/
def zeroiseApply (v : Nat) (d : Dev) : Dev × Nat :=
  let d1 := (d.wr O.ZEROISE v).onSec (fun s => { s with zeroising := true })
  if d.lifecycle == 3 then (d, abRefused)
  else if d.inInert then (d1.zeroiseBurn, 0)
  else if modeRefusal d 1 (modeNeedsGuard d.modeCode 1) != 0 then (d, abRefused)
  else (d1.startTransition 1, 0)

def execZeroise (m : Master) (v : BitVec 8) (s : State) : Host.Outcome State Fault Refusal :=
  hostGuard s m 0x2201 2 8 v.toNat zeroiseApply

/-- A master's nonce, token and attestation nonce are gone. -/
def Dev.forget (d : Dev) (m : Master) : Dev :=
  ((d.onSecOf m (fun _ => {})).wrStr (keyOf O.NONCE (masterNo m)) (List.replicate 32 0)).wr (keyOf O.TOKEN_RESULT (masterNo m)) 0

/-- Step 3 of R421. -/
def Dev.eraseSecrets (d : Dev) : Dev :=
  let d1 := ((d.endSession 6).forget .spi).forget .can |>.forget .mgmt
  let d2 := (d1.putFlag O.SEC_STATUS 1 false).wrStr O.SESSION_CHALLENGE (List.replicate 32 0)
  d2.onSec (fun s => { s with challenge := false, response := none, zeroising := false })

/-- Whether a stored value belongs to a context or section record. -/
def isRecordKey (k : Key) : Bool := isContextField (Key.idx k) (Key.sub k) && adLevel (Key.inst k) != 0

/-- Step 4 of R421: generation 0 in both banks, no context state, no performance record. -/
def Dev.eraseBanks (d : Dev) : Dev :=
  let d1 := { d with
    bankA := generation0, bankB := generation0, ptrRx := [], ptrTx := [], poh := [], captures := [], ber := [], pm := [], prot := []
    rxFrames := [], pathRx := [], pathTx := [], acts := []
    latched := [], tfiCh := [], regs := d.regs.filter (fun e => !isRecordKey e.1), strs := d.strs.filter (fun e => !isRecordKey e.1)
    mem := d.mem.filter (fun c => 0x1400000 ≤ c.1) }
  let d2 := ((d1.wr O.ACTIVE_GENERATION 0).wr O.ACTIVE_BANK 0).wr O.ACTIVE_CRC generation0.genCrc.toNat
  ((d2.wr O.SWITCH_IN_TIME 0).wr O.PENDING_STATE 0).onProv (fun _ => {})

/-- A burn ends (R420): the fuse's value shows, a lifecycle transition closes debug (R419, R429), and Retired erases (R421). -/
def burnEnded (d : Dev) : Dev :=
  match d.sec.burns with
  | [] => d
  | b :: r =>
    let d1 := burnDone (d.onSec (fun s => { s with burns := r })) b |>.when (d.lifecycle != (burnDone d b).lifecycle) (fun x => x.upset 0)
    match b with
    | .lifecycle 3 => d1.eraseSecrets.eraseBanks.capDebug 0
    | .lifecycle _ => d1.capDebug 0
    | _ => d1

def execFuseBurnEnd (s : State) : Host.Outcome State Fault Refusal := done s (burnEnded s.dev)

/-- Whether ROLLBACK_ADVANCE takes a value (R423). -/
def Dev.rollbackOk (d : Dev) (v : Nat) : Bool := d.rd O.ROLLBACK_COUNTER < v && v ≤ d.mode.slotRb

/-- ROLLBACK_ADVANCE applied (R423). -/
def rollbackApply (v : Nat) (d : Dev) : Dev × Nat :=
  if !d.rollbackOk v then (d, abRange)
  else ((d.wr O.ROLLBACK_ADVANCE v).onSec (fun s => { s with burns := s.burns ++ [.rollback v] }), 0)

def execRollbackAdvance (m : Master) (v : BitVec 8) (s : State) : Host.Outcome State Fault Refusal :=
  hostGuard s m 0x2201 3 8 v.toNat rollbackApply

/-! ## Nonces (R424) -/

/-- NONCE_NEW fires. -/
def nonceNew (m : Master) (d : Dev) : Dev × Nat :=
  (((d.wrStr (keyOf O.NONCE (masterNo m)) (fitBytes 32 (Config.random d.free))).onSecOf m (fun s => { s with nonceOk := true })).fresh, 0)

def execNonceNew (m : Master) (v : BitVec 8) (s : State) : Host.Outcome State Fault Refusal :=
  hostNum s m O.NONCE_NEW v.toNat (fun d => trigger v.toNat d (nonceNew m))

/-- A master's nonce stops being valid and reads zeros. -/
def Dev.nonceGone (d : Dev) (m : Master) : Dev :=
  (d.wrStr (keyOf O.NONCE (masterNo m)) (List.replicate 32 0)).onSecOf m (fun s => { s with nonceOk := false })

def execNonceExpiry (m : Master) (s : State) : Host.Outcome State Fault Refusal := done s (s.dev.nonceGone m)

/-! ## Tokens (R425, R426) -/

/-- A field of the token of Table SE-3. -/
def tokenAt (t : List Byte) (off n : Nat) : List Byte := (t.drop off).take n
def tokenNum (t : List Byte) (off n : Nat) : Nat := ofBytesBE (tokenAt t off n)

/-- TOKEN written. -/
def tokenWrite (m : Master) (t : List Byte) (d : Dev) : Dev × Nat :=
  if t.length != 278 then (d, abLength)
  else ((d.onSecOf m (fun s => { s with token := t })).wr (keyOf O.TOKEN_RESULT (masterNo m)) 1, 0)

def execToken (m : Master) (t : List Byte) (s : State) : Host.Outcome State Fault Refusal :=
  hostWrite s m (Key.idx O.TOKEN) (Key.sub O.TOKEN) t (tokenWrite m t)

/-- VERSION, KIND, LEVEL and the zero fields are as Table SE-3 gives them. -/
def tokenForm (t : List Byte) : Bool :=
  let kind := tokenNum t 1 1
  let level := tokenNum t 2 1
  tokenNum t 0 1 == 1 && 1 ≤ kind && kind ≤ 3 && tokenNum t 3 1 == 0 && tokenNum t 161 3 == 0
    && (if kind == 1 then level == 1 || level == 2 else level == 0 && tokenNum t 4 4 == 0)
    && (kind == 3 || tokenNum t 72 32 == 0)

/-- The master's valid nonce is the token's. -/
def Dev.nonceIs (d : Dev) (m : Master) (t : List Byte) : Bool :=
  (d.secOf m).nonceOk && tokenAt t 40 32 == d.rdStr (keyOf O.NONCE (masterNo m))

/-- Whether a token's KIND is allowed in the present lifecycle state (Table SE-4, code 8). -/
def Dev.kindAllowed (d : Dev) (kind : Nat) : Bool :=
  if kind == 1 then d.lifecycle != 3
  else if kind == 2 then d.lifecycle == 1
  else d.lifecycle ≤ 1 && !d.ownerInstalled

/-- TOKEN_RESULT of a staged token: the first failing code of Table SE-4, or 2. -/
def tokenCode (d : Dev) (m : Master) (t : List Byte) : Nat :=
  let kind := tokenNum t 1 1
  let signer := tokenAt t 104 57
  let fp := Config.fingerprint signer
  if !tokenForm t then 3
  else if !(fp == Config.vendorKeyFp || (kind == 1 && d.ownerInstalled && fp == d.rdStr O.OWNER_KEY_FP)) then 4
  else if !Config.signatureGood signer (tokenAt t 0 164) (tokenAt t 164 114) then 5
  else if tokenAt t 8 32 != d.identityFp then 6
  else if !d.nonceIs m t then 7
  else if !d.kindAllowed kind then 8
  else 2

/-- Verification of a master's token ends. -/
def tokenChecked (d : Dev) (m : Master) : Dev :=
  let k := keyOf O.TOKEN_RESULT (masterNo m)
  if d.rd k != 1 then d
  else
    let c := tokenCode d m (d.secOf m).token
    (d.wr k c).when (2 < c) (fun x => x.set1 O.SEC_STATUS 10)

def execTokenVerified (m : Master) (s : State) : Host.Outcome State Fault Refusal := done s (tokenChecked s.dev m)

/-- The highest level that an apply may set in the present lifecycle state and mode (Table SE-6). -/
def Dev.applyCap (d : Dev) : Nat :=
  if d.lifecycle == 3 then 0
  else if d.lifecycle == 1 && (d.inService || d.inShadow) then (if d.observeInService then 1 else 0)
  else if d.lifecycle == 1 && d.inBisque then 0
  else 2

/-- A successful apply consumes the token and its nonce. -/
def Dev.consumeToken (d : Dev) (m : Master) : Dev :=
  ((d.nonceGone m).onSecOf m (fun s => { s with token := [] })).wr (keyOf O.TOKEN_RESULT (masterNo m)) 0

/-- What a token of each kind does. -/
def Dev.tokenActs (d : Dev) (t : List Byte) (kind : Nat) : Dev :=
  if kind == 1 then
    let life := tokenNum t 4 4
    (d.setDebug (tokenNum t 2 1) false).onSec (fun s => { s with
      lifetime := if life == 0 then none else some (d.elapsed + life * 1000000000) })
  else if kind == 2 then d.onSec (fun s => { s with burns := s.burns ++ [.lifecycle 2] })
  else d.onSec (fun s => { s with burns := s.burns ++ [.owner (tokenAt t 72 32)] })

/-- TOKEN_APPLY applied with a kind (R426). -/
def tokenApply (m : Master) (kind : Nat) (d : Dev) : Dev × Nat :=
  let t := (d.secOf m).token
  let ok := d.rd (keyOf O.TOKEN_RESULT (masterNo m)) == 2 && tokenNum t 1 1 == kind && d.nonceIs m t && d.mode.trans.isNone
    && d.kindAllowed kind && (if kind == 1 then tokenNum t 2 1 ≤ d.applyCap else kind != 2 || d.inInert)
  if ok then (((d.tokenActs t kind).consumeToken m).wr O.TOKEN_APPLY kind, 0) else (d, abRefused)

def execTokenApplyDebugUnlock (m : Master) (s : State) : Host.Outcome State Fault Refusal :=
  hostGuard s m 0x2201 4 8 1 (tokenApply m)
def execTokenApplyReturned (m : Master) (s : State) : Host.Outcome State Fault Refusal :=
  hostGuard s m 0x2201 4 8 2 (tokenApply m)
def execTokenApplyOwnerKey (m : Master) (s : State) : Host.Outcome State Fault Refusal :=
  hostGuard s m 0x2201 4 8 3 (tokenApply m)

/-! ## Policy (R431) -/

/-- SEC_POLICY applied: an edit of the pending bank. -/
def secPolicyApply (v : Nat) (d : Dev) : Dev × Nat :=
  if d.editRefused then (d, abRefused)
  else
    let bad := (d.genP O.SEC_POLICY ^^^ v) &&& 0xFC != 0
    ({ d.edit (fun b => bankWr b O.SEC_POLICY v) with undoc := d.undoc || bad }, 0)

/-- The completing write of SEC_POLICY, held while the bank is (Table PV-2). -/
def secPolicyWrite (m : Master) (v : Nat) (d : Dev) : Dev × Nat :=
  if !d.inBoot && d.bankHeld && !d.inShadow then d.holdWrite m 0x2202 0x41 [BitVec.ofNat 8 (255 - v)]
  else d.completing m 0x2202 1 8 v secPolicyApply

def execSecPolicy (m : Master) (v : BitVec 8) (s : State) : Host.Outcome State Fault Refusal :=
  hostTurn s m (writeReq 0x2202 0x41 [BitVec.ofNat 8 (255 - v.toNat)]) (secPolicyWrite m v.toNat s.dev)

/-! ## Debug (R427 to R429) -/

def debugClose (d : Dev) : Dev × Nat := (d.setDebug 0 false, 0)

def execDebugClose (m : Master) (v : BitVec 8) (s : State) : Host.Outcome State Fault Refusal :=
  hostNum s m O.DEBUG_CLOSE v.toNat (fun d => trigger v.toNat d debugClose)

/-- The LIFETIME of the applied token ends. -/
def lifetimeEnd (d : Dev) : Dev := if d.sec.lifetime.isSome then d.setDebug 0 true else d

def execDebugLifetimeEnd (s : State) : Host.Outcome State Fault Refusal := done s (lifetimeEnd s.dev)

/-! ## CAN privilege sessions (R433) -/

/-- SESSION_CHALLENGE_NEW fires. -/
def challengeNew (d : Dev) : Dev × Nat :=
  if !d.genBit O.SEC_POLICY 1 || d.sec.lockout then (d, abRefused)
  else (((d.wrStr O.SESSION_CHALLENGE (fitBytes 32 (Config.random d.free))).onSec (fun s => { s with challenge := true })).fresh, 0)

/-- The 2220 objects take writes from the CAN master alone. -/
def canOnly (m : Master) (d : Dev) (f : Dev → Dev × Nat) : Dev × Nat := if m == .can then f d else (d, abRefused)

def execSessionChallengeNew (m : Master) (v : BitVec 8) (s : State) : Host.Outcome State Fault Refusal :=
  hostNum s m O.SESSION_CHALLENGE_NEW v.toNat (fun d => canOnly m d (fun x => trigger v.toNat x challengeNew))

def execChallengeExpiry (s : State) : Host.Outcome State Fault Refusal :=
  done s (s.dev.onSec (fun x => { x with challenge := false }))

/-- A failed response. -/
def Dev.sessionFailed (d : Dev) : Dev :=
  let n := d.sec.failRun + 1
  ((d.count O.SESSION_FAILURES 1).set1 O.SEC_STATUS 11).onSec (fun s => { s with
    challenge := false, response := none, failRun := n, lockout := s.lockout || 3 ≤ n })

/-- SESSION_RESPONSE written; one of another length fails at once. -/
def sessionResponse (m : Master) (r : List Byte) (d : Dev) : Dev × Nat :=
  canOnly m d (fun x =>
    if r.length != 171 then (x.sessionFailed, abLength) else (x.onSec (fun s => { s with response := some r }), 0))

def execSessionResponse (m : Master) (r : List Byte) (s : State) : Host.Outcome State Fault Refusal :=
  hostWrite s m (Key.idx O.SESSION_RESPONSE) (Key.sub O.SESSION_RESPONSE) r (sessionResponse m r)

/-- Whether a response is valid. -/
def responseGood (d : Dev) (r : List Byte) : Bool :=
  let key := r.take 57
  let want := if d.ownerInstalled then d.rdStr O.OWNER_KEY_FP else Config.vendorKeyFp
  d.sec.challenge && Config.fingerprint key == want
    && Config.signatureGood key (d.rdStr O.SESSION_CHALLENGE ++ d.identityFp ++ [2]) (r.drop 57)

/-- Saggar has checked the response. -/
def responseChecked (d : Dev) : Dev :=
  match d.sec.response with
  | none => d
  | some r =>
    if responseGood d r then
      (d.putFlag O.SEC_STATUS 2 true).onSec (fun s => { s with
        challenge := false, response := none, failRun := 0, session := some (d.elapsed + 600000000000) })
    else d.sessionFailed

def execSessionResponseChecked (s : State) : Host.Outcome State Fault Refusal := done s (responseChecked s.dev)

def execSessionExpiry (s : State) : Host.Outcome State Fault Refusal := done s (s.dev.endSession 6)

def sessionEndFire (d : Dev) : Dev × Nat := (d.endSession 6, 0)

def execSessionEnd (m : Master) (v : BitVec 8) (s : State) : Host.Outcome State Fault Refusal :=
  hostNum s m O.SESSION_END v.toNat (fun d => canOnly m d (fun x => trigger v.toNat x sessionEndFire))

def execChallengeLockoutEnd (s : State) : Host.Outcome State Fault Refusal :=
  done s (s.dev.onSec (fun x => { x with lockout := false, failRun := 0 }))

/-! ## Attestation (R434) -/

def attestNonceWrite (m : Master) (l : List Byte) (d : Dev) : Dev × Nat :=
  if 32 < l.length then (d, abLength) else (d.onSecOf m (fun s => { s with attest := l }), 0)

def execAttestNonce (m : Master) (l : List Byte) (s : State) : Host.Outcome State Fault Refusal :=
  hostWrite s m (Key.idx O.ATTEST_NONCE) (Key.sub O.ATTEST_NONCE) l (attestNonceWrite m l)

/-- Bytes 0 to 191 of an Aulin report (Table SE-7) for a master. -/
def reportBody (d : Dev) (m : Master) : List Byte :=
  let n := (d.secOf m).attest
  let b1 := fun (v : Nat) => bytesBE 1 v
  let flags := ofBit d.clamped + 2 * ofBit d.ownerInstalled + 4 * ofBit (d.flag O.SEC_STATUS 2) + 8 * ofBit (d.flag O.SEC_STATUS 3)
  b1 1 ++ b1 n.length ++ b1 d.lifecycle ++ b1 d.debug ++ b1 d.modeCode ++ b1 flags ++ b1 d.sec.maxDebug ++ b1 0
    ++ bytesBE 8 (d.rd O.REPORT_COUNTER) ++ bytesBE 8 d.time ++ bytesBE 4 (d.rd O.ACTIVE_GENERATION) ++ bytesBE 4 (d.rd O.ACTIVE_CRC)
    ++ fitBytes 32 n ++ d.rdStr O.MANIFEST_DIGEST ++ b1 (d.rd O.ROLLBACK_COUNTER) ++ b1 d.mode.slotRb ++ b1 d.mode.slot ++ b1 0
    ++ d.identityKey ++ List.replicate 3 0

/-- A read of ATTEST_REPORT: the counter goes up, then the report is built and signed. -/
def attestRead (d : Dev) (m : Master) (maxLen : Nat) : Dev × Nat × List Byte :=
  if d.lifecycle == 3 then (d, abRefused, [])
  else if maxLen < 306 then (d, abLength, [])
  else
    let d1 := d.countWrap O.REPORT_COUNTER 64 1
    let body := reportBody d1 m
    (d1, 0, body ++ fitBytes 114 (Config.sign body))

end Sys2Proof.Machine
end

