-- ==== Sys2Proof/Machine/Ranges.lean ====
section
/-!
DEFINITION. The range checks of the objects that hold a number: which values a write may carry (Table DI-1 and the object
tables of every chapter).
-/
namespace Sys2Proof.Machine

/-- Whether a value lies between two bounds. -/
def within (v lo hi : Nat) : Bool := lo ≤ v && v ≤ hi

/-- Table LN-6: the main tap is at least 24 and the taps sum to at most 63 (R125). -/
def eqOk (v : Nat) : Bool := 24 ≤ bits v 8 6 && bits v 0 4 + bits v 8 6 + bits v 16 5 ≤ 63

/-- WTR and HOLD_OFF of Tables PS-14 and PS-15. -/
def protCtlOk (v : Nat) : Bool := within (bits v 24 4) 1 12 && bits v 17 7 ≤ 100

/-- Line lanes and ports (Tables LN-4 to LN-7). -/
def lineRange (o : ObjId) (v : Nat) : Bool :=
  if o == O.PORT_STANDARD then v ≤ 1
  else if o == O.LANE_CTRL then bits v 4 3 != 0
  else if o == O.LOS_WINDOW then within v 3 96
  else if o == O.LOS_AMP_THRESHOLD then within v 20 150
  else if o == O.TX_EQ || o == O.TFI_TX_EQ || o == O.MATE_TX_EQ then eqOk v
  else if o == O.RX_EQ || o == O.TFI_RX_EQ || o == O.MATE_RX_EQ then bits v 26 2 != 3
  else if o == O.FREQ_CTRL then bits v 0 2 != 3
  else true

/-- Alignment and section overhead (Tables FA-6, FA-7, SO-7, SO-11). -/
def sectionRange (o : ObjId) (v : Nat) : Bool :=
  if o == O.ALIGN_CTRL then within (bits v 0 4) 1 8 && within (bits v 4 4) 2 8 && within (bits v 16 4) 1 8 && within (bits v 20 4) 2 8
  else if o == O.LOF_DECLARE || o == O.LOF_CLEAR || o == O.LOM_DECLARE || o == O.LOM_CLEAR then within v 8 80
  else if o == O.SO_CTRL then within (bits v 20 4) 3 15 && within (bits v 16 4) 3 8 && bits v 0 2 != 3
  else if o == O.DCC_QUEUE_R || o == O.DCC_QUEUE_M then v ≤ 15 || v == 255
  else true

/-- The thresholds and BER_SOURCE of DEFECT_CTRL (R232) at an address. -/
def defectCtrlOk (b : Bank) (a v : Nat) : Bool :=
  let sd := bits v 8 4
  let sf := bits v 12 4
  let src := bits v 6 2
  let one := fun (t : Nat) => t == 0 || within t 5 9
  one sd && one sf && (sd == 0 || sf == 0 || sf ≤ sd) && (adLevel a != 3 || src == 0 || (src != 3 && isOtu (portType b (adPort a))))

/-- Pointer, mapping, path overhead and defect objects (Tables MP-8, MP-12, PO-10, DF-6; R211, R216). -/
def pathRange (d : Dev) (o : ObjId) (a v : Nat) : Bool :=
  let lo := isTu1 (typeIn d.pendingBank a)
  if o == O.PTR_CTRL then within (bits v 0 4) 8 10
  else if o == O.MAP_ENTRY then entryOk v
  else if o == O.POH_CTRL then bits v 22 2 != 3 && (bits v 22 2 == 0 || lo) && bits v 18 2 != 3
  else if o == O.TRACE_TX_INDEX || o == O.TRACE_EXP_INDEX || o == O.POOL_SELECT then v ≤ 4095
  else if o == O.SL_TX || o == O.SL_EXPECTED then !lo || v ≤ 7
  else if o == O.DEFECT_CTRL then defectCtrlOk d.pendingBank a v
  else if o == O.TFI_CTRL then within (bits v 2 3) 1 4
  else if o == O.SNCP_CTRL then protCtlOk v
  else if o == O.SNCP_PROTECTING then v == 0 || (v != a && adLevel v == adLevel a)
  else true

/-- Protection groups, clients and performance (Tables PS-11, PS-14, CL-7, CL-8, PF-8, PF-10). -/
def serviceRange (o : ObjId) (v : Nat) : Bool :=
  if o == O.MSP_CTRL then protCtlOk v && !bit v 3 && !bit v 11
  else if o == O.PROTECTION_PORT then v ≤ 63
  else if o == O.CLIENT_CTRL then bits v 0 4 ≤ 6 && (if bits v 0 4 == 6 then within (bits v 20 4) 1 12 else bits v 20 4 == 0)
  else if o == O.PIN_CTRL then within (bits v 8 5) 1 20 && bits v 0 2 != 3
  else if o == O.TARGET_DELAY then within v 125 16000
  else if o == O.CPM_CTRL then within (bits v 16 12) 10 3600
  else if o == O.ES_TCA_THRESH || o == O.SES_TCA_THRESH then v ≤ 3600
  else if o == O.PM_BIN_SELECT then v ≤ 3
  else if o == O.PM_BLOCK_SELECT then pmSelectOk v
  else true

/-- Clock outputs (Table CK-10). -/
def auxOk (v : Nat) : Bool := bits v 18 5 ≤ 20 && within (bits v 23 6) 30 63 && within (bits v 0 18) 25000 156250

/-- Units, pins and CAN objects (Tables CK-8, PA-13, FC-7, FC-8, CV-6, PK-9, DI-7, DI-11). -/
def unitRange (o : ObjId) (v : Nat) : Bool :=
  if o == O.REF_CTRL then bits v 0 3 != 0
  else if o == O.AUX0_CTRL || o == O.AUX1_CTRL then auxOk v
  else if o == O.REVERT_WTR then within v 60 3600
  else if o == O.VERIFY_WINDOW then within v 1 600
  else if o == O.PULSE_WIDTH then within v 10 10000
  else if o == O.INJECT_SOURCE then sourceExists (v % 65536)
  else if o == O.INTEGRITY_PERIOD then v ≤ 3600
  else if o == O.FRAME_PULSE_PIN || o == O.TICK_PIN || o == O.CLAIM_MONITOR_PIN || o == O.RECCLK_PIN then v ≤ 3 || v == 255
  else if o == O.RECCLK_LANE then v ≤ 63
  else if o == O.NODE_ID_OVERRIDE then v ≤ 127
  else if o == O.CAN_BITRATE then v ≤ 5
  else if o == O.COB_ID_SYNC || o == O.COB_ID_EMCY || o == O.TPDO_COB_ID then bits v 11 19 == 0
  else if o == O.TPDO_TRANSMISSION_TYPE then v == 0xFE || v == 0xFF
  else true

/-- The check that a type brings: BOOLEAN is 0 or 1, a PATH_ADDRESS keeps R8 or is 0 (Table DI-1), a whole `trg` object
takes 0 or 1 (R44). -/
def typeRange (o : ObjDef) (v : Nat) : Bool :=
  match o.ty with
  | .bool => v ≤ 1
  | .path => v == 0 || addrValid v
  | _ => o.whole != .trg || v ≤ 1

/-- Whether a number may be written to an object at an address (0 outside the context fields). -/
def rangeOk (d : Dev) (o : ObjDef) (a v : Nat) : Bool :=
  let id := o.base * 256 + o.sub
  typeRange o v && lineRange id v && sectionRange id v && pathRange d id a v && serviceRange id v && unitRange id v

/-- The values that the arming write of a guarded object takes (Table OX-2 and the home chapters). -/
def guardRange (d : Dev) (o : ObjDef) (v : Nat) : Bool :=
  let id := o.base * 256 + o.sub
  if id == O.MODE_GUARDED then within v 1 5
  else if id == O.UNIT_RESET || id == O.LIFECYCLE_REQUEST || id == O.ZEROISE || id == O.FORCE_HANDOVER then v == 1
  else if id == O.TOKEN_APPLY then within v 1 3
  else if id == O.OP_OVERRIDE then v ≤ 3
  else if id == O.ROLLBACK_ADVANCE then d.rollbackOk v
  else true

/-- M1_FORCE_VALUE: the range of Table SO-4 for the type in force; the widest for a port of type 0 (R154). -/
def m1Ok (d : Dev) (p v : Nat) : Bool :=
  let n := stmN (portType d.active p)
  if n == 0 then v ≤ 6144 else v ≤ reiTop n (d.reiMode p)

/-- APS_TX: K3 bits 1 to 4, or K4 bits 3 and 4 (R214, R216). -/
def apsOk (d : Dev) (a v : Nat) : Bool := v ≤ (if isTu1 (d.pathType a) then 3 else 15)

end Sys2Proof.Machine
end

