-- ==== Sys2Proof/Machine/Read.lean ====
section
/-!
DEFINITION. What a read of the dictionary returns: values that follow from the state now, stored values, octets, DOMAINs, and
the order of a read's checks (R42, R43, R51, R56 to R59, R77, R78, R347, R437).
-/
namespace Sys2Proof.Machine

/-! ## Places -/

/-- Where the value of an object lives for a master and the context at `a` (Per-master objects; R77). -/
def dictKey (d : Dev) (m : Master) (idx sub a : Nat) : Key :=
  let id := idx * 256 + sub
  if idx == 0x3021 && 5 ≤ sub then keyOf id (masterNo m)
  else if isContextField idx sub then keyCtx id a
  else if id == O.POOL_ENTRY then keyOf id (d.rd (keyOf O.POOL_SELECT (masterNo m)))
  else if isPerMaster idx sub then keyOf id (masterNo m)
  else id

/-- Whether a context has a record in a bank: levels 1 and 2 provisioned, level 3 an enabled port (R78, R232). -/
def recordIn (b : Bank) (a : Nat) : Bool :=
  if adLevel a == 3 then addrValid a && portOn b (adPort a) && lanePort b (adPort a) == adPort a else provisioned b a

/-- The levels of a context field (R77, R232). -/
def fieldLevels (idx : Nat) : List Nat := if idx == 0x3030 || idx == 0x3031 then [1, 2, 3] else [1, 2]

/-- The abort of a context-field access at an address; 0 where the context is there (R77, R78). -/
def contextCode (d : Dev) (o : ObjDef) (a : Nat) : Nat :=
  if o.sub == 0 || !isContextField o.base o.sub then 0
  else if !(fieldLevels o.base).contains (adLevel a) then abNoContext
  else if o.base == 0x3010 && o.sub == 1 then 0
  else if recordIn (if o.gen then d.pendingBank else d.active) a then 0
  else abNoContext

/-- Whether an object's block is gated and the object is no constant (R59). -/
def Dev.gatedObj (d : Dev) (o : ObjDef) (idx : Nat) : Bool :=
  o.acc != .const && (match gateBitOf idx with
    | some g => !d.gateOn g
    | none => false)

/-! ## Numbers -/

/-- The internal number of a context as 3000:03 gives it, 0xFFFF_FFFF where a bank has none (log entry 59). -/
def internalOf (b : Bank) (a : Nat) : Nat :=
  if adLevel a == 3 then (if recordIn b a then 3 * 2 ^ 29 + adPort a else 0xFFFFFFFF)
  else match b.numbers.find? (fun e => e.1 == a) with
    | some e => adLevel a * 2 ^ 29 + e.2
    | none => 0xFFFFFFFF

/-- Table OX-3: the mapping entries of a TPDO, the count at subindex 0. -/
def tpdoMapping (n sub : Nat) : Nat :=
  let l := if n == 0 then [1, 0x31100140] else if n == 1 then [2, 0x31100220, 0x31100320]
    else if n == 2 then [3, 0x23000220, 0x23000310, 0x00060010] else [2, 0x23000620, 0x20000120]
  l.getD sub 0

/-- The level of a TEST_OUT pin under its owner (R448, R449); RECCLK of a powered lane is a free value. -/
def Dev.pinLevel (d : Dev) (n : Nat) : Bool :=
  let since := fun (t : Option Nat) (ns : Nat) => match t with
    | some b => d.elapsed - b < ns
    | none => false
  if smLook 0 d.pins.quiet n > d.elapsed then false
  else match pinOwner d.active n with
    | 0 => since d.pins.boundary 100
    | 1 => since d.pins.tick 1000
    | 2 => d.granted
    | 3 => d.rxPowered (d.genA O.RECCLK_LANE) && Config.readBit d.reads
    | _ => false

/-- TEST_OUT_LEVEL (R447, R448): low in Boot and Clamp, the factory test's in Bisque with TEST_EN high. -/
def Dev.testOutLevel (d : Dev) : Nat :=
  if d.inBoot || d.clamped then 0
  else if d.inBisque && d.flag O.STRAPS 11 then (Config.testOut d.reads).toNat % 16
  else ofBit (d.pinLevel 0) + 2 * ofBit (d.pinLevel 1) + 4 * ofBit (d.pinLevel 2) + 8 * ofBit (d.pinLevel 3)

/-- CV_STATUS: the engine's user and the busy channels are conditions of now (R36, Table CV-7). -/
def Dev.cvStatus (d : Dev) : Nat :=
  let user := if d.selfScan then 1 else if d.mateScan then 2 else if d.channelBusy 2 then 3 else if d.channelBusy 3 then 4 else 0
  let busy := ofBit (d.channelBusy 0) + 2 * ofBit (d.channelBusy 1) + 4 * ofBit (d.channelBusy 2) + 8 * ofBit (d.channelBusy 3)
  putBits (putBits (d.rd O.CV_STATUS) 4 3 user) 0 4 busy

/-- SCAN_STATUS: a host scan in progress is running or displaced (Table CV-9). -/
def Dev.scanStatus (d : Dev) : Nat :=
  if d.cvu.host.isSome then putBits (d.rd O.SCAN_STATUS) 0 3 (if d.displaced then 2 else 1) else d.rd O.SCAN_STATUS

/-- SCAN_NEXT: the place of a host scan in progress (R36, R410). -/
def Dev.scanNext (d : Dev) : Nat :=
  match d.cvu.host with
  | some s => s.next (d.scanBeats s)
  | none => d.rd O.SCAN_NEXT

/-- Numbers of the dictionary itself, the CAN objects, units and pins that follow from the state now. -/
def unitNum (d : Dev) (m : Master) (id i : Nat) : Option Nat :=
  let a := d.selected m
  if id == O.ERROR_REGISTER then some (errorRegister d.coma)
  else if id == O.IDENTITY then some 0xE4B
  else if id == O.IDENTITY + 1 then some 0x8640
  else if id == O.IDENTITY + 2 then some Config.revision.toNat
  else if id == O.IDENTITY + 3 then some Config.serial.toNat
  else if id == O.SDO_SERVER then some (0x600 + d.can.nodeId)
  else if id == O.SDO_SERVER + 1 then some (0x580 + d.can.nodeId)
  else if O.TPDO_MAPPING_COUNT ≤ id && id ≤ O.TPDO_MAPPING_COUNT + 8 then some (tpdoMapping i (id % 256))
  else if id == O.NODE_ID_ACTIVE then some d.can.nodeId
  else if id == O.THIS_MASTER then some (masterNo m)
  else if id == O.THIS_PRIVILEGE then some (d.privilege m)
  else if id == O.SELECT_INTERNAL then some (internalOf d.active a)
  else if id == O.SELECT_INTERNAL_PENDING then some (internalOf d.pendingBank a)
  else if id == O.MODE_STATUS then some d.modeStatus
  else if id == O.OLDEST_SEQ then some (match d.coma.entries with | e :: _ => e.seq | [] => 0)
  else if id == O.NEWEST_SEQ then some (newestSeq d.coma)
  else if id == O.UNACKED_SEVERE then some (unackedSevere d.coma)
  else if id == O.SEVERE_CLASS_MAP then some (severeClassMap d.coma)
  else if id == O.FAULT_N_CTRL then
    some (putBits (putBits (d.rd id) 2 1 (ofBit d.faultNLow)) 1 1 (ofBit (d.coma.windows.any (fun w => w.pulse))))
  else if id == O.CV_STATUS then some d.cvStatus
  else if id == O.RESULT then some (d.cvResult i)
  else if id == O.SCAN_STATUS then some d.scanStatus
  else if id == O.SCAN_NEXT then some d.scanNext
  else if id == O.PAIR_STATUS then some (putBits (d.rd id) 5 1 (ofBit d.home))
  else if id == O.REVERT_REMAINING then some (d.secondsLeft d.pair.revertAt)
  else if id == O.MATE_LANE_STATUS then some (d.mateStatus i)
  else if id == O.DEBUG_REMAINING then some (d.secondsLeft d.sec.lifetime)
  else if id == O.SESSION_REMAINING then some (d.secondsLeft d.sec.session)
  else if id == O.TEST_OUT_LEVEL then some d.testOutLevel
  else none

/-- CLIENT_RX_FREQ: no reading while LOS; the reading of a 1 s gate is the environment's, a free value (Table CL-7). -/
def Dev.clientFreq (d : Dev) (c : Nat) : Nat :=
  if !d.clientRuns c || d.flag (keyAt O.CLIENT_STATUS c) 0 then noReading else (Config.readWord d.reads).toNat % 2 ^ 32

/-- Whether an MSP object at a port is another port's than a working port's (R277). -/
def Dev.notWorking (d : Dev) (p : Nat) : Bool := !bit (d.genA (keyAt O.MSP_CTRL p)) 31

/-- Numbers of lines, ports, clients and lanes that follow from the state now. -/
def portNum (d : Dev) (id i : Nat) : Option Nat :=
  if id == O.PORT_STATUS then some (d.portStatus i)
  else if id == O.LANE_STATUS then some (d.laneStatus i)
  else if id == O.QUAD_STATUS then some (d.quadStatus i)
  else if id == O.MFAS_LAST then (if isOtu (portType d.active i) then none else some 0)
  else if id == O.OTL_STATUS then some (if bonded d.active (i / 4) then d.rd (keyAt id i) else 0)
  else if id == O.FRAME_PHASE then some (if d.syzRuns i then d.rd (keyAt id i) else 0xFFFFFFFF)
  else if id == O.SO_STATUS then some (d.soStatus i)
  else if id == O.DCC_LEVELS then some (d.dccLevels i)
  else if 0x29C004 ≤ id && id ≤ 0x29C009 && d.notWorking i then some 0
  else if id == O.WTR_REMAINING then some (d.secondsLeft (d.protOf (portAddr i)).wtr)
  else if id == O.OPU_CTRL then (if isOtu (portType d.pendingBank i) then none else some 0)
  else if id == O.OPU_STATUS then (if isOtu (portType d.active i) then none else some 0)
  else if id == O.CLIENT_BOUND_PATH then some (d.boundPath i)
  else if id == O.CLIENT_STATUS then some (d.clientStatus i)
  else if id == O.CLIENT_RX_FREQ then some (d.clientFreq i)
  else if id == O.TFI_LANE_STATUS then some (d.tfiStatus i)
  else if id == O.CREDITS_AVAILABLE then some (creditsAvailable (d.tfiOf i))
  else if id == O.EGRESS_FILL then some (d.tfiOf i).egress.length
  else if id == O.INGRESS_FILL then some (d.tfiOf i).held
  else if id == O.MAP_COUNT_TFI then some (countKind d.pendingBank 1)
  else if id == O.MAP_COUNT_CLIENT then some (countKind d.pendingBank 2)
  else if id == O.MAP_COUNT_LINE then some (countKind d.pendingBank 3)
  else none

/-- Numbers of the context at `a` that follow from the state now. -/
def contextNum (d : Dev) (id a : Nat) : Option Nat :=
  let b := id / 256
  if id == O.MAP_ENTRY_ACTIVE then some (d.mapEntry a)
  else if id == O.PM_STATE then some (pmState (smLook {} d.pm a))
  else if id == O.SNCP_WTR_REMAINING then some (d.secondsLeft (d.protOf a).wtr)
  else if id == O.PTR_STATUS then some (if d.ptrRuns a then d.rd (keyCtx id a) else putBits (d.rd (keyCtx id a)) 16 2 3)
  else if b == 0x3050 && entryKind (entryIn d.pendingBank a) != 1 then some 0
  else if b == 0x3051 && entryKind (d.mapEntry a) != 1 then some 0
  else none

/-- `sts` fields of blocks that the mode holds idle read 0 (R347). -/
def Dev.idleMask (d : Dev) (o : ObjDef) (idx v : Nat) : Nat :=
  let held := match gateBitOf idx with
    | some g => (g ≤ 5 || (7 ≤ g && g ≤ 9)) && !d.traffic
    | none => false
  if held then v &&& (fullMask o ^^^ o.sts) else v

/-- The value of an object that holds a number (R42, R43). -/
def numValue (d : Dev) (m : Master) (o : ObjDef) (idx sub a : Nat) : Nat :=
  let id := o.base * 256 + sub
  let k := dictKey d m idx sub a
  let held := match unitNum d m id (instOf idx), portNum d id (instOf idx), contextNum d id a with
    | some v, _, _ => v
    | none, some v, _ => v
    | none, none, some v => v
    | none, none, none => if o.gen then d.genP k else if o.acc == .const then o.dflt else d.rd k
  d.idleMask o idx held

/-! ## Octets -/

/-- A VISIBLE_STRING of a length, padded with spaces (Table DI-1). -/
def visible (n : Nat) (l : List Byte) : List Byte := (l ++ List.replicate n 0x20).take n

/-- The value of an octet-string object. -/
def strValue (d : Dev) (m : Master) (o : ObjDef) (idx sub a : Nat) : List Byte :=
  let id := o.base * 256 + sub
  let k := dictKey d m idx sub a
  if id == O.DEVICE_NAME then [0x47, 0x56, 0x38, 0x36, 0x34, 0x30]
  else if id == O.HARDWARE_VERSION then visible 4 Config.hardwareVersion
  else if id == O.SOFTWARE_VERSION then visible 16 Config.softwareVersion
  else if id == O.VENDOR_KEY_FP then fitBytes 32 Config.vendorKeyFp
  else if id == O.IDENTITY_KEY then d.identityKey
  else if id == O.IDENTITY_FP then d.identityFp
  else if id == O.PM_BIN then binBytes (adLevel a == 2) ((smLook {} d.pm a).bin (d.rd (keyOf O.PM_BIN_SELECT (masterNo m))))
  else if o.gen then bankStr d.pendingBank k
  else d.rdStr k

/-! ## Answers -/

/-- What a read answers: abort code, data, and the effect of its completion (R57). -/
structure ReadAns where
  abort : Nat := 0
  data  : List Byte := []
  fin   : Completion := .none
deriving DecidableEq, Repr

/-- The value of a DOMAIN for a host that takes `n` bytes (R471); the device after the reads that act at once. -/
def domValue (d : Dev) (m : Master) (idx sub n : Nat) : Dev × ReadAns :=
  let id := baseOf idx * 256 + sub
  let p := instOf idx
  if id == O.DCC_RX_R || id == O.DCC_RX_M then
    let mux := id == O.DCC_RX_M
    let l := d.dccRead p mux n
    let q := d.dccQueue p mux
    (d, { data := l, fin := .dcc q (d.dccGone q + l.length) })
  else if id == O.HISTORY then
    let x := historyValue d n
    (d, { data := x.1, fin := .history x.2 })
  else if id == O.MAP_BLOCK || id == O.MAP_BLOCK_ACTIVE then
    let x := mapRead d m (if id == O.MAP_BLOCK then d.pendingBank else d.active) n
    (d, { abort := x.1, data := x.2.1, fin := if x.1 == 0 then .mapBlock m x.2.2 else .none })
  else if id == O.PM_BLOCK then
    let x := pmBlock d m n
    (d, { data := x.1, fin := .pmBlock m x.2 })
  else if id == O.ATTEST_REPORT then
    let x := attestRead d m n
    (x.1, { abort := x.2.1, data := x.2.2 })
  else (d, {})

/-- The bytes of a number of an object's type, least significant first (log entry 34). -/
def numBytes (t : Ty) (v : Nat) : List Byte := bytesLE t.bytes v

/-- The zeros that a gated block returns (R59): the type's length of them, and none for a DOMAIN, whose length the manual leaves open
there (DESIGN CHOICE, log entry 118). -/
def zerosOf (o : ObjDef) : List Byte :=
  match o.ty with
  | .dom _ _ => []
  | t => List.replicate t.bytes 0

/-- A read takes a new free value where it returned one; reads have a count of their own, so that no output depends on them
(R18). -/
def Dev.freeUsed (d : Dev) (id : Nat) : Dev :=
  if id == O.CLIENT_RX_FREQ || id == O.TEST_OUT_LEVEL then { d with reads := d.reads + 1 } else d

/-- Whether a read carries an allowed length: a DOMAIN takes the host's limit, every other type its own length (R56, R471); a
CAN upload carries none. -/
def readLengthOk (t : Ty) (len : Option Nat) : Bool :=
  match len with
  | none => true
  | some n => match t with
    | .dom _ _ => n != 0
    | _ => n == t.bytes

/-- The value of an object that no check refuses. -/
def valueOf (d : Dev) (m : Master) (o : ObjDef) (idx sub a : Nat) (len : Option Nat) : Dev × ReadAns :=
  match o.ty with
  | .dom _ _ => domValue d m idx sub (len.getD 4096)
  | .str _ => (d, { data := strValue d m o idx sub a })
  | t => (d.freeUsed (o.base * 256 + sub), { data := numBytes t (numValue d m o idx sub a) })

/-- The region of Table AR-5 whose words a read of an object brings: the banks for the objects they hold, the PM store, the context
state, the event history queue, and the management memory for the rest of the dictionary. -/
def Dev.regionOf (d : Dev) (o : ObjDef) : Nat :=
  let bankOf := fun (b : Bool) => if b then 1 else 0
  let id := o.base * 256 + o.sub
  if id == O.MAP_BLOCK_ACTIVE || id == O.MAP_ENTRY_ACTIVE then bankOf d.activeB
  else if o.gen then bankOf (!d.activeB)
  else if o.base == 0x3800 || o.base == 0x3804 then 3
  else if id == O.HISTORY then 7
  else if inContextState o.base o.sub then 2
  else 4

/-- An uncorrectable error in the words of an access: the region's event, and INVALID in the bin that a read of PM_BIN brings (R60, R245). -/
def Dev.readError (d : Dev) (m : Master) (region idx sub a : Nat) : Dev :=
  let spoilt := d.when (idx * 256 + sub == O.PM_BIN) (fun x => x.binSpoil a (x.rd (keyOf O.PM_BIN_SELECT (masterNo m))))
  spoilt.memoryErrorSomewhere region

/-- A read of an entry by a master on the context at `a`: existence, gating, access, length, guard, context, memory, value (log
entry 93). Gated blocks and the spare indices of a bonded quad answer zeros before any other check (R59, R82). -/
def readAt (d : Dev) (m : Master) (idx sub a : Nat) (len : Option Nat) (ecc : Ecc := .clean) : Dev × ReadAns :=
  if d.inBoot then (d, { abort := abRefused })
  else if !indexExists idx then (d, { abort := abNoIndex })
  else match findObj idx sub with
    | none => (d, { abort := abNoSub })
    | some o =>
      if d.gatedObj o idx || d.bondedIndex idx then (d, { data := zerosOf o })
      else if o.acc == .wo then (d, { abort := abWriteOnly })
      else if !readLengthOk o.ty len then (d, { abort := abLength })
      else if o.guard && d.privilege m == 0 then (d, { data := zerosOf o })
      else if contextCode d o a != 0 then (d, { abort := contextCode d o a })
      else if ecc == .uncorrectable then (d.readError m (d.regionOf o) o.base o.sub a, { abort := abMemory })
      else valueOf (d.eccHit (d.regionOf o) ecc) m o idx sub a len

/-- A read of an entry by a master on the context it has selected. -/
def Dev.readObj (d : Dev) (m : Master) (idx sub : Nat) (len : Option Nat) (ecc : Ecc := .clean) : Dev × ReadAns :=
  readAt d m idx sub (d.selected m) len ecc

/-- The effect of a completed read (R57, R163, R195, R253, R389). -/
def Dev.completed (d : Dev) : Completion → Dev
  | .none => d
  | .dcc q upTo => d.dccConsume q upTo
  | .history seqs => d.markRead seqs
  | .mapBlock m n => d.mapAdvance m n
  | .pmBlock m n => pmBlockDone d m n

end Sys2Proof.Machine
end

