-- ==== Sys2Proof/Machine/Write.lean ====
section
/-!
DEFINITION. What a write of the dictionary does: the order of its checks, edits of the pending bank, the objects with effects of
their own, and guarded objects (R42 to R47, R51 to R56, R59, R77 to R79, R86).
-/
namespace Sys2Proof.Machine

/-! ## The context window (R77 to R79) -/

/-- CONTEXT_SELECT written: any address that R8 allows. -/
def contextSelect (m : Master) (a : Nat) (d : Dev) : Dev × Nat :=
  if addrValid a then (d.wr (keyOf O.CONTEXT_SELECT (masterNo m)) a, 0) else (d, abRange)

def execContextSelect (m : Master) (a : Addr) (s : State) : Host.Outcome State Fault Refusal :=
  hostNum s m O.CONTEXT_SELECT a.toNat (contextSelect m a.toNat)

/-- The contexts of a level in a bank with their internal numbers; a port's number is the port (R80). -/
def numbering (b : Bank) (level : Nat) : List (Nat × Nat) :=
  if level == 3 then ((portsOn b).filter (fun p => lanePort b p == p)).map (fun p => (p, portAddr p))
  else (b.numbers.filter (fun e => adLevel e.1 == level)).map (fun e => (e.2, e.1))

/-- The entry with the lowest number. -/
def lowestOf : List (Nat × Nat) → Option (Nat × Nat)
  | [] => none
  | e :: r => match lowestOf r with
    | some x => if x.1 < e.1 then some x else some e
    | none => some e

/-- The context that SELECT_STEP moves to from an address (R79). -/
def nextContext (b : Bank) (a : Nat) : Option Nat :=
  let l := numbering b (adLevel a)
  match l.find? (fun e => e.2 == a) with
  | some own => (lowestOf (l.filter (fun e => own.1 < e.1))).map (·.2)
  | none => (lowestOf l).map (·.2)

/-- SELECT_STEP written (R79). The manual does not order the two aborts of a value other than 1 with no context selected: the value
is judged first (DESIGN CHOICE, log entry 119). -/
def selectStep (m : Master) (v : Nat) (d : Dev) : Dev × Nat :=
  let a := d.selected m
  if v != 1 then (d, abRange)
  else if a == 0 then (d, abNoContext)
  else match nextContext d.active a with
    | some n => (d.wr (keyOf O.CONTEXT_SELECT (masterNo m)) n, 0)
    | none => (d, abNoContext)

def execSelectStep (m : Master) (v : BitVec 8) (s : State) : Host.Outcome State Fault Refusal :=
  hostNum s m O.SELECT_STEP v.toNat (selectStep m v.toNat)

/-! ## Objects that act when written -/

/-- A result, if this group holds the object. -/
abbrev Acted := Option (Dev × Nat)

/-- Objects of provisioning, modes, clocks, faults and the check-value unit. -/
def unitWrite (d : Dev) (m : Master) (id i v hw : Nat) : Acted :=
  if id == O.COMMIT then some (heldTrigger m 1 v (commitFire m) d)
  else if id == O.CANCEL_SWITCH then some (heldTrigger m 3 v cancelFire d)
  else if id == O.PENDING_RESET then some (heldTrigger m 8 v pendingResetFire d)
  else if id == O.MODE_REQUEST then some (modeRequestWrite v d)
  else if id == O.WAKE_CTRL then some (wakeWrite v d)
  else if id == O.OP_RETRY then some (trigger v d opRetry)
  else if id == O.TIME_STEP then some (timeStepWrite d v)
  else if id == O.FAULT_N_CTRL then some (faultNWrite v (bit hw 0) d)
  else if id == O.ACK_SEQ then some (d.acknowledge v, 0)
  else if id == O.INJECT_FIRE then some (trigger v d injectFire)
  else if id == O.SEVERE_N then some (severeNWrite i v d)
  else if id == O.SEVERE_WINDOW then some (severeWindowWrite i v d)
  else if id == O.RUNNING then some (runningWrite d i v)
  else if id == O.SCAN_CTRL then some (scanCtrlWrite d v)
  else if id == O.CONTEXT_SELECT then some (contextSelect m v d)
  else if id == O.SELECT_STEP then some (selectStep m v d)
  else none

/-- Objects of Saggar (Table SE-9). -/
def secWrite (d : Dev) (m : Master) (id v : Nat) (data : List Byte) : Acted :=
  if id == O.NONCE_NEW then some (trigger v d (nonceNew m))
  else if id == O.TOKEN then some (tokenWrite m data d)
  else if id == O.DEBUG_CLOSE then some (trigger v d debugClose)
  else if id == O.SESSION_CHALLENGE_NEW then some (canOnly m d (fun x => trigger v x challengeNew))
  else if id == O.SESSION_RESPONSE then some (sessionResponse m data d)
  else if id == O.SESSION_END then some (canOnly m d (fun x => trigger v x sessionEndFire))
  else if id == O.ATTEST_NONCE then some (attestNonceWrite m data d)
  else none

/-- Transmitted bits of a port, a context or a client, applied in both units of a pair (R173, R214, R264, R295). -/
def pairedObject (d : Dev) (idx sub id i a v : Nat) (data : List Byte) : Acted :=
  let w : PairedWrite := { idx := idx, sub := sub, addr := 0, data := data }
  let check := fun (ok : Bool) => if ok then 0 else abRange
  if id == O.S1_TX then some (d.writeTogether w (check (v ≤ 15)) (plainApply (keyAt id i) v))
  else if id == O.SO_TEST then some (soTestWrite i v d)
  else if id == O.K1K2_FORCE_VALUE then some (d.writeTogether w 0 (plainApply (keyAt id i) v))
  else if id == O.M1_FORCE_VALUE then some (d.writeTogether w (check (m1Ok d i v)) (plainApply (keyAt id i) v))
  else if id == O.DCC_TX_R then some (dccTxWrite i false data d)
  else if id == O.DCC_TX_M then some (dccTxWrite i true data d)
  else if id == O.MSP_COMMAND then some (commandWrite (portAddr i) v d)
  else if id == O.SNCP_COMMAND then some (commandWrite a v d)
  else if id == O.APS_TX then some (d.writeTogether { w with addr := a } (check (apsOk d a v)) (plainApply (keyCtx id a) v))
  else if id == O.POH_TEST then some (pohTestWrite a v d)
  else if id == O.CLIENT_TEST then some (clientTestWrite i v d)
  else if id == O.FAR_REPORT then some (farWrite i data d)
  else none

/-- Objects of lines, performance monitoring and the mapping block. -/
def lineWrite (d : Dev) (m : Master) (id i v hw : Nat) : Acted :=
  if id == O.TX_SQUELCH then some (squelchWrite i v d)
  else if id == O.PRBS_CTRL then some (prbsWrite i v d)
  else if id == O.FREQ_CTRL then
    let k := keyAt id i
    some (if bits v 0 2 == 3 then (d, abRange) else ((d.wr k (v &&& 7)).when ((d.rd k ^^^ v) &&& 7 != 0) (fun x => x.spoilGate i), 0))
  else if id == O.PM_SECOND then some (pmSecondWrite v (hw != 0) d)
  else if id == O.PM_CLEAR then some (pmClear m v d)
  else if id == O.CPM_CLEAR then some (cpmClear i v d)
  else if id == O.MAP_BLOCK_SELECT then some (mapSelectWrite m v d)
  else if id == O.TRACE_CAPTURE then some (traceCaptureWrite m v d)
  else none

/-- Whether writes of an object are ignored: a TFI field of a context without a KIND 1 entry (R314), an OPU object of a port
that is no OTU port (R199). -/
def ignoredWrite (d : Dev) (o : ObjDef) (idx a : Nat) : Bool :=
  let b := if o.gen then d.pendingBank else d.active
  ((o.base == 0x3050 || o.base == 0x3051) && entryKind (entryIn b a) != 1)
    || (o.base == 0x3440 && !isOtu (portType b (instOf idx)))

/-- The write of any other `now` object: its fields by their kinds, with what hardware does to it in the same cycle (R44 to
R47). -/
def kindWritten (d : Dev) (o : ObjDef) (k : Key) (v hw : Nat) : Dev × Nat :=
  ({ d.wr k (kindWrite o (d.rd k) v hw) with undoc := d.undoc || rsvdChanged o (d.rd k) v }, 0)

/-- The write of a `now` object after the checks common to all (R43). -/
def nowWrite (d : Dev) (m : Master) (o : ObjDef) (idx sub : Nat) (data : List Byte) (hw : Nat) : Dev × Nat :=
  let id := o.base * 256 + sub
  let i := instOf idx
  let a := d.selected m
  let v := ofBytesLE data
  match unitWrite d m id i v hw, secWrite d m id v data, pairedObject d idx sub id i a v data, lineWrite d m id i v hw with
  | some r, _, _, _ => r
  | none, some r, _, _ => r
  | none, none, some r, _ => r
  | none, none, none, some r => r
  | none, none, none, none =>
    if !rangeOk d o a v then (d, abRange)
    else if ignoredWrite d o idx a then (d, 0)
    else kindWritten d o (dictKey d m idx sub a) v hw

/-! ## Edits of the pending bank -/

/-- The write of a `gen` object: an edit of the pending bank (R43, R86, R87). -/
def genWrite (d : Dev) (m : Master) (o : ObjDef) (idx sub : Nat) (data : List Byte) : Dev × Nat :=
  let id := o.base * 256 + sub
  let a := d.selected m
  let v := ofBytesLE data
  let k := dictKey d m idx sub a
  if id == O.PATH_TYPE then pathTypeWrite m v d
  else if id == O.PORT_TYPE then portTypeWrite (instOf idx) v d
  else if id == O.MAP_BLOCK then mapBlockWrite m data d
  else if d.editRefused then (d, abRefused)
  else if o.ty.isOctets then (d.edit (fun b => bankWrStr b k data), 0)
  else if !rangeOk d o a v then (d, abRange)
  else if ignoredWrite d o idx a then (d, 0)
  else ({ d.edit (fun b => bankWr b k v) with undoc := d.undoc || rsvdChanged o (d.genP k) v }, 0)

/-! ## Guarded objects -/

/-- The guarded value that a completed sequence applies (R52). -/
def guardApply (m : Master) (o : ObjDef) (i v : Nat) (d : Dev) : Dev × Nat :=
  let id := o.base * 256 + o.sub % 64
  if id == O.MODE_GUARDED then modeGuardedApply v d
  else if id == O.UNIT_RESET then unitResetApply (d.rd O.STRAPS % 2048) v d
  else if id == O.OP_OVERRIDE then opOverrideApply v d
  else if id == O.BLOCK_CLOCK_ENABLE then gatesApply v d
  else if id == O.PAIR_CTRL then pairCtrlApply v d
  else if id == O.FORCE_HANDOVER then forceHandover d
  else if id == O.REACTION then reactionApply i v d
  else if id == O.LIFECYCLE_REQUEST then lifecycleApply v d
  else if id == O.ZEROISE then zeroiseApply v d
  else if id == O.ROLLBACK_ADVANCE then rollbackApply v d
  else if id == O.TOKEN_APPLY then tokenApply m v d
  else secPolicyApply v d

/-! ## Held requests and the whole write -/

/-- Whether Table PV-2 or a freeze holds a request back (R86, R409): writes of `gen` objects and the triggers of 2601; reads of
`gen` objects while COPYING. An arming write is no edit. -/
def Dev.heldBack (d : Dev) (idx sub : Nat) (write : Bool) : Bool :=
  if idx == 0x2601 && write && (sub == 1 || sub == 3 || sub == 8) then d.triggerHeld sub
  else match findObj idx sub with
    | none => false
    | some o =>
      o.gen && (if write then d.bankHeld && !d.inShadow && (!o.guard || 64 ≤ sub) else d.rd O.PENDING_STATE == 1)

/-- A write of an object that is not guarded: gating, access, length, context, then its effect. `sized` says that the request
carried a length. -/
def openWrite (d : Dev) (m : Master) (o : ObjDef) (idx sub : Nat) (data : List Byte) (hw : Nat) (sized : Bool) : Dev × Nat :=
  let own := o.base * 256 + sub == O.SESSION_RESPONSE
  if d.bondedIndex idx then (d, 0)
  else if o.acc == .const then (d, abReadOnly)
  else if d.gatedObj o idx then (d, 0)
  else if o.acc == .ro then (d, abReadOnly)
  else if !sized || (!own && !lengthOk o.ty data.length) then (d, abLength)
  else if contextCode d o (d.selected m) != 0 then (d, contextCode d o (d.selected m))
  else if o.gen then
    (if d.heldBack idx sub true then d.holdWrite m idx sub data else genWrite d m o idx sub data)
  else nowWrite d m o idx sub data hw

/-- A write of an entry by a master; `hw` is what hardware does to the object in the same cycle (Table DI-3), `sized` whether the
request carried a length: one without breaks or completes a guard sequence as a write of a wrong length does (R56, Table DI-5). -/
def Dev.writeSized (d : Dev) (m : Master) (idx sub : Nat) (data : List Byte) (hw : Nat) (sized : Bool) : Dev × Nat :=
  let v := ofBytesLE data
  if d.inBoot then (d, abRefused)
  else if !indexExists idx then (d.dropArm m 4, abNoIndex)
  else match findObj idx sub with
    | none => (d.dropArm m 4, abNoSub)
    | some o =>
      let lenOk := sized && lengthOk o.ty data.length
      if o.guard && sub < 64 then d.armGuard m idx sub v lenOk (guardRange d o v)
      else if o.guard then
        (if lenOk && d.heldBack idx sub true then d.holdWrite m idx sub data
         else d.completeGuard m idx (sub - 64) o.ty.width v lenOk (guardApply m o (instOf idx)))
      else openWrite (d.dropArm m 4) m o idx sub data hw sized

/-- A write of an entry by a master, its length given. -/
def Dev.writeObj (d : Dev) (m : Master) (idx sub : Nat) (data : List Byte) (hw : Nat) : Dev × Nat :=
  d.writeSized m idx sub data hw true

def execRegisterWrite (m : Master) (index : BitVec 16) (sub : BitVec 8) (data : List Byte) (coincident : Word) (s : State) :
    Host.Outcome State Fault Refusal :=
  hostTurn s m (writeReq index.toNat sub.toNat data) (s.dev.writeObj m index.toNat sub.toNat data coincident.toNat)

/-- The arming write of a guarded object (R52). -/
def execGuardArmingWrite (m : Master) (index : BitVec 16) (sub : BitVec 8) (data : List Byte) (s : State) :
    Host.Outcome State Fault Refusal :=
  hostTurn s m (writeReq index.toNat sub.toNat data) (s.dev.writeObj m index.toNat sub.toNat data 0)

/-- The guard window closes (R53, Table DI-5). -/
def execGuardWindowExpiry (m : Master) (s : State) : Host.Outcome State Fault Refusal := done s (s.dev.dropArm m 5)

end Sys2Proof.Machine
end

