-- ==== Sys2Proof/Machine/Transport.lean ====
section
/-!
DEFINITION. How requests reach the dictionary: the masters' queues, host slots, table transfers, Milber and SDO (R25, R49, R56
to R58, R66 to R76, R80, R81, R354, R428, R471).
-/
namespace Sys2Proof.Machine

/-! ## Values in words (R69) -/

/-- The words of a value of a type: numbers right-aligned, 64 bits high word first, strings and DOMAINs packed. -/
def recordWords : Ty → Nat
  | .str n => (n + 3) / 4
  | .u64 => 2
  | .time => 2
  | _ => 1

/-- A value's bytes on the wire, a whole number of words. -/
def wireBytes (t : Ty) (data : List Byte) : List Byte :=
  if t.isOctets then fitBytes ((data.length + 3) / 4 * 4) data else bytesBE (4 * recordWords t) (ofBytesLE data)

/-- A value of `n` bytes from its words. -/
def unwire (t : Ty) (n : Nat) (wire : List Byte) : List Byte :=
  if t.isOctets then wire.take n else bytesLE n (ofBytesBE wire)

/-- The bytes of words, most significant first. -/
def wordBytes (l : List (BitVec 32)) : List Byte := l.flatMap (fun w => bytesBE 4 w.toNat)

/-- Bytes as words. -/
def bytesWords : Nat → List Byte → List (BitVec 32)
  | 0, _ => []
  | n + 1, l => if l.isEmpty then [] else BitVec.ofNat 32 (ofBytesBE (fitBytes 4 (l.take 4))) :: bytesWords n (l.drop 4)

/-- The type of an entry; octets where there is none. -/
def tyOf (idx sub : Nat) : Ty :=
  match findObj idx sub with
  | some o => o.ty
  | none => .dom 0 4096

/-! ## Table transfers (R80, R81) -/

/-- An access on the context at an address, whatever the master has selected. -/
def Dev.selecting {α : Type} (d : Dev) (m : Master) (a : Nat) (f : Dev → Dev × α) : Dev × α :=
  let k := keyOf O.CONTEXT_SELECT (masterNo m)
  let r := f (d.wr k a)
  (r.1.wr k (d.rd k), r.2)

/-- The context with a number of a level in the generation that a field acts on. -/
def tableContext (d : Dev) (o : ObjDef) (level n : Nat) : Option Nat :=
  let b := if o.gen then d.pendingBank else d.active
  if level == 3 then (if n < 64 && recordIn b (portAddr n) then some (portAddr n) else none) else numbered b level n

/-- The first aborting record of a table write, checked record by record as a single write would be. -/
def tableValues (d : Dev) (m : Master) (o : ObjDef) (idx sub level : Nat) : Nat → Nat → List Byte → Nat
  | 0, _, _ => 0
  | n + 1, first, wire =>
    let w := 4 * recordWords o.ty
    let v := unwire o.ty o.ty.bytes (wire.take w)
    let code := match tableContext d o level first with
      | some a => (d.selecting m a (fun x => x.writeObj m idx sub v 0)).2
      | none => abNoContext
    if code != 0 then code else tableValues d m o idx sub level n (first + 1) (wire.drop w)

/-- The abort of a table transfer found before any record is touched; 0 where it may go on (R80). A gated block's fields answer before
any other check of the transfer (R59). -/
def tableCheck (d : Dev) (m : Master) (idx sub start count : Nat) (data : Option (List Byte)) : Nat :=
  let level := bits start 29 3
  let first := bits start 0 16
  if idx < 0x3001 || 0x30FF < idx || !indexExists idx then abNoIndex
  else if sub == 0 then abNoSub
  else match findObj idx sub with
    | none => abNoSub
    | some o =>
      if d.gatedObj o idx then 0
      else if data.isSome && o.acc == .ro then abReadOnly
      else if data.isNone && o.acc == .wo then abWriteOnly
      else if bits start 16 13 != 0 || level < 1 || 3 < level then abRange
      else if !(fieldLevels o.base).contains level || classSize level < first + count then abNoContext
      else if (List.range count).any (fun i => (tableContext d o level (first + i)).isNone) then abNoContext
      else match data with
        | some wire => tableValues d m o idx sub level count first wire
        | none => 0

/-! ## Requests that wait -/

/-- The entry, the range and the kind of a request. -/
def bodyIdx : ReqBody → Nat
  | .read i _ _ => i | .write i _ _ => i | .unsized i _ _ => i | .writeAt _ i _ _ => i | .tableRead i _ _ _ => i | .tableWrite i _ _ _ _ => i
def bodySub : ReqBody → Nat
  | .read _ n _ => n | .write _ n _ => n | .unsized _ n _ => n | .writeAt _ _ n _ => n | .tableRead _ n _ _ => n | .tableWrite _ n _ _ _ => n
def bodyWrites : ReqBody → Bool
  | .write _ _ _ => true
  | .unsized _ _ _ => true
  | .writeAt _ _ _ _ => true
  | .tableWrite _ _ _ _ _ => true
  | _ => false

/-- No request executes: the controller is halted (R428) or frozen (R409), or the management domain has no clock. -/
def Dev.noRequests (d : Dev) : Bool := d.halted || d.firmwareFrozen || d.inBoot || d.flag O.CLAMP_CAUSE 0

/-- Whether a request accesses a record through host slots (R25, R77, R81, R246, R253). -/
def needsSlot (d : Dev) (m : Master) (b : ReqBody) : Bool :=
  let idx := bodyIdx b
  let sub := bodySub b
  match findObj idx sub with
  | none => false
  | some o => match b with
    | .tableRead _ _ start count => !d.gatedObj o idx && tableCheck d m idx sub start count none == 0
    | .tableWrite _ _ start count data => !d.gatedObj o idx && tableCheck d m idx sub start count (some data) == 0
    | .writeAt a _ _ _ => isContextField idx sub && sub != 0 && !d.gatedObj o idx && contextCode d o a == 0
    | .read _ _ n =>
      !d.gatedObj o idx && readLengthOk o.ty (if n == 0 then none else some n)
        && ((isContextField idx sub && sub != 0 && idx != 0x3400 && contextCode d o (d.selected m) == 0)
          || (idx * 256 + sub == O.PM_BLOCK && pmBlockCount d m (if n == 0 then 4096 else n) != 0))
    | _ => isContextField idx sub && sub != 0 && idx != 0x3400 && !d.gatedObj o idx && contextCode d o (d.selected m) == 0

/-- Whether a request waits for a host slot: its records need one, or its transfer is under way (R81). -/
def waitsSlot (d : Dev) (m : Master) (r : Req) : Bool := r.started || needsSlot d m r.body

/-- A queue with its first waiting request replaced, or taken out. -/
def replaceNext (r : Option Req) : List Req → List Req
  | [] => []
  | q :: rest =>
    if q.done then q :: replaceNext r rest
    else match r with
      | some x => x :: rest
      | none => rest

/-- A request has executed: a Milber response stays until it is fetched; any other answers at once, and completes when its
response went out whole (R57, R72). -/
def Dev.finish (d : Dev) (m : Master) (r : Req) (x : ReadAns) : Dev :=
  if r.tag < 16 then
    let n := match r.body with
      | .read _ _ _ => x.data.length
      | .tableRead _ _ _ count => if x.abort == 0 then count else 0
      | _ => 0
    let t := tyOf (bodyIdx r.body) (bodySub r.body)
    let wire := match r.body with
      | .read _ _ _ => wireBytes t x.data
      | _ => x.data
    d.onMaster m (fun s => { s with queue := replaceNext (some { r with
      done := true, abort := x.abort, len := n, data := if x.abort == 0 then wire else [], fin := x.fin }) s.queue })
  else
    let d1 := d.onMaster m (fun s => { s with queue := replaceNext none s.queue, abort := x.abort, data := x.data })
    d1.when (r.tag == tagNone && x.abort == 0) (fun y => y.completed x.fin)

/-- The access that a request with no table makes. -/
def accessOf (d : Dev) (m : Master) (ecc : Ecc) : ReqBody → Dev × ReadAns
  | .read idx sub n => d.readObj m idx sub (if n == 0 then none else some n) ecc
  | .write idx sub data => let r := d.writeObj m idx sub data 0; (r.1, { abort := r.2 })
  | .unsized idx sub data => let r := d.writeSized m idx sub data 0 false; (r.1, { abort := r.2 })
  | .writeAt a idx sub data => let r := d.selecting m a (fun x => x.writeObj m idx sub data 0); (r.1, { abort := r.2 })
  | .tableRead idx sub start count =>
    let code := tableCheck d m idx sub start count none
    (d, { abort := code, data := if code == 0 then List.replicate (4 * count * recordWords (tyOf idx sub)) 0 else [] })
  | .tableWrite idx sub start count data =>
    (d.dropArm m 4, { abort := tableCheck d m idx sub start count (some data) })

/-- One queue executes up to its first request that must wait. -/
def drainQueue (m : Master) : Nat → Dev → Dev
  | 0, d => d
  | n + 1, d => match d.nextReq m with
    | none => d
    | some r =>
      if d.noRequests || d.heldBack (bodyIdx r.body) (bodySub r.body) (bodyWrites r.body) || waitsSlot d m r then d
      else
        let x := accessOf d m r.ecc r.body
        drainQueue m n (x.1.finish m r x.2)

/-- Every queue executes up to its first request that must wait. -/
def Dev.drain (d : Dev) : Dev := drainQueue .mgmt 16 (drainQueue .can 16 (drainQueue .spi 16 d))

/-! ## Host slots (R25, R60, R81) -/

/-- The region of the record that a request's next host slot reads. -/
def slotRegion (d : Dev) (b : ReqBody) : Nat :=
  match findObj (bodyIdx b) (bodySub b) with
  | some o => d.regionOf o
  | none => 2

/-- An uncorrectable word in the record of a write's access: the region's event (R60; log entry 95). -/
def Dev.slotError (d : Dev) (b : ReqBody) : Dev := d.memoryErrorSomewhere (slotRegion d b)

/-- A transfer of several records goes on with its next one, whose place is `len`. -/
def Dev.goesOn (d : Dev) (m : Master) (r : Req) (data : List Byte) : Dev :=
  d.onMaster m (fun s => { s with queue := replaceNext (some { r with started := true, len := r.len + 1, data := data }) s.queue })

/-- One record of a table read. -/
def tableReadOne (d : Dev) (m : Master) (r : Req) (idx sub start count : Nat) (ecc : Ecc) : Dev :=
  let level := bits start 29 3
  let o := findObj idx sub
  let at_ := match o with
    | some x => tableContext d x level (bits start 0 16 + r.len)
    | none => none
  match at_ with
  | none => d.finish m r { abort := abNoContext }
  | some a =>
    let x := readAt d m idx sub a none ecc
    let data := r.data ++ wireBytes (tyOf idx sub) x.2.data
    if x.2.abort != 0 then x.1.finish m r { abort := x.2.abort }
    else if r.len + 1 == count then x.1.finish m r { data := data }
    else x.1.goesOn m r data

/-- One record of a table write. -/
def tableWriteOne (d : Dev) (m : Master) (r : Req) (idx sub start count : Nat) (wire : List Byte) : Dev :=
  let level := bits start 29 3
  let t := tyOf idx sub
  let w := 4 * recordWords t
  let v := unwire t t.bytes ((wire.drop (w * r.len)).take w)
  let at_ := match findObj idx sub with
    | some x => tableContext d x level (bits start 0 16 + r.len)
    | none => none
  match at_ with
  | none => d.finish m r { abort := abNoContext }
  | some a =>
    let x := d.selecting m a (fun y => y.writeObj m idx sub v 0)
    if x.2 != 0 then x.1.finish m r { abort := x.2 }
    else if r.len + 1 == count then x.1.finish m r {}
    else x.1.goesOn m r r.data

/-- One record of a PM_BLOCK read (R253); an error in its words spoils its bin and aborts the read (R60, R245). -/
def pmBlockOne (d : Dev) (m : Master) (r : Req) (n : Nat) (ecc : Ecc) : Dev :=
  let x := pmBlockRecord d m r.len
  let data := r.data ++ x.2
  if ecc == .uncorrectable then
    let spoilt := match x.1 with
      | some a => d.binSpoil a (d.fld (keyOf O.PM_BLOCK_SELECT (masterNo m)) 16 2)
      | none => d
    (spoilt.memoryErrorSomewhere 3).finish m r { abort := abMemory }
  else
    let d1 := d.eccHit 3 ecc
    if pmBlockCount d m n ≤ r.len + 1 then d1.finish m r { data := data, fin := .pmBlock m (r.len + 1) }
    else d1.goesOn m r data

/-- The access of a host slot: one record. -/
def slotAccess (d : Dev) (m : Master) (r : Req) (ecc : Ecc) : Dev :=
  match r.body with
  | .tableRead idx sub start count => tableReadOne d m r idx sub start count ecc
  | .read idx sub n =>
    if idx * 256 + sub == O.PM_BLOCK then pmBlockOne d m r (if n == 0 then 4096 else n) ecc
    else
      let x := accessOf d m ecc r.body
      x.1.finish m r x.2
  | b =>
    if ecc == .uncorrectable then (d.slotError b).finish m r { abort := abMemory }
    else
      let d1 := d.eccHit (slotRegion d b) ecc
      match b with
      | .tableWrite idx sub start count data => tableWriteOne d1 m r idx sub start count data
      | _ =>
        let x := accessOf d1 m .clean b
        x.1.finish m r x.2

/-- A host slot serves the master's next request; with a visit between its read and write-back the access moves to the next
host slot. Requests behind it go on. -/
def hostSlot (d : Dev) (m : Master) (collision : Bool) (ecc : Ecc) : Dev :=
  match d.nextReq m with
  | none => d
  | some r =>
    if d.noRequests || d.heldBack (bodyIdx r.body) (bodySub r.body) (bodyWrites r.body) || collision then d
    else if !waitsSlot d m r then d.drain
    else (slotAccess d m r ecc).drain

def execHostSlotAccess (m : Master) (collision : Bool) (ecc : Ecc) (s : State) : Host.Outcome State Fault Refusal :=
  let d := hostSlot s.dev m collision ecc
  if d.undoc then .fault .rsvdChanged else done s d

/-- The copy ends (R85); the requests it held go on. -/
def execBankCopyEnd (s : State) : Host.Outcome State Fault Refusal :=
  let d := (bankCopied s.dev).drain
  if d.undoc then .fault .rsvdChanged else done s d

/-! ## Milber (R68 to R76, R354, R471) -/

/-- What HSPI_MISO carries in the words of a transaction, the header's first. -/
def Dev.miso (d : Dev) (l : List (BitVec 32)) : Dev := d.onOut (fun o => { o with spi := l })

/-- The outcome of a Milber transaction. -/
def spiDone (s : State) (d : Dev) : Host.Outcome State Fault Refusal :=
  if d.undoc then .fault .rsvdChanged else done s d

/-- A header word (Table DI-8). -/
def milberHeader (op idx sub tag : Nat) : Nat :=
  (headerWord (BitVec.ofNat 4 op) (BitVec.ofNat 16 idx) (BitVec.ofNat 8 sub) (BitVec.ofNat 4 tag)).toNat

/-- The bytes that a trailer covers (R70). -/
def frameBytes (l : List Nat) (data : List (BitVec 32)) : List Byte := l.flatMap (bytesBE 4) ++ wordBytes data

/-- HSPI_MISO over a request's frame of `n` words: zeros, and the outcome in the accept word, its last (R71). -/
def acceptWord (d : Dev) (n code : Nat) : Dev := d.miso (List.replicate (n - 1) 0 ++ [BitVec.ofNat 32 code])

/-- HSPI_MISO where a frame has no place for the accept word: after its `n` first words the code stands in each of the `later` ones
(R71). -/
def acceptAll (d : Dev) (n later code : Nat) : Dev :=
  d.miso (List.replicate n 0 ++ List.replicate later (BitVec.ofNat 32 code))

/-- A transaction that is discarded and counted (R76); what HSPI_MISO carried of it is not kept (log entry 99). -/
def frameError (d : Dev) : Dev := (d.count O.SPI_FRAME_ERRORS 1).miso []

/-- One queued request as its frame brings it: the words up to the length or count word, the words of data, whether the limits of R69
hold, whether the frame has the words that its opcode and length ask for, the bytes its trailer covers and the trailer. -/
structure Frame where
  head   : Nat
  body   : Nat
  limits : Bool
  words  : Bool
  sent   : List Byte
  crc    : BitVec 32

/-- The checks common to the four queued opcodes, in the order of R71: limits, trailer, queue, tag. -/
def milberQueue (d : Dev) (r : Req) (f : Frame) : Dev :=
  let n := f.head + f.body + 2
  if d.inBoot then acceptWord d n abRefused
  else if !f.limits then acceptAll d f.head (f.body + 2) abLength
  else if !f.words then frameError d
  else if f.crc.toNat != crc32c f.sent then acceptWord (d.count O.SPI_FRAME_ERRORS 1) n abCrc
  else if 16 ≤ d.spi.queue.length then acceptWord (d.overload .spi) n abQueue
  else if d.spi.queue.any (fun q => q.tag == r.tag) then acceptWord d n abSpecifier
  else (acceptWord ((d.queueReq .spi r).1) n 0).drain

def execMilberNop (s : State) : Host.Outcome State Fault Refusal := spiDone s (s.dev.miso [0])

def execMilberRead (index : BitVec 16) (sub : BitVec 8) (tag : Fin 16) (len crc : BitVec 32) (ecc : Ecc) (s : State) :
    Host.Outcome State Fault Refusal :=
  let n := len.toNat
  spiDone s (milberQueue s.dev { tag := tag.val, body := .read index.toNat sub.toNat n, ecc := ecc }
    { head := 2, body := 0, limits := within n 1 4096, words := true, crc := crc
      sent := frameBytes [milberHeader 1 index.toNat sub.toNat tag.val, n] [] })

def execMilberWrite (index : BitVec 16) (sub : BitVec 8) (tag : Fin 16) (len : BitVec 32) (data : List (BitVec 32))
    (crc : BitVec 32) (s : State) : Host.Outcome State Fault Refusal :=
  let n := len.toNat
  spiDone s (milberQueue s.dev
    { tag := tag.val, body := .write index.toNat sub.toNat (unwire (tyOf index.toNat sub.toNat) n (wordBytes data)) }
    { head := 2, body := data.length, limits := within n 1 4096, words := data.length == (n + 3) / 4, crc := crc
      sent := frameBytes [milberHeader 2 index.toNat sub.toNat tag.val, n] data })

/-- The records of a count fit in 4,096 bytes (R69). -/
def countOk (idx sub n : Nat) : Bool := within (4 * n * recordWords (tyOf idx sub)) 1 4096

def execMilberTableRead (index : BitVec 16) (sub : BitVec 8) (tag : Fin 16) (start count crc : BitVec 32) (s : State) :
    Host.Outcome State Fault Refusal :=
  let n := count.toNat
  spiDone s (milberQueue s.dev { tag := tag.val, body := .tableRead index.toNat sub.toNat start.toNat n }
    { head := 3, body := 0, limits := countOk index.toNat sub.toNat n, words := true, crc := crc
      sent := frameBytes [milberHeader 3 index.toNat sub.toNat tag.val, start.toNat, n] [] })

def execMilberTableWrite (index : BitVec 16) (sub : BitVec 8) (tag : Fin 16) (start count : BitVec 32)
    (data : List (BitVec 32)) (crc : BitVec 32) (s : State) : Host.Outcome State Fault Refusal :=
  let n := count.toNat
  spiDone s (milberQueue s.dev
    { tag := tag.val, body := .tableWrite index.toNat sub.toNat start.toNat n (wordBytes data) }
    { head := 3, body := data.length, limits := countOk index.toNat sub.toNat n
      words := data.length == n * recordWords (tyOf index.toNat sub.toNat), crc := crc
      sent := frameBytes [milberHeader 4 index.toNat sub.toNat tag.val, start.toNat, n] data })

/-- A response with its CRC (R70, R73). -/
def response (l : List Nat) (data : List Byte) : List (BitVec 32) :=
  let body := l.flatMap (bytesBE 4) ++ data
  bytesWords 1100 body ++ [BitVec.ofNat 32 (crc32c body)]

/-- The words of FETCH's response for a tag (R73); in Boot NO_REQUEST carries 0800 0022h (R354). -/
def fetchWords (d : Dev) (tag : Nat) : List (BitVec 32) :=
  match d.spi.queue.find? (fun r => r.tag == tag) with
  | none => response [milberHeader 10 0 0 tag, if d.inBoot then abRefused else 0, 0] []
  | some r =>
    let head := fun op => milberHeader op (bodyIdx r.body) (bodySub r.body) tag
    if r.done then response [head 8, r.abort, r.len] r.data else response [head 9, 0, 0] []

/-- A response fetched through its CRC word frees its entry and tag, and completes the read (R57, R72). -/
def fetched (d : Dev) (tag : Nat) (whole : Bool) : Dev :=
  let d1 := d.miso (0 :: fetchWords d tag)
  match d.spi.queue.find? (fun r => r.tag == tag) with
  | none => d1
  | some r =>
    if !r.done || !whole then d1
    else
      let d2 := d1.onSpi (fun s => { s with queue := s.queue.filter (fun q => q.tag != tag), abort := r.abort, data := r.data })
      if r.abort == 0 then d2.completed r.fin else d2

def execMilberFetch (tag : Fin 16) (whole : Bool) (s : State) : Host.Outcome State Fault Refusal :=
  spiDone s (fetched s.dev tag.val whole)

/-- The masks of R74. -/
def statusWord (q : List Req) : Nat :=
  q.foldl (fun n r => if r.tag < 16 then n ||| 2 ^ (r.tag + (if r.done then 16 else 0)) else n) 0

/-- HSPI_IRQ_N is low while a response is ready and outputs are not inert (R75). -/
def Dev.hspiIrqLow (d : Dev) : Bool := !d.inert && d.spi.queue.any (fun r => r.done)

def execMilberStatus (s : State) : Host.Outcome State Fault Refusal :=
  let d := s.dev
  spiDone s (d.miso (0 :: response [if d.inBoot then bootWord d else statusWord d.spi.queue] []))

/-- Opcodes 0x7 to 0xF: the code in the word after the header and in every later word (R71, R354). -/
def execMilberInvalidOpcode (_opcode : Fin 16) (words : Nat) (s : State) : Host.Outcome State Fault Refusal :=
  let d := s.dev
  spiDone s (d.miso (0 :: List.replicate words (BitVec.ofNat 32 (if d.inBoot then abRefused else abSpecifier))))

def execSpiFrameError (s : State) : Host.Outcome State Fault Refusal := spiDone s (frameError s.dev)

/-! ## SDO (R56, R66, R358) -/

/-- The abort that ends a transfer on the client's side; 0 where it goes well (Table DI-6). -/
def flawCode (r : SdoReq) : Nat :=
  let blocks := match r.kind with
    | .block n => n < 1 || 127 < n
    | _ => false
  if blocks then abBlockSize
  else match r.flaw with
    | .toggle => abToggle
    | .specifier => abSpecifier
    | .sequence => abSequence
    | .crc => abCrc
    | _ => 0

/-- Whether an expedited download says no size. -/
def unsized (r : SdoReq) : Bool := r.write && !r.sized && r.kind == .expedited

/-- The request that an SDO transfer makes; an upload whose client side goes wrong has no completion (R57). -/
def sdoReq (r : SdoReq) : Req :=
  let idx := r.index.toNat
  let sub := r.sub.toNat
  if !r.write then { tag := if flawCode r == 0 then tagNone else tagShort, body := .read idx sub 0, ecc := r.ecc }
  else if unsized r then { tag := tagNone, body := .unsized idx sub r.data }
  else { tag := tagNone, body := .write idx sub r.data }

/-- An SDO transfer (R66): it ends one that was in progress, and occupies an entry of the CAN queue from its initiate (R58). A download
whose client side goes wrong does not execute; an upload executes at its initiate. -/
def sdoRun (d : Dev) (r : SdoReq) : Dev :=
  let answer := fun (x : Dev) (code : Nat) => x.onCanM (fun s => { s with abort := code, data := [] })
  let code := flawCode r
  let d0 := d.onCan (fun c => { c with sdo := none })
  if !(d.canHears && d.canTalks) then d
  else if 16 ≤ d0.occupancy .can then answer (d0.overload .can) abQueue
  else
    let held := (d0.onCan (fun c => { c with sdo := some r })).queuePeak .can
    if r.flaw == .stall then held
    else
      let d1 := held.onCan (fun c => { c with sdo := none })
      if code == abBlockSize || (r.write && code != 0) then answer d1 code
      else
        let q := (d1.queueReq .can (sdoReq r)).1.drain
        if code != 0 then answer q code else q

def execSdoTransfer (r : SdoReq) (s : State) : Host.Outcome State Fault Refusal :=
  let d := sdoRun s.dev r
  if d.undoc then .fault .rsvdChanged else done s d

/-! ## Reads that a command names (R57, R163, R195, R253, R389, R434) -/

/-- A read of a DOMAIN by a master: at most the length word's bytes; its effect comes when the response is transferred whole. -/
def hostRead (s : State) (m : Master) (k : Key) (r : DomRead) : Host.Outcome State Fault Refusal :=
  let d := s.dev
  let idx := Key.idx k
  let sub := Key.sub k
  let q : Req := { tag := if r.complete then tagNone else tagShort, body := .read idx sub r.maxLen, ecc := r.ecc }
  if !d.inBoot && d.heldBack idx sub false then hostDone s m (d.queueReq m q)
  else
    let x := d.readObj m idx sub (some r.maxLen) r.ecc
    let d1 := x.1.when (x.2.abort == 0 && r.complete) (fun y => y.completed x.2.fin)
    hostTurn s m q (d1, x.2.abort) x.2.data

def execDccRxRead (m : Master) (p : Fin 64) (multiplex : Bool) (r : DomRead) (s : State) :
    Host.Outcome State Fault Refusal :=
  hostRead s m (keyAt (if multiplex then O.DCC_RX_M else O.DCC_RX_R) p.val) r

def execMapBlockRead (m : Master) (r : DomRead) (s : State) : Host.Outcome State Fault Refusal := hostRead s m O.MAP_BLOCK r

def execMapBlockActiveRead (m : Master) (r : DomRead) (s : State) : Host.Outcome State Fault Refusal :=
  hostRead s m O.MAP_BLOCK_ACTIVE r

def execPmBlockRead (m : Master) (r : DomRead) (s : State) : Host.Outcome State Fault Refusal := hostRead s m O.PM_BLOCK r

def execHistory (m : Master) (r : DomRead) (s : State) : Host.Outcome State Fault Refusal := hostRead s m O.HISTORY r

def execAttestReport (m : Master) (r : DomRead) (s : State) : Host.Outcome State Fault Refusal := hostRead s m O.ATTEST_REPORT r

/-! ## The empty queue -/

/-- The step of an idle block: one cycle of the management clock passes, and the masters' waiting requests go on (log entry
2). -/
def idle (s : State) : State := { s with dev := (s.dev.advance s.dev.cycleNs).drain }

/-- The idle step's outcome: a waiting write that changes a `rsvd` field stops the machine as any other does (R47; log entry
7). -/
def idleStep (s : State) : Host.Outcome State Fault Refusal :=
  if (idle s).dev.undoc then .fault .rsvdChanged else done s (idle s).dev

end Sys2Proof.Machine
end

