-- ==== Sys2Proof/Machine/Jtag.lean ====
section
/-!
DEFINITION. The TAP and the test input: boundary scan, the debug instructions, TEST_EN (R427, R428, R435, R447, R450 to
R452).
-/
namespace Sys2Proof.Machine

/-! ## Instructions (Table PK-7) -/

/-- The instruction register takes a code, and the scan brings out bytes. -/
def Dev.tapLoad (d : Dev) (code : Nat) (out : List Byte) : Dev :=
  (d.onJtag (fun j => { j with ir := code, out := out })).privateStatus

/-- Whether the test instructions take the pins: Boot, Inert or Bisque, and not Retired (R435). -/
def Dev.testTakesPins (d : Dev) : Bool := (d.inBoot || d.inInert || d.inBisque) && d.lifecycle != 3

/-- The codes of EXTEST, EXTEST_PULSE and EXTEST_TRAIN. -/
def isTestCode (ir : Nat) : Bool := ir == 0 || ir == 8 || ir == 9

/-- What a test drives on the pins that the boundary register covers; nothing where the instruction acts as BYPASS. -/
def Dev.testDrive (d : Dev) : Option (List Bool) :=
  if isTestCode d.jtag.ir && d.testTakesPins then some d.jtag.boundary else none

/-- HIGHZ holds the outputs inactive. -/
def Dev.highZ (d : Dev) : Bool := d.jtag.ir == 3 && d.testTakesPins

/-- LINE and TFI transmitters drive test data only while CLAIM_IN shows no claim (R452). -/
def Dev.lineTestDrives (d : Dev) : Bool := d.testDrive.isSome && !d.claimIn

/-- MATE transmitters are not restricted (R452). -/
def Dev.mateTestDrives (d : Dev) : Bool := d.testDrive.isSome

/-- Bits as bytes, the first bit lowest. -/
def packBits : Nat → List Bool → List Byte
  | 0, _ => []
  | n + 1, l =>
    if l.isEmpty then []
    else BitVec.ofNat 8 ((l.take 8).foldr (fun b v => 2 * v + ofBit b) 0) :: packBits n (l.drop 8)

/-- The 70 bytes that carry the 555 cells. -/
def boundaryBytes (l : List Bool) : List Byte := packBits 70 (l.take 555)

/-- A test instruction with one scan of the boundary register: the cells capture the pins and take the bits shifted in. Where
it acts as BYPASS the register stays. -/
def testScan (d : Dev) (code : Nat) (shift pins : List Bool) : Dev :=
  if d.testTakesPins then (d.tapLoad code (boundaryBytes pins)).onJtag (fun j => { j with boundary := shift })
  else d.tapLoad code []

def execExtest (shift pins : List Bool) (s : State) : Host.Outcome State Fault Refusal := done s (testScan s.dev 0 shift pins)

def execExtestPulse (shift pins : List Bool) (s : State) : Host.Outcome State Fault Refusal := done s (testScan s.dev 8 shift pins)

def execExtestTrain (shift pins : List Bool) (s : State) : Host.Outcome State Fault Refusal := done s (testScan s.dev 9 shift pins)

/-- IDCODE of a silicon revision (R450). -/
def idcodeOf (revision : Nat) : Nat := revision % 16 * 2 ^ 28 + 0x8640 * 2 ^ 12 + 0x2E5 * 2 + 1

def execIdcode (s : State) : Host.Outcome State Fault Refusal :=
  done s (s.dev.tapLoad 1 (bytesLE 4 (idcodeOf Config.revision.toNat)))

/-- SAMPLE/PRELOAD acts always except in Retired: the pins are sampled and the cells preloaded. -/
def samplePreload (d : Dev) (shift pins : List Bool) : Dev :=
  if d.lifecycle == 3 then d.tapLoad 2 []
  else (d.tapLoad 2 (boundaryBytes pins)).onJtag (fun j => { j with boundary := shift })

def execSamplePreload (shift pins : List Bool) (s : State) : Host.Outcome State Fault Refusal :=
  done s (samplePreload s.dev shift pins)

def execHighz (s : State) : Host.Outcome State Fault Refusal := done s (s.dev.tapLoad 3 [])

def execBypass (code : BitVec 8) (s : State) : Host.Outcome State Fault Refusal := done s (s.dev.tapLoad code.toNat [])

/-- Test-Logic-Reset loads IDCODE. -/
def execTapReset (s : State) : Host.Outcome State Fault Refusal := done s (s.dev.tapLoad 1 [])

/-! ## Debug instructions (R427, R428) -/

/-- A debug instruction is loaded; it acts where the debug level allows, and is BYPASS elsewhere (R435). -/
def privateRun (d : Dev) (code : Nat) (f : Dev → Dev) : Dev := (d.tapLoad code []).when (d.tapLoad code []).privateUse f

/-- 64 bits of trace, which the manual does not describe: a free value. -/
def traceRead (d : Dev) : Dev := (d.onJtag (fun j => { j with out := bytesLE 8 (Config.freeWord d.free).toNat })).fresh

def execDbgTrace (s : State) : Host.Outcome State Fault Refusal := done s (privateRun s.dev 0x40 traceRead)

/-- A device on which the reading master has made every selection the instance given. -/
def shadowOf (d : Dev) (inst : Nat) : Dev :=
  let put := fun (x : Dev) (id : Nat) => x.wr (keyOf id (masterNo .mgmt)) inst
  put (put (put (put d O.CONTEXT_SELECT) O.POOL_SELECT) O.MAP_BLOCK_SELECT) O.PM_BLOCK_SELECT

/-- The dictionary shadow: an object as a privileged master would read it, with no effect on a master. -/
def shadowRead (d : Dev) (idx sub inst : Nat) : Dev :=
  let x := readAt (shadowOf d inst) .mgmt idx sub inst none
  { (d.onJtag (fun j => { j with out := x.2.data })) with reads := x.1.reads }

def execDbgDict (index : BitVec 16) (sub : BitVec 8) (inst : BitVec 32) (s : State) : Host.Outcome State Fault Refusal :=
  done s (privateRun s.dev 0x41 (fun d => shadowRead d index.toNat sub.toNat inst.toNat))

/-- Halt, step and resume: a halted controller lets requests wait, a step leaves it halted, and a resumed one goes on with
them. -/
def debugControl (op : Nat) (d : Dev) : Dev :=
  if op == 0 then d.putFlag O.SEC_STATUS 3 true
  else if op == 2 then (d.putFlag O.SEC_STATUS 3 false).drain
  else d

def execDbgCtrl (op : Fin 3) (s : State) : Host.Outcome State Fault Refusal :=
  let d := privateRun s.dev 0x42 (debugControl op.val)
  if d.undoc then .fault .rsvdChanged else done s d

/-! ## Memory under Full debug (R428; Tables AR-5, PV-1) -/

/-- A byte of a field of `n` bytes, the most significant first. -/
def fieldByte (n i : Nat) (v : Word) : Byte := BitVec.ofNat 8 (v.toNat / 256 ^ (n - 1 - i))

/-- A field with a byte replaced. -/
def fieldSet (n i : Nat) (v : Word) (b : Byte) : Word := BitVec.ofNat 64 (putBits v.toNat (8 * (n - 1 - i)) 8 b.toNat)

/-- A byte of a generation header; none in its reserved bytes. -/
def headerByte (b : Bank) (i : Nat) : Option Byte :=
  if i < 4 then some (fieldByte 4 i b.genNumber)
  else if i < 8 then some (fieldByte 4 (i - 4) b.genCrc)
  else if i == 8 then some (fieldByte 1 0 b.genOp)
  else if i == 9 then some (fieldByte 1 0 b.genPaired)
  else if i < 16 then none
  else if i < 24 then some (fieldByte 8 (i - 16) b.acceptTime)
  else if i < 32 then some (fieldByte 8 (i - 24) b.switchAt)
  else if i < 40 then some (fieldByte 8 (i - 32) b.switchTime)
  else if i < 44 then some (fieldByte 4 (i - 40) b.baseNumber)
  else none

/-- A generation header with a byte replaced. -/
def headerSet (b : Bank) (i : Nat) (v : Byte) : Bank :=
  if i < 4 then { b with genNumber := fieldSet 4 i b.genNumber v }
  else if i < 8 then { b with genCrc := fieldSet 4 (i - 4) b.genCrc v }
  else if i == 8 then { b with genOp := fieldSet 1 0 b.genOp v }
  else if i == 9 then { b with genPaired := fieldSet 1 0 b.genPaired v }
  else if i < 16 then b
  else if i < 24 then { b with acceptTime := fieldSet 8 (i - 16) b.acceptTime v }
  else if i < 32 then { b with switchAt := fieldSet 8 (i - 24) b.switchAt v }
  else if i < 40 then { b with switchTime := fieldSet 8 (i - 32) b.switchTime v }
  else if i < 44 then { b with baseNumber := fieldSet 4 (i - 40) b.baseNumber v }
  else b

/-- The bank and the offset of an address inside a generation header. -/
def headerPlace (a : Nat) : Option (Bool × Nat) :=
  if a < 64 then some (false, a)
  else if bankBase true ≤ a && a < bankBase true + 64 then some (true, a - bankBase true)
  else none

/-- A bank replaced. -/
def Dev.setBank (d : Dev) (b : Bool) (x : Bank) : Dev := if b then { d with bankB := x } else { d with bankA := x }

/-- What an unlisted cell reads as, where the manual says it: the reserved bytes of a header read 0. -/
def unlistedByte (a : Nat) : Option Byte := if (headerPlace a).isSome then some 0 else none

/-- A cell put in its place; one that an unlisted address reads as is not listed. -/
def cellPut (m : List Host.Cell) (a : Nat) (v : Byte) : List Host.Cell :=
  let rest := dropCells m a 1
  if unlistedByte a == some v then rest else rest.filter (fun c => c.1 < a) ++ (a, v) :: rest.filter (fun c => a < c.1)

/-- A listed cell. -/
def cellGet (m : List Host.Cell) (a : Nat) : Option Byte := (m.find? (fun c => c.1 == a)).map (fun c => c.2)

/-- The bank and the offset of an address inside a bank's body. -/
def bodyPlace (a : Nat) : Option (Bool × Nat) :=
  let within := fun (b : Bool) => bankBase b + 64 ≤ a && a < bankBase b + 0x200000
  if within false then some (false, a) else if within true then some (true, a - bankBase true) else none

/-- A byte of memory as the debugger reads it: a header field, a byte it left, a byte of a bank's body as its contents give it, or a
byte whose placement the manual does not publish, a free value (log entry 8). The result says whether a free value was used. -/
def memoryByte (d : Dev) (a : Nat) : Byte × Bool :=
  let field := match headerPlace a with
    | some (b, i) => headerByte (d.bank b) i
    | none => none
  match field, cellGet d.mem a, (unlistedByte a).or ((bodyPlace a).map (fun p => bodyByte (d.bank p.1) p.2)) with
  | some v, _, _ => (v, false)
  | none, some v, _ => (v, false)
  | none, none, some v => (v, false)
  | none, none, none => (Config.sramByte d.reads, true)

/-- A read of memory. -/
def memoryRead (a : Nat) (d : Dev) : Dev :=
  let x := memoryByte d a
  (d.onJtag (fun j => { j with out := [x.1] })).when x.2 (fun y => { y with reads := y.reads + 1 })

/-- A write of memory: it bypasses admission, and no GEN_CRC follows it (R428). An address in no region of Table AR-5 that
has a scan start takes nothing. -/
def memoryWrite (a : Nat) (v : Byte) (d : Dev) : Dev :=
  let field := match headerPlace a with
    | some (b, i) => if (headerByte (d.bank b) i).isSome then some (b, i) else none
    | none => none
  match field with
  | some (b, i) => d.setBank b (headerSet (d.bank b) i v)
  | none => if (scanRegion a 1).isSome then { d with mem := cellPut d.mem a v } else d

def execDbgMem (addr : BitVec 32) (write : Option Byte) (s : State) : Host.Outcome State Fault Refusal :=
  done s (privateRun s.dev 0x43 (match write with
    | some v => memoryWrite addr.toNat v
    | none => memoryRead addr.toNat))

/-! ## TEST_EN (R447) -/

/-- The level of TEST_EN shows in STRAPS; what it gives in Bisque follows from it there. -/
def execTestEnChange (level : Bool) (s : State) : Host.Outcome State Fault Refusal :=
  done s (s.dev.putFlag O.STRAPS 11 level)

end Sys2Proof.Machine
end

