-- ==== Sys2Proof/Machine/Dispatch.lean ====
section
/-!
DEFINITION. The dispatch of commands: each constructor of Instr to its meaning.
-/
namespace Sys2Proof.Machine

/-- The effect of a command on everything but the queue of waiting commands. -/
def exec (i : Instr) (s : State) : Host.Outcome State Fault Refusal :=
  match i with
  | .frameBoundary => Sys2Proof.Machine.execFrameBoundary s
  | .sdoTransfer r => Sys2Proof.Machine.execSdoTransfer r s
  | .sdoTimeout => Sys2Proof.Machine.execSdoTimeout s
  | .milberNop => Sys2Proof.Machine.execMilberNop s
  | .milberRead index sub tag len crc ecc => Sys2Proof.Machine.execMilberRead index sub tag len crc ecc s
  | .milberWrite index sub tag len data crc => Sys2Proof.Machine.execMilberWrite index sub tag len data crc s
  | .milberTableRead index sub tag start count crc => Sys2Proof.Machine.execMilberTableRead index sub tag start count crc s
  | .milberTableWrite index sub tag start count data crc => Sys2Proof.Machine.execMilberTableWrite index sub tag start count data crc s
  | .milberFetch tag whole => Sys2Proof.Machine.execMilberFetch tag whole s
  | .milberStatus => Sys2Proof.Machine.execMilberStatus s
  | .milberInvalidOpcode opcode words => Sys2Proof.Machine.execMilberInvalidOpcode opcode words s
  | .spiFrameError => Sys2Proof.Machine.execSpiFrameError s
  | .guardArmingWrite m index sub data => Sys2Proof.Machine.execGuardArmingWrite m index sub data s
  | .guardWindowExpiry m => Sys2Proof.Machine.execGuardWindowExpiry m s
  | .registerWrite m index sub data coincident => Sys2Proof.Machine.execRegisterWrite m index sub data coincident s
  | .contextSelect m a => Sys2Proof.Machine.execContextSelect m a s
  | .selectStep m v => Sys2Proof.Machine.execSelectStep m v s
  | .hostSlotAccess m collision ecc => Sys2Proof.Machine.execHostSlotAccess m collision ecc s
  | .canBitrateDetected code => Sys2Proof.Machine.execCanBitrateDetected code s
  | .nmtStartRemoteNode => Sys2Proof.Machine.execNmtStartRemoteNode s
  | .nmtStopRemoteNode => Sys2Proof.Machine.execNmtStopRemoteNode s
  | .nmtEnterPreOperational => Sys2Proof.Machine.execNmtEnterPreOperational s
  | .nmtResetNode => Sys2Proof.Machine.execNmtResetNode s
  | .nmtResetCommunication => Sys2Proof.Machine.execNmtResetCommunication s
  | .producerHeartbeat => Sys2Proof.Machine.execProducerHeartbeat s
  | .tpdoInhibitExpiry n => Sys2Proof.Machine.execTpdoInhibitExpiry n s
  | .tpdoEventTimer n => Sys2Proof.Machine.execTpdoEventTimer n s
  | .emcyInhibitExpiry => Sys2Proof.Machine.execEmcyInhibitExpiry s
  | .syncReceived => Sys2Proof.Machine.execSyncReceived s
  | .pmSnapshot => Sys2Proof.Machine.execPmSnapshot s
  | .pathType m v => Sys2Proof.Machine.execPathType m v s
  | .portType m p v => Sys2Proof.Machine.execPortType m p v s
  | .commit m v => Sys2Proof.Machine.execCommit m v s
  | .admissionEnd mate => Sys2Proof.Machine.execAdmissionEnd mate s
  | .pendingReset m v => Sys2Proof.Machine.execPendingReset m v s
  | .bankCopyEnd => Sys2Proof.Machine.execBankCopyEnd s
  | .cancelSwitch m v => Sys2Proof.Machine.execCancelSwitch m v s
  | .switchIn => Sys2Proof.Machine.execSwitchIn s
  | .commitBank msg => Sys2Proof.Machine.execCommitBank msg s
  | .mapBlockSelect m v => Sys2Proof.Machine.execMapBlockSelect m v s
  | .mapBlockRead m r => Sys2Proof.Machine.execMapBlockRead m r s
  | .mapBlockActiveRead m r => Sys2Proof.Machine.execMapBlockActiveRead m r s
  | .mapBlockWrite m data => Sys2Proof.Machine.execMapBlockWrite m data s
  | .cdrLock l => Sys2Proof.Machine.execCdrLock l s
  | .cdrUnlock l => Sys2Proof.Machine.execCdrUnlock l s
  | .losDeclare l amplitude transitions => Sys2Proof.Machine.execLosDeclare l amplitude transitions s
  | .losClear l amplitude transitions => Sys2Proof.Machine.execLosClear l amplitude transitions s
  | .cdrMaskEnd l => Sys2Proof.Machine.execCdrMaskEnd l s
  | .quadPllLock q => Sys2Proof.Machine.execQuadPllLock q s
  | .quadPllLockLoss q => Sys2Proof.Machine.execQuadPllLockLoss q s
  | .freqGateEnd l count valid => Sys2Proof.Machine.execFreqGateEnd l count valid s
  | .rxAdaptation l values hostWrite => Sys2Proof.Machine.execRxAdaptation l values hostWrite s
  | .txSquelch m p v => Sys2Proof.Machine.execTxSquelch m p v s
  | .prbsCtrl m l v => Sys2Proof.Machine.execPrbsCtrl m l v s
  | .lolDeclare q => Sys2Proof.Machine.execLolDeclare q s
  | .lolClear q => Sys2Proof.Machine.execLolClear q s
  | .framingPattern z advance bits => Sys2Proof.Machine.execFramingPattern z advance bits s
  | .searchWindowEnd z => Sys2Proof.Machine.execSearchWindowEnd z s
  | .oofDeclare z => Sys2Proof.Machine.execOofDeclare z s
  | .lofDeclare z => Sys2Proof.Machine.execLofDeclare z s
  | .lofClear z => Sys2Proof.Machine.execLofClear z s
  | .inMultiframe p => Sys2Proof.Machine.execInMultiframe p s
  | .oomDeclare p => Sys2Proof.Machine.execOomDeclare p s
  | .lomDeclare p => Sys2Proof.Machine.execLomDeclare p s
  | .lomClear p => Sys2Proof.Machine.execLomClear p s
  | .lineReceiveFrame p signal => Sys2Proof.Machine.execLineReceiveFrame p signal s
  | .lineTransmitFrame p client payload => Sys2Proof.Machine.execLineTransmitFrame p client payload s
  | .sectionVisit p => Sys2Proof.Machine.execSectionVisit p s
  | .dccRxRead m p multiplex r => Sys2Proof.Machine.execDccRxRead m p multiplex r s
  | .dccTxWrite m p multiplex data => Sys2Proof.Machine.execDccTxWrite m p multiplex data s
  | .oneB1 m p => Sys2Proof.Machine.execOneB1 m p s
  | .oneB2 m p => Sys2Proof.Machine.execOneB2 m p s
  | .oneSmBip m p => Sys2Proof.Machine.execOneSmBip m p s
  | .onePmBip m p => Sys2Proof.Machine.execOnePmBip m p s
  | .pairedWrite index sub a data boundary => Sys2Proof.Machine.execPairedWrite index sub a data boundary s
  | .pointerWord a => Sys2Proof.Machine.execPointerWord a s
  | .pohVisit a => Sys2Proof.Machine.execPohVisit a s
  | .traceCapture m v => Sys2Proof.Machine.execTraceCapture m v s
  | .markerTick a => Sys2Proof.Machine.execMarkerTick a s
  | .markerLost a => Sys2Proof.Machine.execMarkerLost a s
  | .oneBip m => Sys2Proof.Machine.execOneBip m s
  | .defectVisit a => Sys2Proof.Machine.execDefectVisit a s
  | .berBlockEnd a sf => Sys2Proof.Machine.execBerBlockEnd a sf s
  | .defectCountUpdate => Sys2Proof.Machine.execDefectCountUpdate s
  | .ppsEdge falling interval sinceTick => Sys2Proof.Machine.execPpsEdge falling interval sinceTick s
  | .flywheelTick => Sys2Proof.Machine.execFlywheelTick s
  | .ppsLoss => Sys2Proof.Machine.execPpsLoss s
  | .tickEffect => Sys2Proof.Machine.execTickEffect s
  | .closeOutVisit t ecc bin => Sys2Proof.Machine.execCloseOutVisit t ecc bin s
  | .managementRollover => Sys2Proof.Machine.execManagementRollover s
  | .pmSecond m v coincident => Sys2Proof.Machine.execPmSecond m v coincident s
  | .pmClear15Min m => Sys2Proof.Machine.execPmClear15Min m s
  | .pmClear24Hour m => Sys2Proof.Machine.execPmClear24Hour m s
  | .pmClearBoth m => Sys2Proof.Machine.execPmClearBoth m s
  | .pmBlockRead m r => Sys2Proof.Machine.execPmBlockRead m r s
  | .cpmClear m c v => Sys2Proof.Machine.execCpmClear m c v s
  | .selectorVisit a => Sys2Proof.Machine.execSelectorVisit a s
  | .holdOffExpiry t k => Sys2Proof.Machine.execHoldOffExpiry t k s
  | .wtrExpiry t => Sys2Proof.Machine.execWtrExpiry t s
  | .exerciseEnd p => Sys2Proof.Machine.execExerciseEnd p s
  | .fopDeclare p f => Sys2Proof.Machine.execFopDeclare p f s
  | .apsFailureClear p f => Sys2Proof.Machine.execApsFailureClear p f s
  | .clear m t => Sys2Proof.Machine.execClear m t s
  | .lockoutOfProtection m t => Sys2Proof.Machine.execLockoutOfProtection m t s
  | .forcedSwitchToProtection m t => Sys2Proof.Machine.execForcedSwitchToProtection m t s
  | .forcedSwitchToWorking m t => Sys2Proof.Machine.execForcedSwitchToWorking m t s
  | .manualSwitchToProtection m t => Sys2Proof.Machine.execManualSwitchToProtection m t s
  | .manualSwitchToWorking m t => Sys2Proof.Machine.execManualSwitchToWorking m t s
  | .exercise m t => Sys2Proof.Machine.execExercise m t s
  | .clientDefectDeclare c f => Sys2Proof.Machine.execClientDefectDeclare c f s
  | .clientDefectClear c f => Sys2Proof.Machine.execClientDefectClear c f s
  | .lomfTimeout c => Sys2Proof.Machine.execLomfTimeout c s
  | .ingressSlip c => Sys2Proof.Machine.execIngressSlip c s
  | .bufferStarved c => Sys2Proof.Machine.execBufferStarved c s
  | .bufferOverflow c => Sys2Proof.Machine.execBufferOverflow c s
  | .starvationEnd c => Sys2Proof.Machine.execStarvationEnd c s
  | .farReport m c data => Sys2Proof.Machine.execFarReport m c data s
  | .tfiBlockLock l => Sys2Proof.Machine.execTfiBlockLock l s
  | .tfiBlockLockLoss l => Sys2Proof.Machine.execTfiBlockLockLoss l s
  | .tfiCellReceived l bytes syncOk => Sys2Proof.Machine.execTfiCellReceived l bytes syncOk s
  | .tfiCellSend l => Sys2Proof.Machine.execTfiCellSend l s
  | .cellGenerate a => Sys2Proof.Machine.execCellGenerate a s
  | .creditStall l => Sys2Proof.Machine.execCreditStall l s
  | .playoutUnderrun a => Sys2Proof.Machine.execPlayoutUnderrun a s
  | .heartbeat h => Sys2Proof.Machine.execHeartbeat h s
  | .heartbeatSend => Sys2Proof.Machine.execHeartbeatSend s
  | .heartbeatLoss => Sys2Proof.Machine.execHeartbeatLoss s
  | .frameMark f => Sys2Proof.Machine.execFrameMark f s
  | .signatures frame values => Sys2Proof.Machine.execSignatures frame values s
  | .copy p => Sys2Proof.Machine.execCopy p s
  | .endRecord p crcOk => Sys2Proof.Machine.execEndRecord p crcOk s
  | .selfCheck mate => Sys2Proof.Machine.execSelfCheck mate s
  | .selfCheckEnd own => Sys2Proof.Machine.execSelfCheckEnd own s
  | .selfCheckTimeout => Sys2Proof.Machine.execSelfCheckTimeout s
  | .release cause => Sys2Proof.Machine.execRelease cause s
  | .revertRequest boundary cause => Sys2Proof.Machine.execRevertRequest boundary cause s
  | .revertGrant boundary => Sys2Proof.Machine.execRevertGrant boundary s
  | .revertWtrExpiry => Sys2Proof.Machine.execRevertWtrExpiry s
  | .grantTimeout => Sys2Proof.Machine.execGrantTimeout s
  | .handover => Sys2Proof.Machine.execHandover s
  | .claimInDetect => Sys2Proof.Machine.execClaimInDetect s
  | .claimInLoss => Sys2Proof.Machine.execClaimInLoss s
  | .claimGrant => Sys2Proof.Machine.execClaimGrant s
  | .interlockFault => Sys2Proof.Machine.execInterlockFault s
  | .phaseLock f => Sys2Proof.Machine.execPhaseLock f s
  | .phaseLockLoss => Sys2Proof.Machine.execPhaseLockLoss s
  | .joinStart => Sys2Proof.Machine.execJoinStart s
  | .forceHandover m => Sys2Proof.Machine.execForceHandover m s
  | .pairCtrl m v => Sys2Proof.Machine.execPairCtrl m v s
  | .verifyWindowEnd => Sys2Proof.Machine.execVerifyWindowEnd s
  | .modeRequestInert m => Sys2Proof.Machine.execModeRequestInert m s
  | .modeRequestService m => Sys2Proof.Machine.execModeRequestService m s
  | .modeRequestShadow m => Sys2Proof.Machine.execModeRequestShadow m s
  | .modeRequestQuiesce m => Sys2Proof.Machine.execModeRequestQuiesce m s
  | .modeGuardedInert m => Sys2Proof.Machine.execModeGuardedInert m s
  | .modeGuardedShadow m => Sys2Proof.Machine.execModeGuardedShadow m s
  | .modeGuardedQuiesce m => Sys2Proof.Machine.execModeGuardedQuiesce m s
  | .modeGuardedBisque m => Sys2Proof.Machine.execModeGuardedBisque m s
  | .modeChange => Sys2Proof.Machine.execModeChange s
  | .wakeCtrl m v => Sys2Proof.Machine.execWakeCtrl m v s
  | .powerOn straps => Sys2Proof.Machine.execPowerOn straps s
  | .resetN lowNs straps => Sys2Proof.Machine.execResetN lowNs straps s
  | .watchdogExpiry straps => Sys2Proof.Machine.execWatchdogExpiry straps s
  | .unitReset m straps => Sys2Proof.Machine.execUnitReset m straps s
  | .sramClearEnd => Sys2Proof.Machine.execSramClearEnd s
  | .bootSlotVerify c => Sys2Proof.Machine.execBootSlotVerify c s
  | .bootEnd bootMs => Sys2Proof.Machine.execBootEnd bootMs s
  | .sourceQualified src => Sys2Proof.Machine.execSourceQualified src s
  | .monitorTrip src stopped => Sys2Proof.Machine.execMonitorTrip src stopped s
  | .supplyLow r => Sys2Proof.Machine.execSupplyLow r s
  | .clampRelease => Sys2Proof.Machine.execClampRelease s
  | .referenceReturn src => Sys2Proof.Machine.execReferenceReturn src s
  | .mgmtPllReturn => Sys2Proof.Machine.execMgmtPllReturn s
  | .voltageSettled mv => Sys2Proof.Machine.execVoltageSettled mv s
  | .divisorChange => Sys2Proof.Machine.execDivisorChange s
  | .voltageLowered mv => Sys2Proof.Machine.execVoltageLowered mv s
  | .avsFault => Sys2Proof.Machine.execAvsFault s
  | .opOverride m v => Sys2Proof.Machine.execOpOverride m v s
  | .opRetry m v => Sys2Proof.Machine.execOpRetry m v s
  | .blockClockEnable m v => Sys2Proof.Machine.execBlockClockEnable m v s
  | .blockResume => Sys2Proof.Machine.execBlockResume s
  | .timeStep m v => Sys2Proof.Machine.execTimeStep m v s
  | .refOffsetGateEnd src count valid => Sys2Proof.Machine.execRefOffsetGateEnd src count valid s
  | .auxRelock n => Sys2Proof.Machine.execAuxRelock n s
  | .eventRecord e => Sys2Proof.Machine.execEventRecord e s
  | .pulseEnd injected => Sys2Proof.Machine.execPulseEnd injected s
  | .ackSeq m src => Sys2Proof.Machine.execAckSeq m src s
  | .history m r => Sys2Proof.Machine.execHistory m r s
  | .injectFire m v => Sys2Proof.Machine.execInjectFire m v s
  | .faultNCtrl m v coincident => Sys2Proof.Machine.execFaultNCtrl m v coincident s
  | .severeSetting m k f v => Sys2Proof.Machine.execSevereSetting m k f v s
  | .reaction m k v => Sys2Proof.Machine.execReaction m k v s
  | .go m => Sys2Proof.Machine.execGo m s
  | .abort m => Sys2Proof.Machine.execAbort m s
  | .scanComplete touched ecc => Sys2Proof.Machine.execScanComplete touched ecc s
  | .running m n v => Sys2Proof.Machine.execRunning m n v s
  | .integrityCheckStart => Sys2Proof.Machine.execIntegrityCheckStart s
  | .integrityCheckEnd attempts corrected => Sys2Proof.Machine.execIntegrityCheckEnd attempts corrected s
  | .lifecycleRequest m v => Sys2Proof.Machine.execLifecycleRequest m v s
  | .zeroise m v => Sys2Proof.Machine.execZeroise m v s
  | .fuseBurnEnd => Sys2Proof.Machine.execFuseBurnEnd s
  | .rollbackAdvance m v => Sys2Proof.Machine.execRollbackAdvance m v s
  | .tokenApplyDebugUnlock m => Sys2Proof.Machine.execTokenApplyDebugUnlock m s
  | .tokenApplyReturned m => Sys2Proof.Machine.execTokenApplyReturned m s
  | .tokenApplyOwnerKey m => Sys2Proof.Machine.execTokenApplyOwnerKey m s
  | .secPolicy m v => Sys2Proof.Machine.execSecPolicy m v s
  | .nonceNew m v => Sys2Proof.Machine.execNonceNew m v s
  | .nonceExpiry m => Sys2Proof.Machine.execNonceExpiry m s
  | .token m data => Sys2Proof.Machine.execToken m data s
  | .tokenVerified m => Sys2Proof.Machine.execTokenVerified m s
  | .debugClose m v => Sys2Proof.Machine.execDebugClose m v s
  | .debugLifetimeEnd => Sys2Proof.Machine.execDebugLifetimeEnd s
  | .sessionChallengeNew m v => Sys2Proof.Machine.execSessionChallengeNew m v s
  | .challengeExpiry => Sys2Proof.Machine.execChallengeExpiry s
  | .sessionResponse m data => Sys2Proof.Machine.execSessionResponse m data s
  | .sessionResponseChecked => Sys2Proof.Machine.execSessionResponseChecked s
  | .sessionExpiry => Sys2Proof.Machine.execSessionExpiry s
  | .sessionEnd m v => Sys2Proof.Machine.execSessionEnd m v s
  | .challengeLockoutEnd => Sys2Proof.Machine.execChallengeLockoutEnd s
  | .attestNonce m data => Sys2Proof.Machine.execAttestNonce m data s
  | .attestReport m r => Sys2Proof.Machine.execAttestReport m r s
  | .extest shift pins => Sys2Proof.Machine.execExtest shift pins s
  | .idcode => Sys2Proof.Machine.execIdcode s
  | .samplePreload shift pins => Sys2Proof.Machine.execSamplePreload shift pins s
  | .highz => Sys2Proof.Machine.execHighz s
  | .extestPulse shift pins => Sys2Proof.Machine.execExtestPulse shift pins s
  | .extestTrain shift pins => Sys2Proof.Machine.execExtestTrain shift pins s
  | .dbgTrace => Sys2Proof.Machine.execDbgTrace s
  | .dbgDict index sub inst => Sys2Proof.Machine.execDbgDict index sub inst s
  | .dbgCtrl op => Sys2Proof.Machine.execDbgCtrl op s
  | .dbgMem addr write => Sys2Proof.Machine.execDbgMem addr write s
  | .bypass code => Sys2Proof.Machine.execBypass code s
  | .tapReset => Sys2Proof.Machine.execTapReset s
  | .supplyRestored r => Sys2Proof.Machine.execSupplyRestored r s
  | .clientReceiveFrame c errored data => Sys2Proof.Machine.execClientReceiveFrame c errored data s
  | .clientVisit c => Sys2Proof.Machine.execClientVisit c s
  | .testEnChange level => Sys2Proof.Machine.execTestEnChange level s

end Sys2Proof.Machine
end

