-- ==== Sys2Proof/Safety.lean ====
section
/-!
DEFINITION. What counts as a safe run, and the terms that statements use: the outcome of an event and of a host access, a master
that may complete a guarded write, the canonical form of the cells a debugger leaves in memory.
-/
namespace Sys2Proof.Machine

/-! ## Outcomes -/

/-- The outcome is a next state. -/
def completes (o : Host.Outcome State Fault Refusal) : Prop := ∃ t, o = .next t

/-- A command that is no host access leaves the device `d`, after what `d` owes the CAN layer (R67). -/
def leaves (c : Instr) (s : State) (d : Dev) : Prop := exec c s = .next { s with dev := tpdoSweep s.dev d }

/-- A command that is no host access leaves a device with a property, after what the device owes the CAN layer. -/
def gives (c : Instr) (s : State) (P : Dev → Prop) : Prop := ∃ d, leaves c s d ∧ P d

/-- What the dictionary keeps of a master's last access. -/
def answered (d : Dev) (m : Master) (code : Nat) (data : List Byte) : Dev :=
  d.onMaster m (fun x => { x with abort := code, data := data })

/-- A host access by a master completes without abort and leaves the device `d`. -/
def accepts (c : Instr) (s : State) (m : Master) (d : Dev) : Prop := leaves c s (answered d m 0 [])

/-- A host access by a master aborts with a code and leaves the device `d`. -/
def abortsWith (c : Instr) (s : State) (m : Master) (code : Nat) (d : Dev) : Prop := leaves c s (answered d m code [])

/-! ## Masters -/

/-- The dictionary is within reach (R354) and no write has changed a `rsvd` field (R47). -/
def outOfBoot (s : State) : Prop := s.dev.inBoot = false ∧ s.dev.undoc = false

/-- An access that the master makes now is its next to execute: the dictionary is within reach, and none of its requests waits (R49, R58;
log entry 33). -/
def reachable (s : State) (m : Master) : Prop := outOfBoot s ∧ s.dev.turnOf m = true

/-- The device after a master's write has broken its own arm, if it held one (Table DI-5, cause 4). -/
def disarmed (s : State) (m : Master) : Dev := s.dev.dropArm m 4

/-- A master that is privileged and armed for a value of a guarded object (R52). -/
def armedFor (s : State) (m : Master) (idx n v : Nat) : Prop :=
  reachable s m ∧ s.dev.privilege m ≠ 0 ∧ (s.dev.master m).arm = some { idx := idx, sub := n, value := v }

/-- The device once a matching completing write has taken the arm (R52). -/
def taken (s : State) (m : Master) : Dev := s.dev.onMaster m (fun x => { x with arm := none })

/-! ## Invariants -/

/-- A device in which no write has changed a `rsvd` field (R47). -/
def documented (d : Dev) : Prop := d.undoc = false

/-- Addresses strictly rising. -/
def cellsRising : List Host.Cell → Bool
  | [] => true
  | [_] => true
  | a :: b :: r => decide (a.1 < b.1) && cellsRising (b :: r)

/-- The canonical form of memory: addresses strictly rising, and no cell equal to what its address reads as unlisted. -/
def Memory.wf (m : List Host.Cell) : Bool := cellsRising m && m.all (fun c => unlistedByte c.1 != some c.2)

/-- A master's queue holds at most 16 requests (R49). -/
def queuesBounded (d : Dev) : Prop :=
  d.spi.queue.length ≤ 16 ∧ d.canM.queue.length ≤ 16 ∧ d.mgmt.queue.length ≤ 16

end Sys2Proof.Machine
end

