-- ==== Sys2Proof/Certificates/Slice0/Obligations.lean ====
section
/-!
DEFINITION. The statements: what the commands and the machine do, by the rules of spec/.
-/
open Sys2Proof Sys2Proof.Machine

/-! ## The queue and the step -/

/-- A waiting command runs: the step of a state with `c` at the front is `exec c` with the queue's rest. -/
def Obligations.StepRunsFront : Prop :=
  ∀ (c : Instr) (rest : List Instr) (s : State), s.pending = c :: rest → step s = exec c { s with pending := rest }

/-- With no command waiting the block idles (the model's choice, log entry 2): one cycle of the management clock passes and the
masters' waiting requests go on, with the TPDOs that their effects owe (R67); nothing joins the queue. -/
def Obligations.IdleStep : Prop :=
  ∀ (s : State), s.pending = [] →
    let d := (s.dev.advance s.dev.cycleNs).drain
    (d.undoc = false → step s = .next { pending := [], dev := tpdoSweep s.dev d }) ∧
    (d.undoc = true → step s = .fault .rsvdChanged)

/-- After a power-on reset the device is in Boot with outputs inert, its queue and all masters' queues empty, both banks without
contents, debug closed, and every object at its table's default but MODE_STATUS and SEC_STATUS (log entries 1 and 3 name what the
manual leaves open). -/
def Obligations.ResetState : Prop :=
  State.reset.pending = [] ∧ State.reset.dev.inBoot = true ∧ State.reset.dev.inert = true ∧ State.reset.dev.debug = 0
  ∧ State.reset.dev.bankA = {} ∧ State.reset.dev.bankB = {} ∧ State.reset.dev.spi.queue = [] ∧ State.reset.dev.canM.queue = []
  ∧ State.reset.dev.mgmt.queue = [] ∧ State.reset.dev.time = 0
  ∧ ∀ k : Key, k ≠ O.MODE_STATUS → k ≠ O.SEC_STATUS → State.reset.dev.rd k = dfltOf k % 2 ^ 64

/-- What surrounds every command's effect: no command touches the queue of waiting commands, and what a step owes the CAN layer touches the
CAN layer and its output alone (R67). -/
def Obligations.OutsideTheEffect : Prop :=
  (∀ (c : Instr) (s t : State), exec c s = .next t → t.pending = s.pending) ∧
  ∀ a b : Dev, { tpdoSweep a b with can := b.can, out := { (tpdoSweep a b).out with can := b.out.can } } = b

/-! ## Invariants of every step -/

/-- Every step keeps memory in its canonical form. -/
def Obligations.MemoryStaysCanonical : Prop :=
  ∀ s t : State, Memory.wf s.dev.mem = true → step s = .next t → Memory.wf t.dev.mem = true

/-- Only a debugger's write leaves a cell in a region whose placement the manual does not publish (Table AR-5): every other command that
goes on adds no cell from address 600000h up and changes none there. -/
def Obligations.MemoryOnlyByDebugger : Prop :=
  ∀ (c : Instr) (s t : State), (∀ (a : BitVec 32) (w : Option Byte), c ≠ .dbgMem a w) → exec c s = .next t →
    ∀ x ∈ t.dev.mem, 0x600000 ≤ x.1 → x ∈ s.dev.mem

/-- No step goes on with a changed `rsvd` field: from a documented device every next state is documented. -/
def Obligations.StepsStayDocumented : Prop :=
  ∀ s t : State, documented s.dev → step s = .next t → documented t.dev

/-- After reset memory is in its canonical form, the queues are bounded and the device is documented: the three invariants hold there. -/
def Obligations.InvariantsAtReset : Prop :=
  Memory.wf State.reset.dev.mem = true ∧ queuesBounded State.reset.dev ∧ documented State.reset.dev

/-- No master's queue ever holds more than 16 requests. -/
def Obligations.QueuesStayBounded : Prop :=
  ∀ s t : State, queuesBounded s.dev → step s = .next t → queuesBounded t.dev

/-! ## The dictionary -/

/-- The kinds of Table DI-3 bit by bit: a `ctl` bit takes the written value, a `sts` bit keeps its own, an `evt` bit is cleared by
a written 1 unless hardware sets it in the same cycle; every other bit of an `evt` word is left. A counter that a host writes while it
counts takes the written value with the coincident increment on top. -/
def Obligations.FieldKinds : Prop :=
  ∀ (o : ObjDef) (old v hw i : Nat), v < 2 ^ o.ty.width → i < o.ty.width →
    (bit (ctlMask o) i = true → bit o.sts i = false → bit o.evt i = false → bit (fieldWrite o old v hw) i = bit v i) ∧
    (bit o.sts i = true → bit (ctlMask o) i = false → bit o.hwrw i = false → bit o.rsvd i = false → bit o.evt i = false →
      bit (fieldWrite o old v hw) i = bit old i) ∧
    (bit o.evt i = true → bit (ctlMask o) i = false → bit o.hwrw i = false → bit o.rsvd i = false → bit o.sts i = false →
      bit (fieldWrite o old v hw) i = ((bit old i && !bit v i) || bit hw i)) ∧
    (∀ inc : Nat, o.whole = .cnt → v + inc < 2 ^ o.ty.width → kindWrite o 0 v inc = v + inc)

/-- A privileged arming write of a value in range arms the master's guard and does nothing else (R52 step 1); an unprivileged one
is discarded and aborts 0800 0021h (Table DI-5). When the guard window closes the arm is cleared and logged with cause 5, or there is no
arm and nothing happens (R53). -/
def Obligations.GuardArms : Prop :=
  (∀ (s : State) (m : Master) (idx : BitVec 16) (n : BitVec 8) (data : List Byte) (o : ObjDef), reachable s m →
    findObj idx.toNat n.toNat = some o → indexExists idx.toNat = true → o.guard = true → n.toNat < 64 →
    (s.dev.privilege m ≠ 0 → (disarmed s m).privilege m ≠ 0 → lengthOk o.ty data.length = true →
      guardRange s.dev o (ofBytesLE data) = true →
      accepts (.guardArmingWrite m idx n data) s m ((disarmed s m).onMaster m (fun x => { x with
        arm := some { idx := idx.toNat, sub := n.toNat, value := ofBytesLE data } }))) ∧
    ((disarmed s m).privilege m = 0 →
      abortsWith (.guardArmingWrite m idx n data) s m 0x08000021 ((disarmed s m).guardDiscard m idx.toNat n.toNat 1))) ∧
  ∀ (s : State) (m : Master),
    (∀ a : Arm, (s.dev.master m).arm = some a → leaves (.guardWindowExpiry m) s ((taken s m).guardDiscard m a.idx a.sub 5)) ∧
    ((s.dev.master m).arm = none → leaves (.guardWindowExpiry m) s s.dev)

/-- A write of a `gen` number edits the pending bank alone: the active bank and every register stay (R43). -/
def Obligations.GenWriteEditsPending : Prop :=
  ∀ (s : State) (m : Master) (idx : BitVec 16) (n : BitVec 8) (data : List Byte) (o : ObjDef), reachable s m →
    let d := disarmed s m
    let i := idx.toNat
    let v := ofBytesLE data
    findObj i n.toNat = some o → indexExists i = true → o.guard = false → o.acc = .rw → o.gen = true → o.ty.isOctets = false →
    o.base * 256 + n.toNat ≠ O.PATH_TYPE → o.base * 256 + n.toNat ≠ O.PORT_TYPE → o.base * 256 + n.toNat ≠ O.MAP_BLOCK →
    d.bondedIndex i = false → d.gatedObj o i = false → lengthOk o.ty data.length = true → contextCode d o (d.selected m) = 0 →
    d.heldBack i n.toNat true = false → d.editRefused = false → rangeOk d o (d.selected m) v = true →
    ignoredWrite d o i (d.selected m) = false → rsvdChanged o (d.genP (dictKey d m i n.toNat (d.selected m))) v = false →
    accepts (.registerWrite m idx n data 0) s m (d.edit (fun b => bankWr b (dictKey d m i n.toNat (d.selected m)) v))

/-- SELECT_STEP (R79): a write of 1 moves the selector to the next context of its level in active internal-number order, or, when the
selected address has no number there, to the one with the lowest; where there is none it aborts 0800 0024h and the selector stays, as it
does with no context selected; any other value than 1 aborts 0609 0030h, with no context selected too (the model's order, log entry 93).
CONTEXT_SELECT takes any valid address, for the writing master alone, and aborts 0609 0030h on another (R77). A port's number is the port
(the model's reading, log entry 59). -/
def Obligations.SelectStep : Prop :=
  ∀ (s : State) (m : Master), reachable s m →
    let d := disarmed s m
    let k := keyOf O.CONTEXT_SELECT (masterNo m)
    let a := d.selected m
    let l := numbering d.active (adLevel a)
    (∀ own n : Nat × Nat, a ≠ 0 → own ∈ l → own.2 = a → (∀ e ∈ l, e.2 = a → e = own) →
      (n ∈ l → own.1 < n.1 → (∀ e ∈ l, own.1 < e.1 → e = n ∨ n.1 < e.1) → accepts (.selectStep m 1) s m (d.wr k n.2)) ∧
      ((∀ e ∈ l, e.1 ≤ own.1) → abortsWith (.selectStep m 1) s m 0x08000024 d)) ∧
    (∀ n : Nat × Nat, a ≠ 0 → (∀ e ∈ l, e.2 ≠ a) → n ∈ l → (∀ e ∈ l, e = n ∨ n.1 < e.1) →
      accepts (.selectStep m 1) s m (d.wr k n.2)) ∧
    (l = [] ∨ a = 0 → abortsWith (.selectStep m 1) s m 0x08000024 d) ∧
    (∀ v : BitVec 8, v ≠ 1 → abortsWith (.selectStep m v) s m 0x06090030 d) ∧
    (∀ x : Addr, addrValid x.toNat = true → accepts (.contextSelect m x) s m (d.wr k x.toNat)) ∧
    (∀ x : Addr, addrValid x.toNat = false → abortsWith (.contextSelect m x) s m 0x06090030 d)

/-- An access that a command names keeps its place in its master's order (R49, R58; log entry 33): where requests of the same master wait, a
write joins its queue with the bytes it carries and its effect does not happen yet, and with 16 entries occupied it aborts 0800 0020h and is
counted. -/
def Obligations.NamedAccessWaits : Prop :=
  ∀ (s : State) (m : Master) (idx : BitVec 16) (n : BitVec 8) (data : List Byte) (hw : Word), outOfBoot s →
    let q : Req := { tag := tagNone, body := .write idx.toNat n.toNat data }
    (s.dev.nextReq m ≠ none → s.dev.occupancy m < 16 →
      ∀ c : Instr, c = .registerWrite m idx n data hw ∨ c = .guardArmingWrite m idx n data →
        ∃ t, exec c s = .next t ∧ (t.dev.master m).queue = (s.dev.master m).queue ++ [q]
          ∧ (∀ m' : Master, m' ≠ m → t.dev.master m' = s.dev.master m')
          ∧ t.dev.bankA = s.dev.bankA ∧ t.dev.bankB = s.dev.bankB ∧ t.dev.mem = s.dev.mem
          ∧ ∀ k : Key, k ≠ O.QUEUE_PEAK → t.dev.rd k = s.dev.rd k) ∧
    (16 ≤ s.dev.occupancy m →
      abortsWith (.registerWrite m idx n data hw) s m 0x08000020 (s.dev.count (keyOf O.OVERLOAD_COUNT (masterNo m)) 1))

/-! ## Milber -/

/-- The words of Tables DI-8 and DI-9: for every well-formed command that a frame spells, with any trailer, the decoder reads from the
words that the encoder lays out that command with every operand. Two operands are not in the words: what ECC finds in the record of a READ,
and whether a FETCH is clocked whole. -/
def Obligations.MilberFramesDecode : Prop :=
  ∀ (c : Instr) (l : List (BitVec 32)) (e : Ecc) (w : Bool), c.wf = true → encodeMilber c = some l →
    (∀ (i : BitVec 16) (n : BitVec 8) (t : Fin 16) (len crc : BitVec 32) (x : Ecc), c = .milberRead i n t len crc x → e = x) →
    (∀ (t : Fin 16) (x : Bool), c = .milberFetch t x → w = x) →
    decodeMilber e w l = some c

/-- The Milber commands that queue nothing: NOP returns zeros, an invalid opcode returns 0504 0001h in every word after the header,
a frame error is counted (R71, R76). FETCH carries a zero and the response: a finished request's entry and tag are freed when it is carried
whole, and its read completes; one that ends early leaves the response in place; PENDING and NO_REQUEST leave the queue (R57, R72, R73). -/
def Obligations.MilberPlainFrames : Prop :=
  (∀ s : State, outOfBoot s →
    leaves .milberNop s (s.dev.miso [0]) ∧
    (∀ (op : Fin 16) (n : Nat), leaves (.milberInvalidOpcode op n) s (s.dev.miso (0 :: List.replicate n 0x05040001))) ∧
    leaves .spiFrameError s ((s.dev.count O.SPI_FRAME_ERRORS 1).miso [])) ∧
  ∀ (s : State) (tag : Fin 16), outOfBoot s →
    let words := 0 :: fetchWords s.dev tag.val
    let found := s.dev.spi.queue.find? (fun r => r.tag == tag.val)
    (found = none → leaves (.milberFetch tag true) s (s.dev.miso words)) ∧
    (∀ r : Req, found = some r → r.done = false → leaves (.milberFetch tag true) s (s.dev.miso words)) ∧
    (∀ r : Req, found = some r → r.done = true →
      let freed := (s.dev.miso words).onSpi (fun x => { x with
        queue := x.queue.filter (fun q => q.tag != tag.val), abort := r.abort, data := r.data })
      leaves (.milberFetch tag false) s (s.dev.miso words) ∧
      (r.abort ≠ 0 → leaves (.milberFetch tag true) s freed) ∧
      (r.abort = 0 → leaves (.milberFetch tag true) s (freed.completed r.fin)))

/-- STATUS: one status word followed by its CRC, bits 31:16 the tags whose response is ready, bits 15:0 those still executing. -/
def Obligations.MilberStatusWord : Prop :=
  ∀ s : State, outOfBoot s →
    leaves .milberStatus s (s.dev.miso (0 :: response [statusWord s.dev.spi.queue] [])) ∧
    ∀ (q : List Req) (i : Nat), i < 16 →
      (bit (statusWord q) i = q.any (fun r => r.tag == i && !r.done)) ∧
      (bit (statusWord q) (i + 16) = q.any (fun r => r.tag == i && r.done))

/-- The four queued opcodes (R49, R69, R71): a frame within the limits, with a matching trailer, a free entry and a free tag, answers 0 in
its accept word and joins the SPI queue, whose requests then go on; HSPI_MISO carries zeros in the words before. A length or count outside
the limits answers 0607 0010h in every later word, a wrong trailer 0504 0004h and a count, a full queue 0800 0020h and a count, before the
tag is looked at, a tag in use 0504 0001h: nothing is queued. A frame whose words of data are not those of its length is a frame error. -/
def Obligations.MilberRequests : Prop :=
  ∀ (s : State) (i : BitVec 16) (n : BitVec 8) (tag : Fin 16), outOfBoot s →
    let ix := i.toNat
    let sb := n.toNat
    let trailer := fun (op : Nat) (rest : List Nat) (data : List (BitVec 32)) =>
      crc32c (frameBytes (milberHeader op ix sb tag.val :: rest) data)
    let free := s.dev.spi.queue.length < 16 ∧ s.dev.spi.queue.any (fun r => r.tag == tag.val) = false
    let queued := fun (b : ReqBody) (e : Ecc) (k : Nat) =>
      (acceptWord (s.dev.queueReq .spi { tag := tag.val, body := b, ecc := e }).1 k 0).drain
    let answers := fun (c : Instr) (k : Nat) (good : Prop) =>
      (¬ good → leaves c s (acceptWord (s.dev.count O.SPI_FRAME_ERRORS 1) k 0x05040004)) ∧
      (good → 16 ≤ s.dev.spi.queue.length → leaves c s (acceptWord (s.dev.overload .spi) k 0x08000020)) ∧
      (good → s.dev.spi.queue.length < 16 → s.dev.spi.queue.any (fun r => r.tag == tag.val) = true →
        leaves c s (acceptWord s.dev k 0x05040001))
    let runs := fun (c : Instr) (d : Dev) => d.undoc = false → leaves c s d
    (∀ (len crc : BitVec 32) (e : Ecc),
      let c := Instr.milberRead i n tag len crc e
      (within len.toNat 1 4096 = false → leaves c s (acceptAll s.dev 2 2 0x06070010)) ∧
      (within len.toNat 1 4096 = true →
        answers c 4 (crc.toNat = trailer 1 [len.toNat] []) ∧
        (crc.toNat = trailer 1 [len.toNat] [] → free → runs c (queued (.read ix sb len.toNat) e 4)))) ∧
    (∀ (len crc : BitVec 32) (data : List (BitVec 32)),
      let c := Instr.milberWrite i n tag len data crc
      let k := 4 + data.length
      (within len.toNat 1 4096 = false → leaves c s (acceptAll s.dev 2 (data.length + 2) 0x06070010)) ∧
      (within len.toNat 1 4096 = true → data.length ≠ (len.toNat + 3) / 4 → leaves c s (frameError s.dev)) ∧
      (within len.toNat 1 4096 = true → data.length = (len.toNat + 3) / 4 →
        answers c k (crc.toNat = trailer 2 [len.toNat] data) ∧
        (crc.toNat = trailer 2 [len.toNat] data → free →
          runs c (queued (.write ix sb (unwire (tyOf ix sb) len.toNat (wordBytes data))) .clean k)))) ∧
    (∀ start count crc : BitVec 32,
      let c := Instr.milberTableRead i n tag start count crc
      let l := [start.toNat, count.toNat]
      (countOk ix sb count.toNat = false → leaves c s (acceptAll s.dev 3 2 0x06070010)) ∧
      (countOk ix sb count.toNat = true →
        answers c 5 (crc.toNat = trailer 3 l []) ∧
        (crc.toNat = trailer 3 l [] → free → runs c (queued (.tableRead ix sb start.toNat count.toNat) .clean 5)))) ∧
    (∀ (start count crc : BitVec 32) (data : List (BitVec 32)),
      let c := Instr.milberTableWrite i n tag start count data crc
      let l := [start.toNat, count.toNat]
      let k := 5 + data.length
      (countOk ix sb count.toNat = false → leaves c s (acceptAll s.dev 3 (data.length + 2) 0x06070010)) ∧
      (countOk ix sb count.toNat = true → data.length ≠ count.toNat * recordWords (tyOf ix sb) → leaves c s (frameError s.dev)) ∧
      (countOk ix sb count.toNat = true → data.length = count.toNat * recordWords (tyOf ix sb) →
        answers c k (crc.toNat = trailer 4 l data) ∧
        (crc.toNat = trailer 4 l data → free →
          runs c (queued (.tableWrite ix sb start.toNat count.toNat (wordBytes data)) .clean k))))

/-! ## Host slots -/

/-- A request for a record executes in a host slot and its queue entry is finished; with a visit between the slot's read and its
write-back it moves to the next slot; an uncorrectable word aborts it with 0606 0000h, and a corrected one is counted (R25, R31, R60). Stated
of a read of one record by the SPI host that waits alone. -/
def Obligations.HostSlotServesRead : Prop :=
  ∀ (s : State) (r : Req) (i n len : Nat), outOfBoot s → s.dev.spi.queue = [r] → s.dev.canM.queue = [] → s.dev.mgmt.queue = [] →
    r.done = false → r.started = false → r.tag < 16 → r.body = .read i n len → i * 256 + n ≠ O.PM_BLOCK →
    s.dev.noRequests = false → s.dev.heldBack i n false = false → needsSlot s.dev .spi r.body = true →
    (∀ e : Ecc, leaves (.hostSlotAccess .spi true e) s s.dev) ∧
    ∀ e : Ecc, ∃ t : State, exec (.hostSlotAccess .spi false e) s = .next t ∧
      ∃ q : Req, t.dev.spi.queue = [q] ∧ q.done = true ∧ q.tag = r.tag ∧ q.body = r.body ∧
        q.abort = (s.dev.readObj .spi i n (if len == 0 then none else some len) e).2.abort ∧
        (e = .uncorrectable → q.abort = 0x06060000)

/-! ## CANopen -/

/-- An SDO transfer occupies an entry of the CAN queue from its initiate (R49, R66, R72) and aborts 0800 0020h where all 16 are occupied
(R58). A download whose client side goes well executes, an expedited one with no size as one that carries no length (R56); one whose block
size, toggle, specifier, sequence or CRC goes wrong aborts and writes nothing (Table DI-6); an upload executes at its initiate, and a wrong
one ends with its code. A transfer in progress keeps its entry, and one not continued within 1 s aborts 0504 0000h. -/
def Obligations.SdoTransfers : Prop :=
  (∀ (s : State) (r : SdoReq), outOfBoot s → (s.dev.canHears && s.dev.canTalks) = true →
    let idle := s.dev.onCan (fun c => { c with sdo := none })
    let held := (idle.onCan (fun c => { c with sdo := some r })).queuePeak .can
    let begun := held.onCan (fun c => { c with sdo := none })
    let code := fun (d : Dev) (n : Nat) => d.onCanM (fun x => { x with abort := n, data := [] })
    let runs := fun (q : Req) => (begun.queueReq .can q).1.drain
    let ix := r.index.toNat
    let sb := r.sub.toNat
    (16 ≤ s.dev.canM.queue.length → leaves (.sdoTransfer r) s (code (idle.overload .can) 0x08000020)) ∧
    (s.dev.canM.queue.length < 16 →
      (r.flaw = .stall → leaves (.sdoTransfer r) s held) ∧
      (r.flaw ≠ .stall → r.write = true →
        (flawCode r ≠ 0 → leaves (.sdoTransfer r) s (code begun (flawCode r))) ∧
        (flawCode r = 0 → unsized r = false → (runs { tag := 16, body := .write ix sb r.data }).undoc = false →
          leaves (.sdoTransfer r) s (runs { tag := 16, body := .write ix sb r.data })) ∧
        (flawCode r = 0 → unsized r = true → (runs { tag := 16, body := .unsized ix sb r.data }).undoc = false →
          leaves (.sdoTransfer r) s (runs { tag := 16, body := .unsized ix sb r.data }))) ∧
      (r.flaw ≠ .stall → r.write = false →
        (flawCode r = 0 → (runs { tag := 16, body := .read ix sb 0, ecc := r.ecc }).undoc = false →
          leaves (.sdoTransfer r) s (runs { tag := 16, body := .read ix sb 0, ecc := r.ecc })) ∧
        (flawCode r = 0x05040002 → leaves (.sdoTransfer r) s (code begun 0x05040002)) ∧
        (flawCode r ≠ 0 → flawCode r ≠ 0x05040002 → (runs { tag := 17, body := .read ix sb 0, ecc := r.ecc }).undoc = false →
          leaves (.sdoTransfer r) s (code (runs { tag := 17, body := .read ix sb 0, ecc := r.ecc }) (flawCode r)))))) ∧
  ∀ (s : State), s.dev.can.sdo.isSome = true →
    leaves .sdoTimeout s ((s.dev.onCan (fun c => { c with sdo := none })).onCanM (fun x => { x with abort := 0x05040000, data := [] }))

/-- NMT commands act on the CAN layer (R65, R358): Start enters Operational, Stop outside Stopped enters it and clears the CAN master's
arm and transfer, Enter Pre-operational enters it, Reset Node and Reset Communication reinitialise the layer with the node-ID and rate of
20F0, on a controller that is silent for want of a node-ID too (R64); no banks, mode or memory change. -/
def Obligations.NmtCommands : Prop :=
  (∀ s : State, s.dev.canHears = true →
    (∃ t, exec .nmtStartRemoteNode s = .next t ∧ t.dev.can.nmt = .operational
      ∧ { t.dev with can := s.dev.can, out := s.dev.out } = s.dev) ∧
    (s.dev.can.nmt ≠ .stopped → s.dev.canM.arm = none → ∃ t, exec .nmtStopRemoteNode s = .next t ∧ t.dev.can.nmt = .stopped ∧ t.dev.can.sdo = none
      ∧ { t.dev with can := s.dev.can, out := s.dev.out, canM := s.dev.canM } = s.dev) ∧
    (∃ t, exec .nmtEnterPreOperational s = .next t ∧ t.dev.can.nmt = .preOperational
      ∧ { t.dev with can := s.dev.can, out := s.dev.out } = s.dev)) ∧
  ∀ s : State, (s.dev.canHears || s.dev.canReset) = true →
    (s.dev.canM.arm = none → ∀ c : Instr, c = .nmtResetNode ∨ c = .nmtResetCommunication → ∃ t, exec c s = .next t
      ∧ t.dev.can.sdo = none
      ∧ t.dev.bankA = s.dev.bankA ∧ t.dev.bankB = s.dev.bankB ∧ t.dev.mem = s.dev.mem ∧ t.dev.frames = s.dev.frames
      ∧ t.dev.can.nodeId = (if s.dev.rd O.NODE_ID_OVERRIDE != 0 then s.dev.rd O.NODE_ID_OVERRIDE else s.dev.fld O.STRAPS 0 7))

/-- The timers of the CAN layer: a heartbeat carries the NMT state, a TPDO's inhibit and event times send what is due, an EMCY
inhibit end sends the message that waits (R67, R229, R398). SYNC arms a performance snapshot, and the detection of the bit rate ends
Initialisation with the boot-up message (R63). -/
def Obligations.CanTimers : Prop :=
  ∀ s : State,
    (s.dev.can.nmt ≠ .silent → s.dev.can.nmt ≠ .initialising → s.dev.rd O.PRODUCER_HEARTBEAT_TIME ≠ 0 →
      leaves .producerHeartbeat s (s.dev.sendCan (0x700 + s.dev.can.nodeId) [BitVec.ofNat 8 (nmtCode s.dev.can.nmt)])) ∧
    (∀ n : Fin 4, s.dev.can.waiting.contains n.val = false →
      leaves (.tpdoInhibitExpiry n) s (s.dev.onCan (fun c => { c with
        inhibited := c.inhibited.filter (· != n.val), waiting := c.waiting.filter (· != n.val) }))) ∧
    (∀ n : Fin 4, s.dev.rd (keyAt O.TPDO_EVENT_TIMER n.val) ≠ 0 → leaves (.tpdoEventTimer n) s (s.dev.queueTpdo n.val)) ∧
    (s.dev.can.emcyWait = none → leaves .emcyInhibitExpiry s (s.dev.onCan (fun c => { c with emcyInhib := false }))) ∧
    ((s.dev.canHears && s.dev.canTalks) = true → leaves .syncReceived s { s.dev with pmTime := { s.dev.pmTime with snap := true } }) ∧
    (∀ code : Fin 5, s.dev.can.nmt = .initialising → s.dev.onIntOsc = false →
      ∃ t, exec (.canBitrateDetected code) s = .next t ∧ t.dev.can.nmt = .preOperational
        ∧ t.dev.rd O.CAN_BITRATE_ACTIVE = code.val + 1
        ∧ ({ cob := 0x700 + s.dev.can.nodeId, data := [0] } : CanMsg) ∈ t.dev.out.can)

/-! ## Generations -/

/-- PATH_TYPE edits the pending bank (R8, R175): 0 removes the selected context, a value that fits provisions it under the lowest
free number of its level; a value above 8 aborts 0609 0030h and changes nothing. PORT_TYPE edits it too (R105, R177): a type that every
context of the port fits is written; a reserved type, and an OTU3 type on a port that is no multiple of 4, abort 0609 0030h. -/
def Obligations.TypesProvision : Prop :=
  (∀ (s : State) (m : Master) (v : BitVec 8), reachable s m →
    let d := disarmed s m
    let a := d.selected m
    let b := d.pendingBank
    d.gateOn gPointer = true → (adLevel a = 1 ∨ adLevel a = 2) → d.bankHeld = false → d.editRefused = false →
    (v = 0 → (provisioned b a = false ∨ adLevel a = 1 ∨ under b a = []) →
      accepts (.pathType m v) s m (d.edit (fun x => unprovision x a))) ∧
    (1 ≤ v.toNat → v.toNat ≤ 8 → fits b a v.toNat = true → parentFits b a v.toNat = true →
      (∀ c n, (c, n) ∈ b.numbers → clashes b a v.toNat c = false) → provisioned b a = false →
      (numbersOf b (adLevel a)).length < (if adLevel a == 2 then 12288 else 49152) →
      accepts (.pathType m v) s m (d.edit (fun x =>
        bankWr { x with numbers := smInsert a (lowestFree x (adLevel a)) x.numbers } (keyCtx O.PATH_TYPE a) v.toNat))) ∧
    (8 < v.toNat → abortsWith (.pathType m v) s m 0x06090030 d)) ∧
  ∀ (s : State) (m : Master) (p : Fin 64) (v : BitVec 8), reachable s m →
    let d := disarmed s m
    let b := d.pendingBank
    let b' := bankWr b (keyAt O.PORT_TYPE p.val) v.toNat
    d.quadGate (p.val / 4) = true → d.bankHeld = false → d.editRefused = false →
    (v.toNat ≤ 6 → (v.toNat = 6 → p.val % 4 = 0) →
      (∀ a n, (a, n) ∈ b.numbers → ownerPort b a = p.val ∨ ownerPort b' a = p.val → fits b' a (typeIn b a) = true) →
      accepts (.portType m p v) s m (d.edit (fun x => bankWr x (keyAt O.PORT_TYPE p.val) v.toNat))) ∧
    (6 < v.toNat ∨ (v.toNat = 6 ∧ p.val % 4 ≠ 0) → abortsWith (.portType m p v) s m 0x06090030 d)

/-- The triggers of 2601: COMMIT 1 starts admission with the conditions of the command's moment and, with a READY Shadow, sends the
bank to the mate; PENDING_RESET 1 starts the copy; CANCEL_SWITCH 1 before the point of R92 cancels the scheduled switch-in with
outcome 2, both banks as they were, and tells the mate of a joint one; each aborts 0800 0022h where Table PV-2 refuses it (R85, R86, R88, R93, R96). -/
def Obligations.BankTriggers : Prop :=
  ∀ (s : State) (m : Master), reachable s m →
    let d := disarmed s m
    let joint := d.inService && d.paired && d.shadowReady
    let sn := d.snapNow (d.privilege m != 0) joint
    let admits := ((d.wr O.PENDING_STATE 2).wr O.COMMIT 1).onProv (fun p => { p with adm := some sn, upset := none })
    (d.triggerHeld 1 = false → d.editRefused = false → d.joinRuns = false → joint = false → accepts (.commit m 1) s m admits) ∧
    (d.triggerHeld 1 = false → d.editRefused = false → d.joinRuns = false → joint = true →
      accepts (.commit m 1) s m (admits.sendMate (.commitBank d.pendingBank))) ∧
    (d.triggerHeld 1 = false → d.editRefused = true ∨ d.joinRuns = true → abortsWith (.commit m 1) s m 0x08000022 d) ∧
    (d.triggerHeld 8 = false → d.editRefused = false →
      accepts (.pendingReset m 1) s m ((d.wr O.PENDING_STATE 1).wr O.PENDING_RESET 1)) ∧
    (d.triggerHeld 8 = false → d.editRefused = true → abortsWith (.pendingReset m 1) s m 0x08000022 d) ∧
    (∀ x : Sched, d.prov.sched = some x → x.committed = false → d.rd O.PENDING_STATE ≠ 1 →
      ∃ e : Dev, accepts (.cancelSwitch m 1) s m e ∧ e.rd O.PENDING_STATE = 0 ∧ e.rd O.SWITCH_OUTCOME = 2 ∧ e.prov.sched = none
        ∧ e.bankA = d.bankA ∧ e.bankB = d.bankB ∧ (x.joint.isSome = true → MateMsg.commitCancel ∈ e.out.mate)) ∧
    (d.rd O.PENDING_STATE ≠ 1 → d.prov.sched = none → abortsWith (.cancelSwitch m 1) s m 0x08000022 d)

/-- The end of admission (R88, R89): COMMIT_RESULT and the offending object and context are recorded, COMMIT_COUNT counts, COMMIT
reads 0, and nothing more is admitted. A refusal leaves both banks as they were, with the pending one EDITABLE; acceptance without
a change of the conditions makes it SCHEDULED (R95), its header carrying the acceptance time, the time asked for and the CRC of the bank as
admitted (R103); a joint switch-in takes the later of the boundaries that the two units can agree (R96). -/
def Obligations.AdmissionEnds : Prop :=
  ∀ (s : State) (mate : MateAdmission) (x : AdmSnap), s.dev.prov.adm = some x →
    let d := s.dev
    let crc := fun (op : Nat) => (d.onPending (fun b => compiled b op)).crcOf (!d.activeB)
    let o := admitted d d.pendingBank x ((Config.freeWord d.free).toNat % 65536) mate crc
    (o.code ≠ 0 → d.prov.mateOld = none → gives (.admissionEnd mate) s (fun e =>
      e.rd O.COMMIT_RESULT = o.code % 2 ^ 64 ∧ e.rd O.OFFENDING_OBJECT = o.obj % 2 ^ 64 ∧ e.rd O.OFFENDING_CONTEXT = o.ctx % 2 ^ 64
      ∧ e.rd O.COMMIT = 0 ∧ e.rd O.PENDING_STATE = 0 ∧ e.prov.adm = none ∧ e.bankA = d.bankA ∧ e.bankB = d.bankB)) ∧
    (o.code = 0 → d.op ≤ o.op → d.prov.upset = none → gives (.admissionEnd mate) s (fun e =>
      e.rd O.COMMIT_RESULT = 0 ∧ e.rd O.COMMIT = 0 ∧ e.rd O.PENDING_STATE = 3 ∧ e.prov.adm = none
      ∧ e.prov.sched = some { joint := if x.joint then some (laterFrame mate.boundary (d.earliestJoint x.switchAt)) else none, raised := true }
      ∧ e.active = d.active ∧ e.pendingBank.regs = d.pendingBank.regs ∧ e.pendingBank.numbers = d.pendingBank.numbers
      ∧ e.pendingBank.genOp = BitVec.ofNat 64 o.op ∧ e.pendingBank.acceptTime = BitVec.ofNat 64 d.time
      ∧ e.pendingBank.switchAt = BitVec.ofNat 64 x.switchAt ∧ e.pendingBank.genCrc = (crc o.op).setWidth 64))

/-- The copy of R85 ends, with no request waiting: the pending bank equals the active one but for its header's times and BASE_NUMBER, and
is EDITABLE; without a copy nothing changes. A Shadow takes the bank of a COMMIT_BANK message whose check value matches, and admits it (R96); the check uses
channel 1, whose working value is then free (R406, log entry 6); any other unit or state ignores it. A joint switch-in that the mate cancels
is cancelled with outcome 5 (Table PV-3). -/
def Obligations.CopiesOfBanks : Prop :=
  (∀ s : State, s.dev.undoc = false → s.dev.spi.queue = [] → s.dev.canM.queue = [] → s.dev.mgmt.queue = [] →
    (s.dev.rd O.PENDING_STATE = 1 → gives .bankCopyEnd s (fun e =>
      e.active = s.dev.active ∧ e.rd O.PENDING_STATE = 0 ∧ e.rd O.PENDING_RESET = 0
      ∧ e.pendingBank = { s.dev.active with acceptTime := 0, switchAt := 0, switchTime := 0, baseNumber := s.dev.active.genNumber })) ∧
    (s.dev.rd O.PENDING_STATE ≠ 1 → leaves .bankCopyEnd s s.dev)) ∧
  ∀ (s : State) (b : Bank),
    (s.dev.inShadow = true → s.dev.paired = true → s.dev.linkUp = true → s.dev.rd O.PENDING_STATE = 0 →
      leaves (.commitBank (.bank b false)) s ((s.dev.channelUsed 1).mateVerify 32768) ∧
      gives (.commitBank (.bank b true)) s (fun e =>
        e.pendingBank = b ∧ e.active = s.dev.active ∧ e.prov.mateOld = some s.dev.pendingBank
        ∧ e.rd O.PENDING_STATE = 2 ∧ e.rd O.COMMIT = 1 ∧ ∃ x, e.prov.adm = some x ∧ x.joint = true)) ∧
    (s.dev.inShadow = false ∨ s.dev.rd O.PENDING_STATE ≠ 0 → ∀ ok, leaves (.commitBank (.bank b ok)) s s.dev) ∧
    (∀ x : Sched, s.dev.paired = true → s.dev.linkUp = true → s.dev.prov.sched = some x → x.committed = false →
      gives (.commitBank .cancel) s (fun e => e.prov.sched = none ∧ e.rd O.PENDING_STATE = 0 ∧ e.rd O.SWITCH_OUTCOME = 5
        ∧ e.bankA = s.dev.bankA ∧ e.bankB = s.dev.bankB))

/-- The chosen boundary (R90, R91): the banks change roles, the new generation takes the next number (1 after FFFF FFFFh), its
number, CRC, operating point and time show in 2600, the outcome is 1 and the copy back starts; Clamp holds it off, and no switch-in happens
before the point of R92, a full frame earlier, has passed. -/
def Obligations.SwitchInSwaps : Prop :=
  ∀ (s : State) (x : Sched), s.dev.prov.sched = some x →
    let d := s.dev
    let n := d.rd O.ACTIVE_GENERATION
    let num := if x.copied then d.pendingBank.genNumber.toNat else if n == 0xFFFFFFFF then 1 else n + 1
    let d1 := d.onPending (fun b => { b with genNumber := BitVec.ofNat 64 num, switchTime := BitVec.ofNat 64 d.time })
    let d2 := (d1.wr O.ACTIVE_BANK (ofBit (!d.activeB))).wr O.ACTIVE_GENERATION num
    let d3 := ((d2.wr O.ACTIVE_CRC d2.active.genCrc.toNat).wr O.ACTIVE_OP d.op).wr O.SWITCH_IN_TIME d.time
    let d4 := ((d3.wr O.SWITCH_OUTCOME 1).wr O.PENDING_STATE 1).onProv (fun p => { p with sched := none, mateOld := none })
    (d.clamped = false → x.committed = true →
      leaves .switchIn s (((d4.onCvu (fun c => { c with dueFrames := some 16 })).swapEffects d.active).unitSwap d.active)) ∧
    (d.clamped = true → leaves .switchIn s d) ∧
    (x.committed = false → leaves .switchIn s d)

/-- The bulk mapping window (R195): the selector takes a level 1 or 2 and a number; a whole read gives the entries of one bank from
that number on and moves the selector past them; a write that every entry passes puts them into the pending bank. -/
def Obligations.MapBlocks : Prop :=
  ∀ (s : State) (m : Master), reachable s m → s.dev.gateOn gMapping = true → (disarmed s m).gateOn gMapping = true →
    let k := keyOf O.MAP_BLOCK_SELECT (masterNo m)
    let n := fun (d : Dev) (len : Nat) => min (min 512 (len / 8)) (classSize (bits (d.rd k) 29 3) - bits (d.rd k) 0 16)
    let entries := fun (d : Dev) (b : Bank) (len : Nat) => (List.range (n d len)).flatMap (fun i =>
      bytesBE 8 (match numbered b (bits (d.rd k) 29 3) (bits (d.rd k) 0 16 + i) with | some a => entryIn b a | none => 0))
    (∀ v : BitVec 32, bits v.toNat 29 3 = 1 ∨ bits v.toNat 29 3 = 2 → bits v.toNat 16 13 = 0 →
      accepts (.mapBlockSelect m v) s m ((disarmed s m).wr k v.toNat)) ∧
    (∀ len : Nat, len ≠ 0 → s.dev.rd k ≠ 0 →
      leaves (.mapBlockActiveRead m { maxLen := len, complete := true, ecc := .clean }) s
        (answered (s.dev.putFld k 0 16 (bits (s.dev.rd k) 0 16 + n s.dev len)) m 0 (entries s.dev s.dev.active len)) ∧
      (s.dev.rd O.PENDING_STATE ≠ 1 → leaves (.mapBlockRead m { maxLen := len, complete := true, ecc := .clean }) s
        (answered (s.dev.putFld k 0 16 (bits (s.dev.rd k) 0 16 + n s.dev len)) m 0 (entries s.dev s.dev.pendingBank len)))) ∧
    (∀ es : List (BitVec 64), 1 ≤ es.length → es.length ≤ 512 →
      let d := disarmed s m
      let sel := d.rd k
      d.bankHeld = false → d.editRefused = false → sel ≠ 0 →
      entriesCheck d.pendingBank (bits sel 29 3) (bits sel 0 16) (es.map (·.toNat)) = 0 →
      accepts (.mapBlockWrite m (es.flatMap (fun e => bytesBE 8 e.toNat))) s m
        ((d.edit (entriesPut (bits sel 29 3) (bits sel 0 16) (es.map (·.toNat)))).putFld k 0 16 (bits sel 0 16 + es.length)))

/-! ## The boundary of a device frame -/

/-- A device frame boundary counts, and touches no bank (R19); the waiting paired writes whose boundary has come are applied and wait no
more, all of them where the pair does not run (R173). A PAIRED_WRITE message joins the writes that wait in a Shadow, with the boundary that it
names, and is ignored elsewhere. -/
def Obligations.FrameBoundaries : Prop :=
  (∀ d : Dev, d.applyWaiting.pairWait = d.pairWait.filter (fun w => d.pairRuns && !frameReached d.pairFrame w.at_)) ∧
  ∀ s : State,
    gives .frameBoundary s (fun e => e.frames = s.dev.frames + 1 ∧ (∀ w ∈ e.pairWait, w ∈ s.dev.pairWait)
      ∧ e.pins.boundary = some s.dev.elapsed ∧ e.bankA = s.dev.bankA ∧ e.bankB = s.dev.bankB) ∧
    ∀ (i : BitVec 16) (n : BitVec 8) (a : Addr) (data : List Byte) (b : BitVec 32),
      (s.dev.inShadow = true → s.dev.paired = true → s.dev.linkUp = true → leaves (.pairedWrite i n a data b) s { s.dev with
        pairWait := s.dev.pairWait ++ [{ idx := i.toNat, sub := n.toNat, addr := a.toNat, data := data, at_ := b.toNat }] }) ∧
      (s.dev.inShadow = false → leaves (.pairedWrite i n a data b) s s.dev)

/-! ## Lines -/

/-- A line receiver (R120 to R122, R124, R139, R352): CDR lock shows on a powered lane; its gain and its loss spoil the frequency gate, and
its loss is latched; the causes of LOS show while the receiver is powered; LOS is declared by one that counts, latched, forces OOF and may
wake Quiesce; it clears when none that counts is left, which spoils the gate and may wake Quiesce too; the mask of the CDR cause after a swap
ends. A receiver that is not powered declares and clears nothing. -/
def Obligations.LineReceivers : Prop :=
  ∀ (s : State) (l : Fin 64),
    let d := s.dev
    let k := keyAt O.LANE_STATUS l.val
    (d.rxPowered l.val = true →
      (d.flag k 3 = false → leaves (.cdrLock l) s ((d.putFlag k 3 true).spoilGate l.val)) ∧
      (d.flag k 3 = true → leaves (.cdrLock l) s (d.putFlag k 3 true))) ∧
    (d.flag k 3 = true → leaves (.cdrUnlock l) s (((d.putFlag k 3 false).putFlag k 9 true).spoilGate l.val)) ∧
    (d.flag k 3 = false → leaves (.cdrUnlock l) s d) ∧
    (∀ amp tr : Bool,
      let d1 := (d.putFlag k 1 amp).putFlag k 2 tr
      let causes := d.losCauses l.val amp tr
      (d.rxPowered l.val = true →
        (causes ≠ 0 → d.flag k 0 = false → leaves (.losDeclare l amp tr) s
          ((((d1.putFlag k 0 true).putFlag k 8 true).spoilGate l.val).losForcesOof l.val).wake) ∧
        (causes = 0 ∨ d.flag k 0 = true → leaves (.losDeclare l amp tr) s d1) ∧
        (causes = 0 → d.flag k 0 = true → leaves (.losClear l amp tr) s ((d1.putFlag k 0 false).spoilGate l.val).wake) ∧
        (causes ≠ 0 ∨ d.flag k 0 = false → leaves (.losClear l amp tr) s d1)) ∧
      (d.rxPowered l.val = false → leaves (.losDeclare l amp tr) s d ∧ leaves (.losClear l amp tr) s d)) ∧
    leaves (.cdrMaskEnd l) s { d with line := { d.line with cdrMask := d.line.cdrMask.filter (· != l.val) } }

/-- A quad PLL (R112 to R114): lock shows, its transmitters wait for the next boundary after a switch-in that changed its mode, a lock after
a reported loss is reported; a loss of lock raises a level-4 QUAD event while a reference is selected. A frequency gate ends with the offset
or with no reading, and a lane that is bad then spoils the next (R123, R124). A bonded port's loss of alignment, after three frames with a
condition, shows in bit 15 of each lane's OTL_STATUS, and clears after three without (R109, R110). Adapted equaliser values are written in
mode 0, and win over a host write of the same cycle, which sets OVERTAKEN (R45, R126); TX_SQUELCH takes 0 or 1; PRBS_CTRL takes the checker
on a lane of no enabled port and the generator in Bisque, and aborts 0800 0022h otherwise (R118, R127); writes to a gated quad are discarded
(R59). -/
def Obligations.QuadsAndLanes : Prop :=
  (∀ s : State,
    let d := s.dev
    (∀ q : Fin 16,
      (d.quadMode q.val ≠ 0 → d.lineRef ≠ 3 → d.flag (quadKey q.val) 3 = false →
        let d1 := (d.putFlag (quadKey q.val) 3 true).onLine (fun x => { x with
          settle := if d.line.anew.contains q.val then addOnce x.settle q.val else x.settle
          anew := x.anew.filter (· != q.val), lost := x.lost.filter (· != q.val) })
        (d.line.lost.contains q.val = false → leaves (.quadPllLock q) s d1) ∧
        (d.line.lost.contains q.val = true → leaves (.quadPllLock q) s (d1.raise
          { cls := clsQuad, inst := q.val, level := 4, addr := quadAddr q.val, detail := 2, clear := true }))) ∧
      (d.flag (quadKey q.val) 3 = true → d.quadMode q.val ≠ 0 → d.lineRef ≠ 3 →
        leaves (.quadPllLockLoss q) s (((d.putFlag (quadKey q.val) 3 false).onLine (fun x =>
          { x with lost := addOnce x.lost q.val })).raise { cls := clsQuad, inst := q.val, level := 4, addr := quadAddr q.val, detail := 1 })) ∧
      (d.flag (quadKey q.val) 3 = true → d.lineRef = 3 → leaves (.quadPllLockLoss q) s (d.putFlag (quadKey q.val) 3 false)) ∧
      (d.traffic = true → d.quadGate q.val = true → bonded d.active q.val = true →
        let shows := fun (b : Bool) => [4 * q.val, 4 * q.val + 1, 4 * q.val + 2, 4 * q.val + 3].foldl (fun x l =>
          x.putFlag (keyAt O.OTL_STATUS l) 15 b) d
        let frames := smLook (0, 0) d.line.lol q.val
        (3 ≤ frames.1 → leaves (.lolDeclare q) s (shows true)) ∧ (frames.1 < 3 → leaves (.lolDeclare q) s d) ∧
        (3 ≤ frames.2 → leaves (.lolClear q) s (shows false)) ∧ (frames.2 < 3 → leaves (.lolClear q) s d))) ∧
    (∀ (l : Fin 64) (count : Nat),
      let t := laneType d.active l.val
      let gate := 10 ^ d.fld (keyAt O.FREQ_CTRL l.val) 0 2
      let ended := fun (v : Nat) => (d.wr (keyAt O.FREQ_OFFSET l.val) v).onLine (fun x =>
        { x with spoiled := if d.gateBad l.val then addOnce x.spoiled l.val else x.spoiled.filter (· != l.val) })
      (d.gateBad l.val = false → d.line.spoiled.contains l.val = false →
        (1 ≤ t → t ≤ 4 → leaves (.freqGateEnd l count true) s (ended (ppmOffset count (155520000 * stmN t * gate) 1))) ∧
        (t = 5 → leaves (.freqGateEnd l count true) s (ended (ppmOffset count (9953280000 * 255 * gate) 237))) ∧
        (t = 6 → leaves (.freqGateEnd l count true) s (ended (ppmOffset count (9953280000 * 255 * gate) 236)))) ∧
      (∀ valid : Bool, valid = false ∨ d.gateBad l.val = true ∨ d.line.spoiled.contains l.val = true →
        leaves (.freqGateEnd l count valid) s (ended 0x80000000)))) ∧
  ∀ s : State,
    (∀ (l : RxLane) (v : BitVec 25),
      let k := (rxEqOf s.dev l).1
      ((rxEqOf s.dev l).2.2 = true → s.dev.fld k 26 2 = 0 → leaves (.rxAdaptation l v none) s (s.dev.putFld k 1 25 v.toNat)) ∧
      ((rxEqOf s.dev l).2.2 = false ∨ s.dev.fld k 26 2 ≠ 0 → leaves (.rxAdaptation l v none) s s.dev)) ∧
    (∀ (l : RxLane) (v : BitVec 25) (m : Master) (w : BitVec 32), reachable s m →
      let d := disarmed s m
      let k := (rxEqOf d l).1
      let old := d.rd k
      let d1 := d.wr k ((w.toNat &&& 0x7FFFFFFF) ||| (old &&& 0x80000000 &&& (0xFFFFFFFF ^^^ w.toNat)))
      (rxEqOf d l).2.1 = true → bits w.toNat 26 2 ≠ 3 → (old ^^^ w.toNat) &&& 0x70000001 = 0 →
      ((rxEqOf d l).2.2 = true → d.fld k 26 2 = 0 →
        accepts (.rxAdaptation l v (some (m, w))) s m ((d1.putFld k 1 25 v.toNat).putFlag k 31 true)) ∧
      ((rxEqOf d l).2.2 = false ∨ d.fld k 26 2 ≠ 0 → accepts (.rxAdaptation l v (some (m, w))) s m d1)) ∧
    (∀ (m : Master) (p : Fin 64), reachable s m → (disarmed s m).quadGate (p.val / 4) = true →
      let d := disarmed s m
      let old := d.rd (keyAt O.PRBS_CTRL p.val)
      (∀ v : BitVec 8, v.toNat ≤ 1 → accepts (.txSquelch m p v) s m (d.wr (keyAt O.TX_SQUELCH p.val) v.toNat)) ∧
      (∀ v : BitVec 8, 1 < v.toNat → abortsWith (.txSquelch m p v) s m 0x06090030 d) ∧
      (∀ c g : Nat, c ≤ 2 → g ≤ 2 → (c = 0 ∨ laneOn d.active p.val = false) → (g = 0 ∨ d.inBisque = true) →
        accepts (.prbsCtrl m p (BitVec.ofNat 8 (c + 4 * g))) s m ((d.wr (keyAt O.PRBS_CTRL p.val)
          (c + 4 * g + (if c = bits old 0 2 ∧ c ≠ 0 then old &&& 0x10 else 0))).onLine (fun x => { x with
            check := if c = bits old 0 2 ∧ c ≠ 0 then x.check else smDrop x.check p.val
            gen := if g = bits old 2 2 ∧ g ≠ 0 then x.gen else smDrop x.gen p.val }))) ∧
      (∀ c : Nat, 1 ≤ c → c ≤ 2 → laneOn d.active p.val = true →
        abortsWith (.prbsCtrl m p (BitVec.ofNat 8 c)) s m 0x08000022 d) ∧
      (∀ g : Nat, 1 ≤ g → g ≤ 2 → d.inBisque = false → abortsWith (.prbsCtrl m p (BitVec.ofNat 8 (4 * g))) s m 0x08000022 d)) ∧
    (∀ (m : Master) (p : Fin 64) (v : BitVec 8), reachable s m → (disarmed s m).quadGate (p.val / 4) = false →
      accepts (.txSquelch m p v) s m (disarmed s m) ∧ accepts (.prbsCtrl m p v) s m (disarmed s m))

/-! ## Frame alignment -/

/-- Syzygy (R129 to R139): the bit counter advances modulo the period; at the phase it comes to, a correct pattern at a new phase takes the
lowest free slot, at a candidate's phase it counts up to 8, at the in-frame phase it ends the errored run; with no free slot it is counted and
reported; an errored one frees its slot or lengthens the run, and OOF is declared when the run reaches OOF_M; nothing is examined under LOS. A
window ends at P_ref: without an eligible candidate nothing else changes; with one, the candidate goes in frame as the reference, its count 0
in slot 0, and a new phase of a search that was locked before is a change of alignment with its shift. OOF puts the phase back in slot 0, and on
a port it is latched, counted and reported. Stated at the place of a client frame and on the lane of a port of one lane. -/
def Obligations.SyzygySearch : Prop :=
  ∀ (s : State) (z : Syz),
    let d := s.dev
    let k := syzKey z
    let y := d.syz k
    let period := d.syzPeriod k
    let limit := d.oofLimit (d.syzPort k)
    d.syzRuns k = true → (d.syzLos k = true → ∀ (n : Nat) (w : BitVec 48), leaves (.framingPattern z n w) s (d.bitsPassed k n)) ∧
    (d.syzLos k = false → period ≠ 0 → 0 < limit →
    (∀ (n : Nat) (w : BitVec 48),
      let d1 := d.bitsPassed k n
      let y1 := d1.syz k
      let phase := (y.pos + n) % period
      let correct := (if k < 64 && d.genBit (keyAt O.LANE_CTRL k) 0 then ~~~w else w) = 0xF6F6F6282828
      let run := min (y.run + 1) 8
      (y1 = { y with pos := phase }) ∧
      (y.phase = some phase → correct → leaves (.framingPattern z n w) s (d1.putSyz k { y1 with run := 0 })) ∧
      (y.phase = some phase → ¬ correct → run < limit → leaves (.framingPattern z n w) s (d1.putSyz k { y1 with run := run })) ∧
      (y.phase = some phase → ¬ correct → limit ≤ run →
        leaves (.framingPattern z n w) s ((d1.putSyz k { y1 with run := run }).declareOof k)) ∧
      (∀ i c : Nat, y.phase ≠ some phase → slotOf y phase = some (i, phase, c) →
        (correct → leaves (.framingPattern z n w) s
          (d1.putSyz k { y1 with slots := smPut (0, 0) y1.slots i (phase, min (c + 1) 8) })) ∧
        (¬ correct → i ≠ 0 ∨ y.locked = false → leaves (.framingPattern z n w) s
          (d1.putSyz k { y1 with slots := smDrop y1.slots i }))) ∧
      (y.phase ≠ some phase → slotOf y phase = none →
        (correct → ∀ i : Nat, freeSlot y = some i →
          leaves (.framingPattern z n w) s (d1.putSyz k { y1 with slots := smInsert i (phase, 1) y1.slots })) ∧
        (correct → freeSlot y = none → ∀ l : Fin 64, z = .lane l → lanePort d.active l.val = l.val →
          leaves (.framingPattern z n w) s ((d1.count (keyAt O.CANDIDATE_OVERFLOW l.val) 1).raise
            { cls := clsAlign, inst := l.val, level := 3, addr := portAddr l.val, detail := 5 })) ∧
        (¬ correct → leaves (.framingPattern z n w) s d1))) ∧
    (let d0 := d.putSyz k { y with pos := y.pref }
     let y0 := { y with pos := y.pref }
     (y.phase ≠ none ∨ winner y0 period (d.ifN (d.syzPort k)) = none → leaves (.searchWindowEnd z) s d0) ∧
     (∀ i phase : Nat, y.phase = none → winner y0 period (d.ifN (d.syzPort k)) = some (i, phase) →
       ((afterWin y0 i phase).phase = some phase ∧ (afterWin y0 i phase).pref = phase ∧ (afterWin y0 i phase).locked = true) ∧
       (∀ p : Fin 64, z = .client p → d.clientHeld p.val = false →
         leaves (.searchWindowEnd z) s (((d0.putSyz k (afterWin y0 i phase)).when (phase != y.pref) (fun x => x.cutFrame k)).putFlag
           (keyAt O.OPU_STATUS p.val) 3 false)) ∧
       (∀ l : Fin 64, z = .lane l → lanePort d.active l.val = l.val → bonded d.active (l.val / 4) = false →
         (y.locked = false ∨ phase = y.pref → leaves (.searchWindowEnd z) s
           ((((((d0.putSyz k (afterWin y0 i phase)).when (phase != y.pref) (fun x => x.cutFrame l.val)).wr (keyAt O.LAST_LOCK_TIME l.val)
             d.time).putFlag (keyAt O.ALIGN_STATUS l.val) 1 false).putFlag (keyAt O.ALIGN_STATUS l.val) 5 false).wr
             (keyAt O.FRAME_PHASE l.val) phase)) ∧
         (y.locked = true → phase ≠ y.pref → gives (.searchWindowEnd z) s (fun e =>
           e.flag (keyAt O.ALIGN_STATUS l.val) 10 = true ∧ e.rd (keyAt O.PHASE_SHIFT l.val) = phaseShift period y.pref phase
             ∧ e.rd (keyAt O.FRAME_PHASE l.val) = phase))))) ∧
    (∀ phase : Nat, y.phase = some phase → limit ≤ y.run →
      (∀ p : Fin 64, z = .client p → leaves (.oofDeclare z) s (((d.putSyz k (toReference y phase)).breakRuns k).putFlag
        (keyAt O.OPU_STATUS p.val) 3 true)) ∧
      (∀ l : Fin 64, z = .lane l → lanePort d.active l.val = l.val → bonded d.active (l.val / 4) = false →
        d.portOof l.val = false → isOtu (portType d.active l.val) = false →
        leaves (.oofDeclare z) s ((((((d.putSyz k (toReference y phase)).breakRuns l.val).onLine (fun x => { x with
          marked := x.marked.filter (· != l.val) })).putFlag (keyAt O.ALIGN_STATUS l.val) 1 true).putFlag
          (keyAt O.ALIGN_STATUS l.val) 7 true).count (keyAt O.OOF_COUNT l.val) 1 |>.raise
          { cls := clsAlign, inst := l.val, level := 3, addr := portAddr l.val, detail := 1 }))) ∧
    (y.phase = none ∨ y.run < limit → leaves (.oofDeclare z) s d))

/-- Loss of frame and the OTN multiframe (R141 to R143): LOF and LOM are declared once, when their accumulators have reached LOF_DECLARE and
LOM_DECLARE, latched and reported; they clear after LOF_CLEAR boundaries in frame or LOM_CLEAR in multiframe, with their accumulators. After
IM_N incrementing MFAS a port in frame is in multiframe and takes the received MFAS into its flywheel, noting a slip; after OOM_M that differ
from it, it is out of multiframe, which starts the runs again. -/
def Obligations.LossOfFrameAndMultiframe : Prop :=
  ∀ (s : State) (p : Fin 64),
    let d := s.dev
    let k := keyAt O.ALIGN_STATUS p.val
    let m := smLook {} d.align.mf p.val
    let event := fun (code : Nat) => ({ cls := clsAlign, inst := p.val, level := 3, addr := portAddr p.val, detail := code } : Ev)
    let lof := smLook (0, 0) d.align.lof p.val
    let client := smLook (0, 0) d.align.lof (64 + p.val)
    let lom := smLook (0, 0) d.align.lom p.val
    (d.syzRuns p.val = true → lanePort d.active p.val = p.val →
      (d.genA (keyAt O.LOF_DECLARE p.val) ≤ lof.1 →
        (d.flag k 2 = false → leaves (.lofDeclare (.lane p)) s (((d.putFlag k 2 true).putFlag k 8 true).raise (event 2))) ∧
        (d.flag k 2 = true → leaves (.lofDeclare (.lane p)) s d)) ∧
      (lof.1 < d.genA (keyAt O.LOF_DECLARE p.val) → leaves (.lofDeclare (.lane p)) s d) ∧
      (d.genA (keyAt O.LOF_CLEAR p.val) ≤ lof.2 → leaves (.lofClear (.lane p)) s ((d.putFlag k 2 false).onAlign (fun a =>
        { a with lof := smDrop a.lof p.val }))) ∧
      (lof.2 < d.genA (keyAt O.LOF_CLEAR p.val) → leaves (.lofClear (.lane p)) s d)) ∧
    (d.syzRuns (64 + p.val) = true →
      (d.genA (keyAt O.LOF_DECLARE p.val) ≤ client.1 →
        leaves (.lofDeclare (.client p)) s (d.onAlign (fun a => { a with clientLof := addOnce a.clientLof p.val }))) ∧
      (d.genA (keyAt O.LOF_CLEAR p.val) ≤ client.2 → leaves (.lofClear (.client p)) s (d.onAlign (fun a =>
        { a with clientLof := a.clientLof.filter (· != p.val), lof := smDrop a.lof (64 + p.val) })))) ∧
    (d.mfRuns p.val = true →
      (d.flag k 3 = true → d.imN p.val ≤ m.good →
        let taken := fun (x : Dev) => (x.putFlag k 3 false).onAlign (fun a =>
          { a with mf := smPut {} a.mf p.val { m with fly := d.rd (keyAt O.MFAS_LAST p.val), bad := 0 } })
        (m.fly = d.rd (keyAt O.MFAS_LAST p.val) → leaves (.inMultiframe p) s (taken d)) ∧
        (m.fly ≠ d.rd (keyAt O.MFAS_LAST p.val) → leaves (.inMultiframe p) s (taken (d.putFlag k 11 true)))) ∧
      (d.flag k 3 = false ∨ m.good < d.imN p.val → leaves (.inMultiframe p) s d) ∧
      (d.flag k 3 = false → d.oomM p.val ≤ m.bad → leaves (.oomDeclare p) s ((d.putFlag k 3 true).onAlign (fun a =>
        { a with mf := smPut {} a.mf p.val { m with good := 0 }, lom := smPut (0, 0) a.lom p.val (lom.1, 0) }))) ∧
      (d.flag k 3 = true ∨ m.bad < d.oomM p.val → leaves (.oomDeclare p) s d) ∧
      (d.flag k 4 = false → d.genA (keyAt O.LOM_DECLARE p.val) ≤ lom.1 →
        leaves (.lomDeclare p) s (((d.putFlag k 4 true).putFlag k 9 true).raise (event 3))) ∧
      (d.flag k 4 = true ∨ lom.1 < d.genA (keyAt O.LOM_DECLARE p.val) → leaves (.lomDeclare p) s d) ∧
      (d.genA (keyAt O.LOM_CLEAR p.val) ≤ lom.2 → leaves (.lomClear p) s ((d.putFlag k 4 false).onAlign (fun a =>
        { a with lom := smDrop a.lom p.val }))) ∧
      (lom.2 < d.genA (keyAt O.LOM_CLEAR p.val) → leaves (.lomClear p) s d))

/-! ## Section overhead -/

/-- Reception (R149 to R162): a port's frame while its section processor does not run is ignored, and a lane without an enabled port feeds its
PRBS checker (R127); while OOF or LOS holds a port, a frame renews the parities, breaks the traces in reception and zeroes the returned REI or
BEI; an STM-N frame that is not held, MS-AIS not declared, hands B1, B2, REI, J0, K1/K2 and S1 to the next visit, integrates MS-AIS and MS-RDI,
and its AU-4s are the next frame of the pointer processor (R14). Transmission (R152, R172): the frame of an enabled STM-N port starts with
its A1 and A2 bytes, enters the next frame's B1, and leaves the pins only where the transmitter drives, with the lane's polarity (R119); an
OTU2 frame with no injected errors starts with its FAS, and each takes the next MFAS (R166, Table SO-6). -/
def Obligations.SectionFrames : Prop :=
  ∀ (s : State) (p : Fin 64) (raw : List Byte) (skews : List (BitVec 12)) (moves : List (Addr × Int)),
    let d := s.dev
    let n := stmN (d.portTy p.val)
    let pins := d.polarity p.val 0 raw
    let f := fitBytes (9 * sdhCols n) pins
    let g := sdhScramble n f
    let at_ := byteAt g (sdhCols n)
    let x := d.secRx p.val
    (laneOn d.active p.val = false → leaves (.lineReceiveFrame p (.line raw skews)) s (d.prbsCheck p.val pins)) ∧
    (d.secRuns p.val = false → laneOn d.active p.val = true → d.prbsDrives p.val = false →
      leaves (.lineReceiveFrame p (.line raw skews)) s d ∧ leaves (.lineReceiveFrame p .client) s d
      ∧ leaves (.lineTransmitFrame p false moves) s d) ∧
    (d.secRuns p.val = true → laneOn d.active p.val = true → bonded d.active (p.val / 4) = false →
      (isOtu (d.portTy p.val) = false →
        (d.soHold p.val = true → leaves (.lineReceiveFrame p (.line raw skews)) s (((d.takeFrame p.val n g).onSecRx p.val (fun _ =>
          { x with b1 := some (bip8 f), b2 := some (b2Of n g), recs := x.recs ++ [.gap], rei := some 0 })).cutPassed p.val)) ∧
        (d.soHold p.val = false → d.msAisDeclared p.val = false →
          gives (.lineReceiveFrame p (.line raw skews)) s (fun e => ∃ (r : SdhRec) (lost : List RxRec),
            (e.secRx p.val).recs = x.recs ++ .sdh r :: lost ∧ (∀ q ∈ lost, ∃ m : Nat, q = .dccLost m)
            ∧ r.b1 = (x.b1.map (fun b => ones (b ^^^ at_ 2 1))).getD 0
            ∧ r.b2 = (x.b2.map (fun l => parityErrors l (b2Bytes n g))).getD 0
            ∧ r.rei = reiValue n (d.reiMode p.val) (at_ 9 (3 * n + 2)).toNat (at_ 9 (3 * n + 3)).toNat ∧ r.j0 = at_ 1 (6 * n + 1)
            ∧ r.k = (at_ 5 (3 * n + 1)).toNat * 256 + (at_ 5 (6 * n + 1)).toNat ∧ r.s1 = (at_ 9 1).toNat % 16 ∧ r.ms = false
            ∧ (e.secRx p.val).b1 = some (bip8 f) ∧ (e.secRx p.val).b2 = some (b2Of n g) ∧ (e.secRx p.val).rei = some r.b2
            ∧ (e.secRx p.val).msAis = integrate x.msAis ((at_ 5 (6 * n + 1)).toNat % 8 == 7) 3
            ∧ (e.secRx p.val).msRdi = integrate x.msRdi ((at_ 5 (6 * n + 1)).toNat % 8 == 6) 5
            ∧ (smLook {} e.rxFrames p.val).num = (smLook {} d.rxFrames p.val).num + 1)) ∧
        (1 ≤ d.portTy p.val → d.portTy p.val ≤ 4 → gives (.lineTransmitFrame p false moves) s (fun e =>
          let m := stmN (e.portTy p.val)
          let sent := smLook [] e.out.line p.val
          let frame := e.polarity p.val 1 sent
          lanePort e.active p.val = p.val → bonded e.active (p.val / 4) = false → e.prbsDrives p.val = false →
          (e.portDrives p.val = false → sent = []) ∧
          (e.portDrives p.val = true → frame.length = 9 * 270 * m ∧ frame.take (3 * m) = List.replicate (3 * m) 0xF6
            ∧ (frame.drop (3 * m)).take (3 * m) = List.replicate (3 * m) 0x28 ∧ (e.secTx p.val).b1 = some (bip8 frame))))) ∧
      (d.portTy p.val = 5 → d.fld (keyAt O.SO_TEST p.val) 16 4 = 0 → gives (.lineTransmitFrame p false moves) s (fun e =>
        let sent := smLook [] e.out.line p.val
        let frame := e.polarity p.val 1 sent
        (e.secTx p.val).mfas = ((d.secTx p.val).mfas + 1) % 256 ∧
        (lanePort e.active p.val = p.val → bonded e.active (p.val / 4) = false → e.prbsDrives p.val = false →
          (e.portDrives p.val = false → sent = []) ∧
          (e.portDrives p.val = true → frame.length = 16320 ∧ frame.take 6 = [0xF6, 0xF6, 0xF6, 0x28, 0x28, 0x28])))) ∧
      (isOtu (d.portTy p.val) = true → d.soHold p.val = true →
        let w := fecReceive (bit (d.genA (keyAt O.OTN_CTRL p.val)) 1) (bit (d.genA (keyAt O.OTN_CTRL p.val)) 2)
          (otuScramble (fitBytes 16320 pins))
        let d1 := d.when (d.runs gMapping) (fun y => y.opuJoin p.val (opuTake (d.portTy p.val == 6) w.1))
        leaves (.lineReceiveFrame p (.line raw skews)) s (((d1.onSecRx p.val (fun y =>
          { y with smB := (bip8 (opuk w.1) :: y.smB).take 2, pmB := (bip8 (opuk w.1) :: y.pmB).take 2, recs := y.recs ++ [.gap]
                   smBei := some 0, pmBei := some 0, iae := false })).mfasSeen
          p.val (byteAt w.1 4080 1 7).toNat (d.frameMarked p.val)).cutPassed p.val)))

/-- A section visit takes in everything received since the last one (R16): nothing waits after it, and the B1 errors of a waiting
frame have been counted. Host accesses of a port's section (R163, R164, R172, R173): reads of a DCC queue give its oldest bytes,
which leave it when the read completes; writes join the transmit queue; the one-shot inversions set their bits of SO_TEST; such
writes are refused in Shadow and go to the mate, to be applied at the boundary that the message names, from an active unit with a READY
Shadow; on the spare ports of a bonded quad they are discarded (R82). -/
def Obligations.SectionVisitAndHost : Prop :=
  (∀ (s : State) (p : Fin 64), s.dev.secRuns p.val = true →
    gives (.sectionVisit p) s (fun e => (e.secRx p.val).recs = []) ∧
    (∀ r : SdhRec, (s.dev.secRx p.val).recs = [.sdh r] → isOtu (s.dev.portTy p.val) = false →
      gives (.sectionVisit p) s (fun e =>
        e.rd (keyAt O.B1_ERRORS p.val) = (s.dev.count (keyAt O.B1_ERRORS p.val) r.b1).rd (keyAt O.B1_ERRORS p.val)))) ∧
  (∀ (s : State) (m : Master) (p : Fin 64) (mux : Bool), reachable s m → s.dev.gateOn gSection = true →
    (disarmed s m).gateOn gSection = true →
    let d := disarmed s m
    let q := s.dev.dccQueue p.val mux
    let alone := d.inShadow = false ∧ (d.inService && d.paired && d.shadowReady) = false
    let k := keyAt O.SO_TEST p.val
    (s.dev.bondedIndex (0x28C0 + p.val) = false → ∀ n : Nat, 1 ≤ n → s.dev.dccOn p.val mux = true →
      let l := (s.dev.dccRx q).take (min n 4096)
      let after := s.dev.dccDrop q l.length
      leaves (.dccRxRead m p mux { maxLen := n, complete := true, ecc := .clean }) s (answered after m 0 l) ∧
      after.dccRx q = (s.dev.dccRx q).drop l.length ∧
      leaves (.dccRxRead m p mux { maxLen := n, complete := false, ecc := .clean }) s (answered s.dev m 0 l)) ∧
    (d.bondedIndex (0x28C0 + p.val) = false → ∀ data : List Byte, 1 ≤ data.length → data.length ≤ 4096 →
      data.length ≤ d.dccFree p.val mux →
      let w : PairedWrite := { idx := 0x28C0 + p.val, sub := if mux then 0xC else 0xB, addr := 0, data := data,
                               at_ := (d.rd O.PAIR_FRAME + 2) % 2 ^ 32 }
      (alone → accepts (.dccTxWrite m p mux data) s m (dccTxApply p.val mux data d)) ∧
      (d.inService = true → d.paired = true → d.shadowReady = true → accepts (.dccTxWrite m p mux data) s m
        { d.sendMate (.pairedWrite w.idx w.sub w.addr w.data w.at_) with pairWait := d.pairWait ++ [w] }) ∧
      (d.inShadow = true → abortsWith (.dccTxWrite m p mux data) s m 0x08000022 d)) ∧
    (d.bondedIndex (0x28C0 + p.val) = false → alone → bits (d.rd k) 16 4 ≤ 9 →
      ∀ (c : Instr) (i : Nat), (c, i) ∈ [(Instr.oneB1 m p, 4), (.oneB2 m p, 5), (.oneSmBip m p, 6), (.onePmBip m p, 7)] →
        accepts c s m (d.wr k (((d.rd k &&& 0xFFFFFF0F) + 2 ^ i) ||| (d.rd k &&& 0xF0)))) ∧
    (d.bondedIndex (0x28C0 + p.val) = false → d.inShadow = true →
      ∀ c ∈ [Instr.oneB1 m p, .oneB2 m p, .oneSmBip m p, .onePmBip m p], abortsWith c s m 0x08000022 d) ∧
    (d.bondedIndex (0x28C0 + p.val) = true → ∀ data : List Byte,
      ∀ c ∈ [Instr.oneB1 m p, .oneB2 m p, .oneSmBip m p, .onePmBip m p, .dccTxWrite m p mux data], accepts c s m d))

/-! ## Pointers -/

/-- A context takes the latest period that its port or its parent has brought (R182, R187): once, where its interpreter runs; the word drives
the interpreter, the bytes are delimited by what the word says, and the containers completed go through the mapping switch. Table MP-4 and
Table MP-5 on a word: FFFFh is AIS_ind, and the third in a row enters AIS; an NDF with an offset in range is followed at once outside LOP and
latched, unless it completes the LOP run (log entry 138); the current offset confirms the state; a third equal new point is followed; LOP_N
invalid ones give LOP; an increment or decrement moves the offset by one, modulo the range, counts, and moves the stores it feeds (R182 to
R185, R190). -/
def Obligations.PointerInterpretation : Prop :=
  (∀ (s : State) (a : Addr),
    let d := s.dev
    let x := d.pathRxOf a.toNat
    (d.ptrRuns a.toNat = false ∨ d.tuHeld a.toNat = true ∨ d.rxPeriod a.toNat = none → leaves (.pointerWord a) s d) ∧
    (∀ (n : Nat) (p : Period), d.ptrRuns a.toNat = true → d.tuHeld a.toNat = false → d.rxPeriod a.toNat = some (n, p) →
      (n = x.taken → leaves (.pointerWord a) s d) ∧
      (n ≠ x.taken →
        let gap := n != x.taken + 1
        let r := (if gap then { x with cur := none, wait := none } else x).period (d.pathType a.toNat) p (d.alignment a.toNat p.word gap)
        leaves (.pointerWord a) s (r.2.foldl (fun y c => y.deliver a.toNat c)
          ((pointerWord d a.toNat p.word p.members).onPathRx a.toNat (fun _ => { r.1 with taken := n })))))) ∧
  ∀ (d : Dev) (a : Nat) (word : BitVec 16) (members : List Nat),
    let k := keyCtx O.PTR_STATUS a
    let range := ptrRange (d.pathType a)
    let ctl := d.genA (keyCtx O.PTR_CTRL a)
    let lopN := bits ctl 0 4
    let x := smLook {} d.ptrRx a
    let cur := d.fld k 0 10
    let off := bits word.toNat 0 10
    let lop := min (x.lop + 1) 15
    let c := classify word.toNat range (if bit ctl 4 then some (sizeBits (d.pathType a) (d.sonet (d.ctxPort a))) else none)
      (d.fld k 16 2) cur (min (x.since + 1) 3)
    let e := pointerWord d a word.toNat members
    let now := fun (y : Dev) (state offset : Nat) => y.fld k 16 2 = state ∧ y.fld k 0 10 = offset
    let moves := fun (o : ObjId) (n : Int) (offset : Nat) => ∃ y : Dev,
      e = ((d.servedBy a).flatMap d.partners).foldl (fun z t => z.moveFill t n) (y.count (keyCtx o a) 1) ∧ now y 0 offset ∧ y.flag k 21 = true
    (word = 0xFFFF → c = .ais) ∧
    (c = .ais → 2 ≤ x.ais → now e 1 cur) ∧
    (c = .norm → now e 0 cur) ∧
    (c = .ndf → d.fld k 16 2 ≠ 2 → (lop < lopN → now e 0 off ∧ e.flag k 22 = true) ∧ (lopN ≤ lop → now e 2 cur)) ∧
    (c = .new → x.new.1 = off → 2 ≤ x.new.2 → now e 0 off) ∧
    (c = .inv → d.fld k 16 2 ≠ 2 → lopN ≤ lop → now e 2 cur) ∧
    (c = .inc → moves O.PJ_RX_INC (-1) ((cur + 1) % range)) ∧
    (c = .dec → moves O.PJ_RX_DEC 1 ((cur + range - 1) % range))

/-! ## Path overhead -/

/-- A path overhead visit (R201 to R203, Table PO-3): a held one shows HELD, breaks the trace in reception and zeroes the returned REI, and
what has arrived is not processed; another counts the BIP errors and the received REI of what has arrived; on a VC-3 in TUG-3 the defect visit
follows at once (R217). The delay marker toggles at its tick when no toggle waits for an answer, and is lost without one, after which the next
tick toggles anyway (R212); the edge is stamped as its K4 byte leaves (R211). A trace capture arms for the master that asked; ONE_BIP sets its
bit of POH_TEST (R208, R214). -/
def Obligations.PathOverheadWork : Prop :=
  (∀ (s : State) (a : Addr),
    let d := s.dev
    let k := keyCtx O.POH_STATUS a.toNat
    let m := (d.pohOf a.toNat).marker
    let visit := fun (P : Dev → Prop) => ∃ e : Dev, P e ∧
      leaves (.pohVisit a) s (if e.pathType a.toNat = 6 then defectVisit e a.toNat else e)
    (d.runs gPoh = false ∨ provisioned d.active a.toNat = false → visit (fun e => e = d)) ∧
    (d.runs gPoh = true → provisioned d.active a.toNat = true →
      (d.pohHeld a.toNat = true → visit (fun e => e = (((d.putFlag k 6 true).onPathRx a.toNat (fun x => { x with todo := [] })).onPohCtx
        a.toNat (fun x => { x with rei := some 0, trace := { x.trace.broken with buf := [] } })))) ∧
      (d.pohHeld a.toNat = false →
        ((d.pathRxOf a.toNat).todo = [] → visit (fun e => e = (d.putFlag k 6 false).onPathRx a.toNat (fun x => { x with todo := [] }))) ∧
        (∀ c : RxCont, (d.pathRxOf a.toNat).todo = [c] →
          let b := pohBytes (isTu1 (d.pathType a.toNat)) (pohOfCont (d.pathType a.toNat) c.bytes) c.bip
          visit (fun e => (e.pathRxOf a.toNat).todo = []
            ∧ e.rd (keyCtx O.BIP_ERRORS a.toNat) = (d.count (keyCtx O.BIP_ERRORS a.toNat) b.errs).rd (keyCtx O.BIP_ERRORS a.toNat)
            ∧ e.rd (keyCtx O.REI_RX a.toNat) = (d.count (keyCtx O.REI_RX a.toNat) b.rei).rd (keyCtx O.REI_RX a.toNat)))) ∧
      (d.markerMode a.toNat = 2 → d.pohMaster a.toNat = a.toNat →
        (m.ticked = true → m.back = false → leaves (.markerLost a) s ((d.putFlag k 5 true).onPohCtx a.toNat (fun x =>
          { x with marker := { m with retry := true } }))) ∧
        (m.ticked = false ∨ m.back = true ∨ m.retry = true → leaves (.markerTick a) s (d.onPohCtx a.toNat (fun x =>
          { x with marker := { m with tx := !m.tx, back := false, ticked := true, retry := false, edge := true } })))) ∧
      (m.ticked = true → m.back = false → m.retry = false → leaves (.markerTick a) s d)) ∧
    (d.markerMode a.toNat = 2 → m.edge = true → d.markerTx a.toNat = ((d.wr (keyCtx O.MARKER_TX_EDGE a.toNat) d.time).putFlag k 4 true).onPohCtx
      a.toNat (fun x => { x with marker := { m with edge := false } }))) ∧
  (∀ (s : State) (m : Master), reachable s m →
    let d := disarmed s m
    let a := d.selected m
    d.gateOn gPoh = true →
    (adLevel a = 1 ∨ adLevel a = 2 → d.hasRecord a = true →
      accepts (.traceCapture m 1) s m { d.wr (keyOf O.TRACE_CAPTURE (masterNo m)) 1 with
        captures := d.captures.filter (fun c => c.1 != masterNo m) ++ [(masterNo m, a)] } ∧
      (d.inShadow = false → (d.inService && d.paired && d.shadowReady) = false →
        accepts (.oneBip m) s m (d.wr (keyCtx O.POH_TEST a) (d.rd (keyCtx O.POH_TEST a) ||| 2))) ∧
      (d.inShadow = true → abortsWith (.oneBip m) s m 0x08000022 d)) ∧
    (d.hasRecord a = false → abortsWith (.traceCapture m 1) s m 0x08000024 d ∧ abortsWith (.oneBip m) s m 0x08000024 d))

/-! ## Defects -/

/-- A defect visit (R217, R218, R228): a port's raw state and actions are recorded, and a defect is reported exactly when it is raw and
no raw defect of those its row of Table DF-2 lists suppresses it; AIS_OUT follows LOS, OOF, LOF and MS-AIS; a path with a server
signal failure or AIS raises AIS_OUT, and RDI where it terminates; the actions in force wait for the boundary (R16). A block of an error-rate
is complete after its periods; the test at its end declares at 6 errors in 8 blocks (R223). The counts of defective contexts are brought up to
date (R229). -/
def Obligations.DefectVisits : Prop :=
  (∀ (len errs : Nat) (b : Ber), 0 < len →
    (b.period len errs).full = (if len ≤ b.periods + 1 then b.full ++ [b.errs + errs] else b.full)) ∧
  ∀ s : State, s.dev.runs gDefect = true →
    let d := s.dev
    (∀ p : Fin 64, d.hasRecord (portAddr p.val) = true →
      let a := portAddr p.val
      let otu := isOtu (d.portTy p.val)
      let ctl := d.genA (keyCtx O.DEFECT_CTRL a)
      let raw := d.rawPort p.val
      let d1 := d.when (otu && bit raw 10 && !d.clientOof p.val) (fun x => x.holdClient p.val)
      ∃ act rep : Nat,
        (let e := ((d1.wr (keyCtx O.DEFECT_RAW a) raw).wr (keyCtx O.ACTION_STATUS a) act).report a rep
         leaves (.defectVisit (BitVec.ofNat 32 a)) s (e.verifyMark O.VERIFY_RDI_MAP p.val (e.rd (keyCtx O.DEFECT_REPORTED a) &&& 0x4240 != 0)))
        ∧ (∀ i : Nat, i < 28 → bit rep i = (bit raw i &&
            (suppressors true ctl raw &&& suppressPort otu (bits ctl 6 2) i == 0)))
        ∧ (raw &&& 0x27 ≠ 0 → bit act 4 = true) ∧ (raw &&& 0x25 ≠ 0 → bit act 3 = true)) ∧
    (∀ a : Addr, adLevel a.toNat ≠ 3 → d.hasRecord a.toNat = true →
      let raw := d.rawPath a.toNat
      ∃ (act rep : Nat) (e : Dev), leaves (.defectVisit a) s e
        ∧ e.regs = (((d.wr (keyCtx O.DEFECT_RAW a.toNat) raw).wr (keyCtx O.ACTION_STATUS a.toNat) act).report a.toNat rep).regs
        ∧ e.acts = d.acts
        ∧ (∀ i : Nat, bit rep i = true → bit raw i = true)
        ∧ (d.ssf a.toNat = true ∨ bit raw 17 = true → bit act 4 = true ∧ (d.terminates a.toNat = true → bits act 1 2 = 2 ∧ bit act 3 = true))) ∧
    (∀ (a : Addr), d.hasRecord a.toNat = true → threshOf d.active a.toNat false ≠ 0 →
      let b := smLook ({}, {}) d.ber a.toNat
      (∀ (errs : Nat) (r : List Nat), b.1.full = errs :: r → b.1.declared = false →
        let blocks := (errs :: b.1.blocks).take 8
        let next : Ber := if 6 ≤ blocks.sum then { b.1 with full := r, blocks := blocks, run := some (0, 0), declared := true }
          else { b.1 with full := r, blocks := blocks }
        leaves (.berBlockEnd a false) s { d with ber := smPut ({}, {}) d.ber a.toNat (next, b.2) }) ∧
      (b.1.full = [] → leaves (.berBlockEnd a false) s { d with ber := smPut ({}, {}) d.ber a.toNat b })) ∧
    leaves .defectCountUpdate s ((d.wr O.HO_DEFECT_COUNT (d.defective 2)).wr O.LO_DEFECT_COUNT (d.defective 1))

/-! ## Performance monitoring -/

/-- The tick (R234 to R236): a flywheel tick, a loss of PPS_IN and a good edge of a qualified input end the second and give the next
its number, the old one plus 1 or the written one; a third good interval qualifies the input, edges of the other polarity or with
PPS disabled count for nothing; where the tick takes effect every context's second is sealed. -/
def Obligations.Ticks : Prop :=
  ∀ s : State,
    let d := s.dev
    let ticked := fun (e : Dev) => e.rd O.LAST_TICK = d.time ∧ e.pmTime.due = true ∧ e.pmTime.ended = d.pmTime.current
      ∧ (d.pmTime.written = false → d.pmTime.started = true → e.pmTime.current = (d.pmTime.current + 1) % 2 ^ 32
        ∧ e.rd O.PM_SECOND = (d.pmTime.current + 1) % 2 ^ 32)
      ∧ (d.pmTime.written = true → e.pmTime.current = d.rd O.PM_SECOND)
    (d.ticksOwn = true → d.flag O.PM_TIME_STATUS 0 = false → gives .flywheelTick s ticked) ∧
    (d.flag O.PM_TIME_STATUS 0 = true → leaves .flywheelTick s d) ∧
    (d.ticksOwn = true → d.flag O.PM_TIME_STATUS 0 = true → gives .ppsLoss s (fun e => ticked e ∧ e.fld O.PM_TIME_STATUS 0 2 = 0)) ∧
    (∀ (falling : Bool) (interval since : Nat), d.ticksOwn = true →
      let good := fun (n : Nat) => 999900000 ≤ n ∧ n ≤ 1000100000
      (bit (d.genA O.PM_TIME_CTRL) 0 = false ∨ bit (d.genA O.PM_TIME_CTRL) 1 ≠ falling → leaves (.ppsEdge falling interval since) s d) ∧
      (bit (d.genA O.PM_TIME_CTRL) 0 = true → bit (d.genA O.PM_TIME_CTRL) 1 = falling → good interval →
        (d.flag O.PM_TIME_STATUS 0 = true → gives (.ppsEdge falling interval since) s ticked) ∧
        (d.flag O.PM_TIME_STATUS 0 = false → d.pmTime.good < 2 →
          leaves (.ppsEdge falling interval since) s { d with pmTime := { d.pmTime with good := d.pmTime.good + 1 } }) ∧
        (d.flag O.PM_TIME_STATUS 0 = false → d.pmTime.good = 2 → 500000000 ≤ since →
          gives (.ppsEdge falling interval since) s (fun e => ticked e ∧ e.fld O.PM_TIME_STATUS 0 2 = 3)))) ∧
    (d.tickFollows = false → d.pmTime.due = true → gives .tickEffect s (fun e =>
      e.pmTime.due = false ∧ e.pmTime.closed = d.pmTime.ended ∧ e.pins.tick = some d.elapsed
      ∧ e.pm.map (·.1) = d.contexts ∧ (d.runs gPm = true → ∀ q ∈ e.pm, q.2.sealed = some (smLook {} d.pm q.1).acc ∧ q.2.closed = false)))

/-- A close-out counts the sealed second of a path once (R236, R239, R240): its bins count one second more, and a second close-out
changes nothing; a bin in whose words the visit meets an uncorrectable error is INVALID and starts again at 0 (R245). While the monitor is idle
the management controller changes the bins' roles (R237). A snapshot of the clients is taken once for a SYNC, and a gated monitor takes none
(R252, R39). Host accesses of the performance monitor (R234, R246, R253, Table PF-10): PM_SECOND numbers the next second, and loses to a tick
of the same cycle; the clears empty the current bin they name and mark it; CPM_CLEAR 1 zeroes a client's counters; a whole read of
PM_BLOCK moves the selector past its records; a gated monitor discards writes. -/
def Obligations.PmRecords : Prop :=
  (∀ s : State,
    let d := s.dev
    (∀ (a : Addr) (x : PmSec), d.runs gPm = true → (smLook {} d.pm a.toNat).sealed = some x → provisioned d.active a.toNat = true →
      let p := smLook {} d.pm a.toNat
      let t := d.pmTime
      let p1 := if t.whole && !x.fresh then p.count t.closed x (adLevel a.toNat == 2) t.sealedIrr else p.miss t.closed t.sealedIrr
      (∀ bin : Fin 4, p.closed = false → leaves (.closeOutVisit (.path a) .clean bin) s { d with pm := smPut {} d.pm a.toNat { p1 with
        closed := true, b15 := p1.b15.close 900 t.current t.sealedShf t.ticks
        b24 := p1.b24.close 86400 t.current t.sealedShf t.ticks } }) ∧
      (∀ bin : Fin 4, p.closed = true → leaves (.closeOutVisit (.path a) .clean bin) s d ∧
        leaves (.closeOutVisit (.path a) .uncorrectable bin) s ((d.binSpoil a.toNat bin.val).memoryErrorSomewhere 3)) ∧
      (∀ bin : Fin 4, let b := (p.spoil bin.val).bin bin.val
        b.flags = (p.bin bin.val).flags ||| 16 ∧ b.secs = 0 ∧ b.cnt = List.replicate 10 0 ∧ b.start = (p.bin bin.val).start) ∧
      (p.neUn = false → p.feUn = false → p.neRun = 0 → p.feRun = 0 → ∀ (irr ho : Bool),
        (p.count t.closed x ho irr).b15.cur.secs = p.b15.cur.secs + 1 ∧ (p.count t.closed x ho irr).b24.cur.secs = p.b24.cur.secs + 1)) ∧
    (∀ (c : Fin 32) (x : CpmSec), d.runs gPm = true → (smLook {} d.cpm c.val).sealed = some x → d.pmTime.whole = false →
      let p := smLook {} d.cpm c.val
      ∀ (e : Ecc) (bin : Fin 4), leaves (.closeOutVisit (.client c) e bin) s
        (({ d with cpm := smPut {} d.cpm c.val { p with sealed := none, run := 0, last := [] } }).putFlag
        (keyAt O.CPM_STATUS c.val) 0 false)) ∧
    (d.inBoot = false → d.clamped = false → d.runs gPm = false → leaves .managementRollover s { d with pm := d.contexts.map (fun a =>
        let p := smLook {} d.pm a
        (a, { p with b15 := p.b15.roll 900 d.pmTime.current d.pmTime.sealedShf d.pmTime.ticks
                     b24 := p.b24.roll 86400 d.pmTime.current d.pmTime.sealedShf d.pmTime.ticks })) }) ∧
    (d.runs gPm = true → leaves .managementRollover s d) ∧
    (d.pmTime.snap = false → leaves .pmSnapshot s d) ∧
    (d.gateOn gPm = false → leaves .pmSnapshot s (d.onPmTime (fun t => { t with snap := false }))) ∧
    (d.pmTime.snap = true → d.gateOn gPm = true → gives .pmSnapshot s (fun e => e.pmTime.snap = false ∧ e.rd O.SNAP_SECOND = d.pmTime.closed % 2 ^ 64))) ∧
  ∀ (s : State) (m : Master), reachable s m →
    let d := disarmed s m
    let a := d.selected m
    let p := smLook {} d.pm a
    let emptied := fun (b : Bins) => { b with cur := { b.cur with flags := b.cur.flags ||| 8, secs := 0, cnt := List.replicate 10 0 } }
    (d.gateOn gPm = true →
      (∀ v : BitVec 32, accepts (.pmSecond m v false) s m ((d.wr O.PM_SECOND v.toNat).onPmTime (fun t => { t with written := true })) ∧
        accepts (.pmSecond m v true) s m (d.putFlag O.PM_TIME_STATUS 7 true)) ∧
      (adLevel a = 1 ∨ adLevel a = 2 → d.hasRecord a = true →
        accepts (.pmClear15Min m) s m { d with pm := smPut {} d.pm a { p with b15 := emptied p.b15 } } ∧
        accepts (.pmClear24Hour m) s m { d with pm := smPut {} d.pm a { p with b24 := emptied p.b24 } } ∧
        accepts (.pmClearBoth m) s m { d with pm := smPut {} d.pm a { p with b15 := emptied p.b15, b24 := emptied p.b24 } }) ∧
      (d.hasRecord a = false → abortsWith (.pmClear15Min m) s m 0x08000024 d ∧ abortsWith (.pmClear24Hour m) s m 0x08000024 d
        ∧ abortsWith (.pmClearBoth m) s m 0x08000024 d) ∧
      (∀ c : Fin 32,
        let z := [O.CPM_ES, O.CPM_SES, O.CPM_UAT, O.CPM_SECONDS, O.DELAY_MAX, O.ASYM_MAX].foldl (fun w o => w.wr (keyAt o c.val) 0) d
        let q := smLook {} z.cpm c.val
        accepts (.cpmClear m c 1) s m (({ z.wr (keyAt O.DELAY_MIN c.val) 0xFFFFFFFF with
          cpm := smPut {} z.cpm c.val { q with window := [] } }).cpmAlerts c.val))) ∧
    (d.gateOn gPm = false → ∀ (v : BitVec 32) (b : Bool), accepts (.pmSecond m v b) s m d) ∧
    (s.dev.gateOn gPm = true → ∀ len : Nat, len ≠ 0 →
      let k := keyOf O.PM_BLOCK_SELECT (masterNo m)
      let n := min (min 64 (len / 64)) (classSize (bits (s.dev.rd k) 29 3) - bits (s.dev.rd k) 0 16)
      let sel := s.dev.rd k
      let l := (List.range n).flatMap (fun i => (s.dev.byNumber (bits sel 29 3) (bits sel 0 16 + i)).elim (List.replicate 64 0) (fun x =>
        binBytes (bits sel 29 3 == 2) ((smLook {} s.dev.pm x).bin (bits sel 16 2))))
      leaves (.pmBlockRead m { maxLen := len, complete := true, ecc := .clean }) s
        (answered (s.dev.putFld k 0 16 (bits (s.dev.rd k) 0 16 + n)) m 0 l))

/-! ## Protection -/

/-- A selector's visit and a group's timers (R257, R259, R265, R269): a selector with an absent protecting member shows INACTIVE and
decides nothing; WTR's end leaves NR, to select working at the next boundary; an exercise ends; an APS failure is declared while its
cause holds, counted and reported, and clears without it. -/
def Obligations.ProtectionTimers : Prop :=
  ∀ s : State, s.dev.runs gProtection = true →
    let d := s.dev
    (∀ a : Addr, adLevel a.toNat ≠ 3 → protPartner d.active a.toNat ≠ 0 →
      (protActive d.active a.toNat = false → leaves (.selectorVisit a) s (d.putFlag (keyCtx O.SNCP_STATUS a.toNat) 12 true)) ∧
      (protActive d.active a.toNat = true →
        let t := decide1 false (protCtl d.active a.toNat) (d.rd (keyCtx O.SNCP_STATUS a.toNat)) (d.memberTriggers a.toNat)
          (d.memberTriggers (protPartner d.active a.toNat)) d.elapsed (d.protOf a.toNat)
        gives (.selectorVisit a) s (fun e => e.protOf a.toNat = { t.p with want := t.sel }
          ∧ e.rd (keyCtx O.SNCP_COMMAND a.toNat) = t.p.cmd % 2 ^ 64))) ∧
    (∀ (t : ProtTarget) (x : Nat), (d.protOf (targetAddr t)).wtr = some x → leaves (.wtrExpiry t) s
      (((d.onProt (targetAddr t) (fun p => { p with wtr := none, want := false })).putFld (protStatus (targetAddr t)) 8 4 0).putFlag
        (protStatus (targetAddr t)) 7 false)) ∧
    (∀ (t : ProtTarget) (k : Member), protActive d.active (targetAddr t) = true → gives (.holdOffExpiry t k) s (fun e =>
      (k = .working → (d.protOf (targetAddr t)).holdW = some (false, false) →
        (d.memberTriggers (targetAddr t) &&& bits (protCtl d.active (targetAddr t)) 0 6 &&& 0x1F ≠ 0 →
          (e.protOf (targetAddr t)).holdW = some (false, true)) ∧
        (d.memberTriggers (targetAddr t) &&& bits (protCtl d.active (targetAddr t)) 0 6 &&& 0x1F = 0 →
          (e.protOf (targetAddr t)).holdW = none)))) ∧
    (∀ p : Fin 64, leaves (.exerciseEnd p) s (d.onProt (portAddr p.val) (fun x => { x with exer := false }))) ∧
    (∀ (p : Fin 64) (f : ApsFailure), protActive d.active (portAddr p.val) = true →
      (d.apsCause p.val f = true → d.flag (keyAt O.MSP_STATUS p.val) (apsBit f) = false → leaves (.fopDeclare p f) s
        ((((d.putFlag (keyAt O.MSP_STATUS p.val) (apsBit f) true).putFlag (keyAt O.MSP_STATUS p.val) 20 true).count
          (keyAt O.FOP_COUNT p.val) 1).raise { cls := clsProtection, inst := 0, level := 3, addr := portAddr p.val
                                               detail := apsCode f * 2 ^ 24 })) ∧
      (d.apsCause p.val f = false → leaves (.fopDeclare p f) s d ∧
        leaves (.apsFailureClear p f) s (d.putFlag (keyAt O.MSP_STATUS p.val) (apsBit f) false)))

/-- The external commands (R173, R264, Table PS-9): a command on a group or a selector with a protecting member waits for its next
visit, is refused in Shadow, and aborts 0800 0024h on a context that the active generation does not provision. -/
def Obligations.ProtectionCommands : Prop :=
  ∀ (s : State) (m : Master) (t : ProtTarget) (c : Instr) (n : Nat), reachable s m →
    (c, n) ∈ [(Instr.clear m t, 1), (.lockoutOfProtection m t, 2), (.forcedSwitchToProtection m t, 3), (.forcedSwitchToWorking m t, 4),
      (.manualSwitchToProtection m t, 5), (.manualSwitchToWorking m t, 6), (.exercise m t, 7)] →
    let d := disarmed s m
    let w := targetAddr t
    d.gateOn gProtection = true →
    (adLevel w = 3 ∨ provisioned d.active w = true →
      (d.inShadow = false → (d.inService && d.paired && d.shadowReady) = false →
        (protPartner d.active w ≠ 0 → accepts c s m (d.onProt w (fun p => { p with next := some n }))) ∧
        (protPartner d.active w = 0 → accepts c s m d)) ∧
      (d.inShadow = true → abortsWith c s m 0x08000022 d)) ∧
    (adLevel w ≠ 3 → provisioned d.active w = false → abortsWith c s m 0x08000024 d)

/-! ## Clients -/

/-- A client port that works (R281 to R284, R448): a defect that its type has is declared once, the client defects among them latched
and marking the second; clearing and LOMF likewise; a frame's bits enter the ingress queue of the mapper, and an errored one counts while no
client defect is raw; a slip recentres the queue, starvation empties the de-jitter buffer, and an overflow discards down to the target; all
three are latched and reported; starvation ends at the target. A port that does not work ignores all of them. -/
def Obligations.ClientReceives : Prop :=
  ∀ (s : State) (c : Fin 32),
    let d := s.dev
    let k := keyAt O.CLIENT_STATUS c.val
    let event := fun (x : Nat) => ({ cls := clsClient, inst := c.val, level := 1, addr := d.boundPath c.val, detail := x } : Ev)
    let target := (d.clientOf c.val).target
    (d.clientRuns c.val = true →
      (∀ f : ClientDefect, defectApplies f (d.clientType c.val) = true → d.flag k (defectBit f) = false →
        let marked := (d.putFlag k (defectBit f) true).verifyMark O.VERIFY_CLIENT_MAP c.val (f == .rai)
        (5 ≤ defectBit f → leaves (.clientDefectDeclare c f) s marked) ∧
        (defectBit f < 5 → leaves (.clientDefectDeclare c f) s ((marked.putFlag k 13 true).onCpmAcc c.val
          (fun a => { a with defect := true })))) ∧
      (∀ f : ClientDefect, leaves (.clientDefectClear c f) s (d.putFlag k (defectBit f) false)) ∧
      (d.clientType c.val = 3 → d.flag k 3 = false → leaves (.lomfTimeout c) s ((((d.putFlag k 3 true).verifyMark O.VERIFY_CLIENT_MAP c.val false).putFlag
        k 13 true).onCpmAcc c.val (fun a => { a with defect := true }))) ∧
      (∀ data : List Byte,
        let queued := d.ingressPush c.val data
        leaves (.clientReceiveFrame c false data) s queued ∧
        (d.clientDown c.val = true → leaves (.clientReceiveFrame c true data) s queued) ∧
        (d.clientType c.val ≠ 6 → (d.clientOf c.val).ingress.length + data.length * 8 ≤ 4096 → data.length * 8 ≤ frameBits (d.clientType c.val) →
          (queued.clientOf c.val).ingress = (d.clientOf c.val).ingress ++ bitsOf data) ∧
        (d.clientDown c.val = false → d.clientType c.val ≠ 1 → leaves (.clientReceiveFrame c true data) s
          ((queued.count (keyAt O.CLIENT_ERRORS c.val) 1).onCpmAcc c.val (fun a => { a with events := a.events + 1 })))) ∧
      leaves (.ingressSlip c) s (((d.onClient c.val (fun x => x.recentred c.val)).putFlag k 15 true).raise (event 1)) ∧
      leaves (.bufferOverflow c) s (((d.onClient c.val (fun x => { x.keepNewest target with
        fillAt := target, fillWas := target, since := d.elapsed })).putFlag k 14 true).raise (event 2)) ∧
      ((d.clientOf c.val).starved = false → leaves (.bufferStarved c) s (((d.onClient c.val (fun x =>
        { x with starved := true, fillAt := 0, fillWas := 0, lead := 0, buf := [], since := d.elapsed })).putFlag k 14 true).raise (event 2))) ∧
      ((d.clientOf c.val).starved = true → gives (.starvationEnd c) s (fun e => (e.clientOf c.val).starved = false
        ∧ (e.clientOf c.val).fillAt = target ∧ (e.clientOf c.val).target = target))) ∧
    (d.clientRuns c.val = false → ∀ f : ClientDefect, leaves (.clientDefectDeclare c f) s d ∧ leaves (.clientDefectClear c f) s d
      ∧ leaves (.ingressSlip c) s d ∧ leaves (.bufferStarved c) s d ∧ leaves (.clientVisit c) s d)

/-- A client visit shows the buffer's fill (R284, R295): with PIN_MODE 0 the port is OFF and heads for a fill of 1024 bits. FAR_REPORT
takes 16 bytes whose ROLE is the other end's, and aborts 0607 0010h on another length and 0609 0030h on another role (R288); it is
refused in Shadow (R173). -/
def Obligations.ClientVisitsAndReports : Prop :=
  (∀ (s : State) (c : Fin 32), s.dev.clientRuns c.val = true → s.dev.genFld (keyAt O.PIN_CTRL c.val) 0 2 = 0 →
    gives (.clientVisit c) s (fun e => (e.clientOf c.val).target = 1024 ∧ (e.clientOf c.val).before = none
      ∧ e.fld (keyAt O.PIN_STATUS c.val) 0 3 = 0 ∧ e.rd (keyAt O.BUFFER_FILL c.val) = e.fillNow c.val % 2 ^ 64)) ∧
  (∀ (s : State) (m : Master) (c : Fin 32) (l : List Byte), reachable s m →
    let d := disarmed s m
    let role := (farOf l).role
    d.gateOn gClient = true →
    (d.inShadow = true → abortsWith (.farReport m c l) s m 0x08000022 d) ∧
    (d.inShadow = false →
      (l.length ≠ 16 → abortsWith (.farReport m c l) s m 0x06070010 d) ∧
      (l.length = 16 → (role ≠ 1 ∧ role ≠ 2) ∨ role = d.clientRole c.val → abortsWith (.farReport m c l) s m 0x06090030 d) ∧
      (l.length = 16 → role = 1 ∨ role = 2 → role ≠ d.clientRole c.val → (d.inService && d.paired && d.shadowReady) = false →
        accepts (.farReport m c l) s m (((d.wrStr (keyAt O.FAR_REPORT c.val) l).putFlag (keyAt O.PIN_STATUS c.val) 10 (farOf l).valid).onClient
          c.val (fun x => { x with farNew := (farOf l).valid })))))

/-! ## The tributary fabric -/

/-- Delineation (R299, Table TF-1), on the cell's bytes after the lane's receive polarity (R298): block lock leads to HUNT, its loss to
NO_LOCK; a correct header leads from HUNT to PRESYNC, the sixth in a row to SYNC, seven errored ones in a row back to HUNT. -/
def Obligations.Delineation : Prop :=
  ∀ (s : State) (c : CellLane), s.dev.cellLaneRuns c = true →
    let d := s.dev
    let st := d.fld (laneKey c) 1 2
    let x := d.cellLane c
    let state := fun (e : Dev) => e.fld (laneKey c) 1 2
    (st = 3 → gives (.tfiBlockLock c) s (fun e => state e = 0)) ∧
    (st ≠ 3 → leaves (.tfiBlockLock c) s d) ∧
    (st ≠ 3 → gives (.tfiBlockLockLoss c) s (fun e => state e = 3)) ∧
    (st = 3 → leaves (.tfiBlockLockLoss c) s d) ∧
    (∀ (raw : List Byte) (syncOk : Bool), raw.length = 80 →
      let cell := match c with
        | .tfi l => d.tfiPolar l.val 1 raw
        | .mate _ => raw
      (hec cell = (cell.getD 7 0).toNat →
        (st = 0 → gives (.tfiCellReceived c raw syncOk) s (fun e => state e = 1)) ∧
        (st = 1 → 5 ≤ x.good → gives (.tfiCellReceived c raw syncOk) s (fun e => state e = 2)) ∧
        (st = 1 → x.good < 5 → gives (.tfiCellReceived c raw syncOk) s (fun e => state e = 1 ∧ (e.cellLane c).good = x.good + 1))) ∧
      (hec cell ≠ (cell.getD 7 0).toNat →
        (st = 1 → gives (.tfiCellReceived c raw syncOk) s (fun e => state e = 0)) ∧
        (st = 2 → 6 ≤ x.bad → gives (.tfiCellReceived c raw syncOk) s (fun e => state e = 0)) ∧
        (st = 2 → x.bad < 6 → gives (.tfiCellReceived c raw syncOk) s (fun e => state e = 2 ∧ (e.cellLane c).bad = x.bad + 1))))

/-- Cells (R301, R303, R307, R308, R310, Table TF-5): 64 container bytes of a mapped channel become a DATA cell with the channel's SEQ and,
as CSO, the place at which a container starts in it; in AIS_OUT the cell is all ones, and fewer bytes make none. With 256 cells queued one is
discarded, which is marked. A slot without credit, or with nothing queued, keeps TX_COUNT, and one with both sends the oldest cell of the
lowest class and counts; a lane that stalls with a DATA cell is marked; an empty play-out in RUN enters UNDERRUN, its prefill anew, counted and
reported. -/
def Obligations.CellsAndCredits : Prop :=
  ∀ s : State, s.dev.runs gTfi = true →
    let d := s.dev
    (∀ a : Addr, provisioned d.active a.toNat = true → entryKind (d.mapEntry a.toNat) = 1 →
      let l := entryUnit (d.mapEntry a.toNat)
      let x := d.chOf a.toNat
      let ais := d.aisOut (d.feeding a.toNat)
      let n := contLen (d.pathType a.toNat)
      let cell : Cell := { fin := false, chan := entryTarget (d.mapEntry a.toNat) % 16384, cls := d.genFld (keyCtx O.TFI_CTRL a.toNat) 0 2
                           ais := ais, cso := cellStart n x.pos, seq := x.seq
                           payload := if ais then List.replicate 64 0xFF else x.out.take 64 }
      (ais = false → x.out.length < 64 → leaves (.cellGenerate a) s d) ∧
      (ais = true ∨ 64 ≤ x.out.length →
        ((d.tfiOf l).egress.length < 256 → gives (.cellGenerate a) s (fun e =>
          (e.tfiOf l).egress = (d.tfiOf l).egress ++ [cell] ∧ (e.chOf a.toNat).seq = (x.seq + 1) % 256
          ∧ (e.chOf a.toNat).pos = (x.pos + 64) % n ∧ (ais = false → (e.chOf a.toNat).out = x.out.drop 64))) ∧
        (l < 32 → (d.tfiOf l).egress.length = 256 → gives (.cellGenerate a) s (fun e =>
          (e.tfiOf l).egress.length = 256 ∧ e.flag (keyAt O.TFI_LANE_STATUS l) 8 = true ∧ e.flag O.STARVED_LANE_MAP l = true)))) ∧
    (∀ a : Addr, provisioned d.active a.toNat = true → entryKind (d.mapEntry a.toNat) = 1 → d.fld (keyCtx O.TFI_CH_STATUS a.toNat) 0 2 = 2 →
      leaves (.playoutUnderrun a) s ((((((d.putFld (keyCtx O.TFI_CH_STATUS a.toNat) 0 2 3).playEmpty a.toNat).onCh a.toNat (fun x =>
        { x with held := none, need := d.genFld (keyCtx O.TFI_CTRL a.toNat) 2 3 })).putFlag (keyCtx O.TFI_CH_STATUS a.toNat) 4 true).count
        (keyCtx O.UNDERRUNS a.toNat) 1).raise { cls := clsTfi, inst := entryUnit (d.mapEntry a.toNat), level := adLevel a.toNat
                                                addr := a.toNat, detail := 3 })) ∧
    (∀ l : Fin 32, d.tfiRuns l.val = true →
      let x := d.tfiOf l.val
      (creditFor x = false → (∃ c ∈ x.egress, c.fin = false) →
        leaves (.creditStall l) s (d.putFlag (keyAt O.TFI_LANE_STATUS l.val) 10 true)) ∧
      (creditFor x = true ∨ (∀ c ∈ x.egress, c.fin = true) → leaves (.creditStall l) s d) ∧
      (creditFor x = false ∨ x.egress = [] → gives (.tfiCellSend l) s (fun e =>
        (e.tfiOf l.val).sent = x.sent ∧ (e.tfiOf l.val).egress = x.egress ∧ (e.tfiOf l.val).held = x.held - 1)) ∧
      (∀ (c : Cell) (rest : List Cell), creditFor x = true → nextCell x.egress = some (c, rest) → gives (.tfiCellSend l) s (fun e =>
        (e.tfiOf l.val).sent = (x.sent + 1) % 32768 ∧ (e.tfiOf l.val).egress = rest
        ∧ (d.tfiDrives l.val = false → e.out.tfi = smDrop d.out.tfi l.val))))

/-! ## Pair redundancy -/

/-- The link (R299, R316, R317, Table PA-1): a HEARTBEAT that reaches a unit whose pair logic runs on a lane in SYNC marks the lane and the link
up and is kept, and a DETACHED Shadow resumes its join (R327); on any other lane it is not delivered. The unit sends its own; the loss of
the last one takes the link down, counts and is reported, a unit not in Shadow going on. Phase lock
takes the active's time, frame and second (R322); a FRAME_MARK within 2 cycles keeps a locked Shadow on the active's frame, one
beyond loses the lock as its loss does. -/
def Obligations.PairLink : Prop :=
  ∀ s : State,
    let d := s.dev
    (d.pairRuns = true → d.gateOn gMate = true →
      (∀ h : Heartbeat, d.fld (keyAt O.MATE_LANE_STATUS h.lane.val) 1 2 = 2 → gives (.heartbeat h) s (fun e =>
        e.flag O.PAIR_STATUS (11 + h.lane.val) = true ∧ e.flag O.PAIR_STATUS 10 = true
        ∧ e.rd O.MATE_STATUS = h.status.toNat % 2 ^ 21 ∧ e.pair.mateGen = h.gen.toNat ∧ e.pair.mateCrc = h.crc.toNat
        ∧ (d.inShadow = true → d.pairState = 7 → e.pairState = if d.genCopied = true ∧ d.rd O.ACTIVE_GENERATION = h.gen.toNat
            ∧ d.active.genCrc.toNat = h.crc.toNat then 4 else 3))) ∧
      (∀ h : Heartbeat, d.fld (keyAt O.MATE_LANE_STATUS h.lane.val) 1 2 ≠ 2 → leaves (.heartbeat h) s d) ∧
      leaves .heartbeatSend s (d.sendMate (.heartbeat (d.rd O.PAIR_STATUS % 2 ^ 21) d.pairFrame (d.rd O.ACTIVE_GENERATION)
        d.active.genCrc.toNat))) ∧
    (d.pairRuns = false → (∀ h : Heartbeat, leaves (.heartbeat h) s d) ∧ leaves .heartbeatSend s d) ∧
    (d.linkUp = false → leaves .heartbeatLoss s d) ∧
    (d.linkUp = true → d.inShadow = false → ∃ e : Dev, leaves .heartbeatLoss s ((e.cancelEarly 5).pairEvent 2)
      ∧ e.flag O.PAIR_STATUS 10 = false ∧ e.flag O.PAIR_STATUS 22 = true ∧ e.flag O.PAIR_STATUS 15 = false ∧ e.rd O.MATE_STATUS = 0
      ∧ e.pair.part = none ∧ e.pair.agreed = none) ∧
    (∀ f : FrameMark, d.inShadow = true → d.pairRuns = true → d.linkUp = true →
      leaves (.phaseLock f) s (((((d.putFlag O.PAIR_STATUS 15 true).wr O.DEVICE_TIME f.time.toNat).wr O.PAIR_FRAME f.frame.toNat).wr
        O.PM_SECOND f.second.toNat).onPmTime (fun t => { t with current := f.second.toNat, started := true })) ∧
      (d.flag O.PAIR_STATUS 15 = true → f.error ≤ 2 → leaves (.frameMark f) s ((d.wr O.PAIR_FRAME f.frame.toNat).onPair (fun p =>
        { p with mateTick := f.tick, mateSecond := f.second.toNat }))) ∧
      (d.flag O.PAIR_STATUS 15 = true → 2 < f.error → exec (.frameMark f) s = exec .phaseLockLoss s) ∧
      (d.flag O.PAIR_STATUS 15 = true → ∃ e : Dev, leaves .phaseLockLoss s (e.pairEvent 7) ∧ e.flag O.PAIR_STATUS 15 = false
        ∧ e.flag O.PAIR_STATUS 26 = true ∧ e.pair.part = none))

/-- Joining (R324 to R329): a join starts in a locked Shadow with all lanes up before an active unit; records of the running part are
written and the others ignored, and nothing moves while a lane is down (R325); of a dynamic part the values that are context state are
written (Table PA-3), and those of guarded and `gen` objects are not (R12); the end of each good part leads to the next, that of the PM part
to SYNCING, a bad one counts, and the third ends the copy; 16 matching signatures make a SYNCING unit READY, a differing source is counted and
starts the count again. -/
def Obligations.PairJoins : Prop :=
  ∀ s : State,
    (s.dev.copyOn = false → (s.dev.inService = false → leaves .joinStart s s.dev) ∧ (∀ c : CopyPart, leaves (.copy c) s s.dev) ∧
      ∀ (p : PartName) (ok : Bool), leaves (.endRecord p ok) s s.dev) ∧
    (s.dev.copyOn = true →
    let d := s.dev
    (d.flag O.PAIR_STATUS 15 = true → d.fld O.MATE_STATUS 0 4 = 1 → d.pair.fails < 3 → d.pairState = 3 →
      leaves .joinStart s ((d.wr O.COPY_PROGRESS (2 ^ 30)).onPair (fun p => { p with part := some .generation }))) ∧
    (∀ (b : Bank) (n : Nat), d.pair.part = some .generation → gives (.copy (.generation b n)) s (fun e => e.pendingBank = b
      ∧ e.active = d.active)) ∧
    (∀ (k : Key) (v : Word) (n : Nat), d.pair.part = some .dynamic → gives (.copy (.dynamic [.word k v] n)) s (fun e =>
      (copyable k = true → k ≠ O.COPY_PROGRESS → e.rd k = v.toNat) ∧
      (∀ j : Key, j ≠ O.COPY_PROGRESS → j ≠ k ∨ copyable k = false → e.rd j = d.rd j) ∧ e.bankA = d.bankA ∧ e.bankB = d.bankB)) ∧
    (∀ (a : Addr) (x : PmCtx) (n : Nat), d.pair.part = some .pm → gives (.copy (.pm [(a, x)] n)) s (fun e =>
      smLook {} e.pm a.toNat = x ∧ e.fld O.COPY_PROGRESS 30 2 = 3)) ∧
    ((∀ (k : Key) (o : ObjDef), copyable k = true → findObj k.idx k.sub = some o → o.guard = false ∧ o.gen = false) ∧
      copyable O.PAIR_CTRL = false ∧ copyable O.PAIR_STATUS = false ∧ copyable O.MODE_STATUS = false
      ∧ copyable O.BLOCK_CLOCK_ENABLE = false) ∧
    (∀ (b : Bank) (n : Nat), d.pair.part ≠ some .generation → leaves (.copy (.generation b n)) s d) ∧
    (d.pair.part = some .dynamic → leaves (.endRecord .dynamic true) s ((d.wr O.COPY_PROGRESS (3 * 2 ^ 30)).onPair (fun x =>
      { x with part := some .pm, fails := 0 }))) ∧
    (d.pair.part = some .pm → leaves (.endRecord .pm true) s ((((d.wr O.COPY_PROGRESS 0).setPairState 5).wr O.SYNC_FRAMES 0).onPair (fun x =>
      { x with part := none, run := 0 }))) ∧
    (d.pair.part = some .generation → gives (.endRecord .generation true) s (fun e => e.pairState = 4 ∧ e.flag O.PAIR_STATUS 4 = true
      ∧ e.pair.part = some .dynamic ∧ e.prov.sched = some { committed := true, copied := true })) ∧
    (∀ p : PartName, d.pair.part = some p → gives (.endRecord p false) s (fun e => e.pair.fails = d.pair.fails + 1
      ∧ e.pair.part = if d.pair.fails + 1 < 3 then some p else none)) ∧
    (∀ (p q : PartName) (ok : Bool), d.pair.part = some p → q ≠ p → leaves (.endRecord q ok) s d) ∧
    (d.linkUp = true → d.pairState = 5 → ∀ (f : BitVec 32) (l : List (BitVec 32)) (own : SMap Word),
      d.pair.sigHist.find? (fun e => e.1 == f.toNat) = some (f.toNat, own) →
      (mismatches own l = [] → d.rd O.SYNC_FRAMES < 15 →
        leaves (.signatures f l) s ((d.wr O.SYNC_FRAMES (d.rd O.SYNC_FRAMES + 1)).onPair (fun p => { p with run := 0 }))) ∧
      (mismatches own l = [] → d.rd O.SYNC_FRAMES = 15 → gives (.signatures f l) s (fun e => e.pairState = 6 ∧ e.rd O.SYNC_FRAMES = 16)) ∧
      (∀ (src : Nat) (r : List Nat), mismatches own l = src :: r → ∃ e : Dev, leaves (.signatures f l) s (e.pairEvent 3)
        ∧ e.rd O.SYNC_FRAMES = 0 ∧ e.pair.run = d.pair.run + 1 ∧ e.flag O.PAIR_STATUS 23 = true)))

/-- Claims and handovers (R318 to R320, R330 to R338): a claim on CLAIM_IN closes the gate, its end leaves a unit that is not a paired
Shadow as it was; a grant opens the gate of a claiming unit, and a unit that stands alone does nothing more; a READY Shadow answers
a RELEASE by claiming; a request is granted by the active, or not at all while a self-check runs; a grant agrees the boundary; an
unanswered one is given up; at the boundary, and not before, the unit that takes claims, and the other releases and enters Shadow. -/
def Obligations.PairClaims : Prop :=
  ∀ s : State,
    let d := s.dev
    (d.claiming = false → leaves .claimInDetect s (((d.putFlag O.PAIR_STATUS 9 true).putFlag O.PAIR_STATUS 8 false).putFlag O.PAIR_STATUS 6 false)) ∧
    (d.inShadow = false → leaves .claimInLoss s (d.putFlag O.PAIR_STATUS 9 false)) ∧
    (d.claiming = true → d.claimIn = false → d.granted = false → d.paired = false →
      leaves .claimGrant s ((d.putFlag O.PAIR_STATUS 8 true).putFlag O.PAIR_STATUS 6 true)) ∧
    (d.claiming = false ∨ d.claimIn = true → leaves .claimGrant s d) ∧
    (d.inShadow = true → d.pairRuns = true → d.linkUp = true → d.claimIn = false → d.claiming = false →
      leaves .interlockFault s ((d.putFlag O.PAIR_STATUS 27 true).pairEvent 6 true)) ∧
    (∀ c : Fin 8, d.inShadow = true → d.pairRuns = true → d.pairState = 6 → d.faulty = false → d.suspect = false →
      (d.claimIn = false → gives (.release c) s (fun e => e.claiming = true ∧ e.pairState = 2 ∧ e.pair.cause = c.val)) ∧
      (d.claimIn = true → leaves (.release c) s (d.onPair (fun p => { p with released := some c.val })))) ∧
    (∀ (b : BitVec 32) (c : Fin 8), d.inService = true → d.paired = true → d.pairState = 1 →
      let at_ := laterFrame b.toNat ((d.pairFrame + 2) % 2 ^ 32)
      (d.pair.check = false → d.fld O.MATE_STATUS 0 4 = 6 → d.prov.sched = none → leaves (.revertRequest b c) s
        ((d.sendMate (.revertGrant at_)).onPair (fun p => { p with agreed := some { boundary := at_, takes := false, cause := 6 } }))) ∧
      (d.pair.check = true → leaves (.revertRequest b c) s d)) ∧
    (∀ (b : BitVec 32) (f c : Nat), d.pair.request = some (f, c) → leaves (.revertGrant b) s (d.onPair (fun p =>
      { p with request := none, agreed := some { boundary := b.toNat, takes := c == 6, cause := c } }))) ∧
    (∀ f : Nat, d.pair.request = some (f, 5) → leaves .grantTimeout s ((d.onPair (fun p => { p with request := none })).wr O.FORCE_HANDOVER 0)) ∧
    (d.pair.revertAt ≠ none → d.home = true → d.inShadow = true → d.pairRuns = true → d.pairState = 6 → d.faulty = false →
      d.suspect = false → d.unresolved = false → d.flag O.PAIR_CTRL 1 = true → leaves .revertWtrExpiry s (((d.onPair (fun p => { p with revertAt := none })).sendMate
        (.revertRequest ((d.pairFrame + 2) % 2 ^ 32) 6)).onPair (fun p => { p with request := some (d.pairFrame, 6) }))) ∧
    (∀ x : Agreed, d.pair.agreed = some x →
      (frameReached d.pairFrame x.boundary = false → leaves .handover s d) ∧
      (frameReached d.pairFrame x.boundary = true → d.linkUp = true →
        (x.takes = true → gives .handover s (fun e =>
          e.claiming = true ∧ e.pair.cause = x.cause ∧ e.pair.agreed = none ∧ (d.paired = true → e.pairState = 2))) ∧
        (x.takes = false → x.cause ≠ 7 → gives .handover s (fun e => e.claiming = false ∧ e.gateOpen = false ∧ e.modeCode = 3
          ∧ e.pairState = 5 ∧ e.rd O.SYNC_FRAMES = 0 ∧ .release x.cause ∈ e.out.mate)))) ∧
    (d.pair.agreed = none → leaves .handover s d)

/-- Self-checks and verification (R330, R331, R341): a start clears the results; the unit's own result goes to the mate and its own item,
with a gated check-value unit failing the bank check; the mate's result is kept; a late one counts as a fail; the verification window
ends with what it found. PAIR_CTRL and FORCE_HANDOVER take their guarded values (R340, Table PA-12). -/
def Obligations.PairChecksAndControls : Prop :=
  (∀ s : State,
    let d := s.dev
    (d.pairRuns = true → d.pair.check = false → leaves (.selfCheck none) s ((d.scanHold.wr O.SELF_CHECK_RESULT 0).onPair (fun p =>
      { p with check := true, ownCheck := none, mateCheck := none }))) ∧
    (∀ r : CheckResult, d.pairRuns = true → d.pair.check = true → d.pair.ownCheck = none → leaves (.selfCheck (some r)) s
      ((d.putFld O.SELF_CHECK_RESULT 8 4 (1 + 2 * ofBit r.bank + 4 * ofBit r.ecc + 8 * ofBit r.datapath)).onPair (fun p =>
        { p with mateCheck := some r }))) ∧
    (∀ r : CheckResult, d.pair.check = true → d.pair.ownCheck = none → d.pair.mateCheck = none → gives (.selfCheckEnd r) s (fun e =>
      let own : CheckResult := { r with bank := r.bank || !d.gateOn gCheck, ecc := r.ecc || d.pair.eccSeen }
      e.pair.ownCheck = some own ∧ e.out.mate = d.out.mate ++ [.selfCheck (some own)]
      ∧ e.fld O.SELF_CHECK_RESULT 0 4 = 1 + 2 * ofBit own.bank + 4 * ofBit own.ecc + 8 * ofBit own.datapath)) ∧
    (∀ r : CheckResult, d.pair.check = true → d.pair.mateCheck = none → d.pair.ownCheck = some r → checkFails r = false →
      leaves .selfCheckTimeout s (((d.putFlag O.SELF_CHECK_RESULT 12 true).scanHold.onPair (fun p => { p with check := false, run := 0 })).checkEvent false)) ∧
    (d.pair.check = false → leaves .selfCheckTimeout s d) ∧
    (d.pair.verify = true → ∃ e : Dev, ∃ b : Bool, leaves .verifyWindowEnd s (e.pairEvent (8 + 256 * ofBit b)) ∧ e.pair.verify = false
      ∧ e.rd O.VERIFY_STATUS = 4 + 2 * ofBit b) ∧
    (d.pair.verify = false → leaves .verifyWindowEnd s d)) ∧
  (∀ (s : State) (m : Master),
    (∀ v : BitVec 32, armedFor s m 0x2501 1 v.toNat →
      let d := taken s m
      let old := d.rd O.PAIR_CTRL
      let e := d.wr O.PAIR_CTRL (v.toNat &&& 0xFFFFFEFF)
      (old ^^^ v.toNat) &&& 0xFFFFFEFC = 0 → bit v.toNat 0 = bit old 0 ∨ (bit v.toNat 0 = true ∧ d.inService = false ∧ d.inShadow = false) →
      (bit v.toNat 8 = false → accepts (.pairCtrl m v) s m (if bit v.toNat 1 = bit old 1 then e else e.restartRevert)) ∧
      (bit v.toNat 8 = true → accepts (.pairCtrl m v) s m (e.putFld O.PAIR_STATUS 16 3 0).restartRevert)) ∧
    (armedFor s m 0x2501 2 1 →
      let d := taken s m
      (d.pairState = 1 → d.mateReady = true → d.pair.request = none → d.pair.agreed = none →
        accepts (.forceHandover m) s m (((d.wr O.FORCE_HANDOVER 1).sendMate (.revertRequest ((d.pairFrame + 2) % 2 ^ 32) 5)).onPair (fun p =>
          { p with request := some (d.pairFrame, 5) }))) ∧
      (d.pairState ≠ 1 → abortsWith (.forceHandover m) s m 0x08000022 d)))

/-! ## Operating modes -/

/-- Requests for a mode (R348, R349): one that Table MO-5 has no cause against is recorded in its object and starts the transition; any
other aborts 0800 0022h and leaves its cause in MODE_STATUS. Nothing is accepted in Clamp, while a transition runs, or where Table MO-4
lists no transition through that object. The order of the causes is the model's reading (log entry 17). WAKE_CTRL (R352): WAKE_MODE 3 aborts
0609 0030h, any other value is taken; a write that changes a `rsvd` bit stops the model, since the manual gives it undocumented effects (R47;
log entry 7). -/
def Obligations.ModeRequests : Prop :=
  ∀ (s : State) (m : Master), reachable s m →
    (∀ (c : Instr) (t : Nat), (c, t) ∈ [(Instr.modeRequestInert m, 1), (.modeRequestService m, 2), (.modeRequestShadow m, 3),
        (.modeRequestQuiesce m, 4)] →
      let d := disarmed s m
      (modeRefusal d t false = 0 → accepts c s m ((d.wr O.MODE_REQUEST t).startTransition t)) ∧
      (modeRefusal d t false ≠ 0 → abortsWith c s m 0x08000022
        ((d.putFld O.MODE_STATUS 16 4 (modeRefusal d t false)).set1 O.MODE_STATUS 21))) ∧
    (∀ (c : Instr) (t : Nat), (c, t) ∈ [(Instr.modeGuardedInert m, 1), (.modeGuardedShadow m, 3), (.modeGuardedQuiesce m, 4),
        (.modeGuardedBisque m, 5)] → armedFor s m 0x2001 2 t →
      let d := taken s m
      (modeRefusal d t true = 0 → accepts c s m ((d.wr O.MODE_GUARDED t).startTransition t)) ∧
      (modeRefusal d t true ≠ 0 → abortsWith c s m 0x08000022
        ((d.putFld O.MODE_STATUS 16 4 (modeRefusal d t true)).set1 O.MODE_STATUS 21))) ∧
    (∀ (d : Dev) (t : Nat) (g : Bool), t < 8 →
      (modeRefusal d t g = 0 → d.clamped = false ∧ d.mode.trans = none ∧ modeListed d.modeCode t = true ∧ modeNeedsGuard d.modeCode t = g)
      ∧ (d.startTransition t).flag O.MODE_STATUS 10 = true ∧ (d.startTransition t).fld O.MODE_STATUS 4 3 = t
      ∧ (d.startTransition t).mode.trans.map (fun x => x.target) = some t) ∧
    (∀ v : BitVec 8,
      let d := disarmed s m
      (bits v.toNat 1 2 = 3 → abortsWith (.wakeCtrl m v) s m 0x06090030 d) ∧
      (bits v.toNat 1 2 ≠ 3 → (d.rd O.WAKE_CTRL ^^^ v.toNat) &&& 0xF8 = 0 → accepts (.wakeCtrl m v) s m (d.wr O.WAKE_CTRL v.toNat)) ∧
      (bits v.toNat 1 2 ≠ 3 → (d.rd O.WAKE_CTRL ^^^ v.toNat) &&& 0xF8 ≠ 0 → exec (.wakeCtrl m v) s = .fault .rsvdChanged))

/-- The mode changes at the boundary (R350): not in Clamp, while the pair's handshake runs or while a swap is committed; otherwise MODE
takes the target (Shadow in place of Service when a paired unit finds a claim, R320), the change is stamped and the transition ended. In
Inert and Quiesce the claim has stopped; a running mode starts its functions and its claim or join. -/
def Obligations.ModeChangeAtFrame : Prop :=
  ∀ s : State,
    let d := s.dev
    (d.mode.trans = none → leaves .modeChange s d) ∧
    (∀ t : Trans, d.mode.trans = some t →
      (d.clamped = true ∨ t.handshake.isSome = true ∨ d.swapCommitted = true → leaves .modeChange s d) ∧
      (d.clamped = false → t.handshake = none → d.swapCommitted = false →
        (t.target = 1 ∨ t.target = 4 → gives .modeChange s (fun e => e.modeCode = t.target ∧ e.mode.trans = none
          ∧ e.rd O.MODE_ENTRY_TIME = d.time ∧ e.flag O.PAIR_STATUS 7 = false ∧ e.bankA = d.bankA ∧ e.bankB = d.bankB)) ∧
        (t.target = 2 ∨ t.target = 3 ∨ t.target = 5 →
          let g := if t.target = 2 ∧ d.paired = true ∧ d.claimIn = true then 3 else t.target
          let x := (d.cancelEarly 3).recordMode g
          x.modeCode = g ∧ x.mode.trans = none ∧
          leaves .modeChange s (((if d.inInert || d.inQuiesce then x.receiveStart else x.actionsStart).when d.inService
            Dev.stopClaim).enterClaim g))))

/-- Resets and Boot (R353 to R357, R420, R422, R428, R462): every reset leads to Boot with its cause and the straps sampled, and keeps what
the OTP and Saggar's store hold; RESET_N below 2 µs does nothing, from 10 µs on resets with cause 1, and between them does one of the two
whole (`fresh` advances the model's own counter of open values and nothing else); the watchdog is paused while the controller is halted. Boot clears
memory, verifies a slot, falls back where BOOT_SEL allows it, halts otherwise, and ends in Inert with generation 0 in both banks. -/
def Obligations.ResetsAndBoot : Prop :=
  ∀ (s : State) (x : Straps),
    let d := s.dev
    exec (.powerOn x) s = .next { s with dev := d.rebooted 0 x.toNat } ∧
    (∀ n : Nat, (n < 2000 → exec (.resetN n x) s = .next s) ∧
      (2000 ≤ n → n < 10000 → exec (.resetN n x) s = .next { s with dev := d.fresh } ∨
        exec (.resetN n x) s = .next { s with dev := d.fresh.rebooted 1 x.toNat }) ∧
      (10000 ≤ n → exec (.resetN n x) s = .next { s with dev := d.rebooted 1 x.toNat })) ∧
    (d.halted = true → exec (.watchdogExpiry x) s = .next s) ∧
    (d.halted = false → exec (.watchdogExpiry x) s = .next { s with dev := d.rebooted 2 x.toNat }) ∧
    (∀ m : Master, armedFor s m 0x2001 3 1 → accepts (.unitReset m x) s m ((taken s m).rebooted 3 x.toNat)) ∧
    (∀ c : Nat, c < 4 →
      let e := d.rebooted c x.toNat
      e.inBoot = true ∧ e.rd O.RESET_CAUSE = c ∧ e.fld O.STRAPS 0 11 = x.toNat ∧ e.debug = 0 ∧ e.bankA = {} ∧ e.bankB = {}
      ∧ e.spi.queue = [] ∧ (d.sec.burns = [] → e.lifecycle = d.lifecycle ∧ e.rd O.ROLLBACK_COUNTER = d.rd O.ROLLBACK_COUNTER
        ∧ e.rd O.REPORT_COUNTER = d.rd O.REPORT_COUNTER ∧ e.rdStr O.OWNER_KEY_FP = d.rdStr O.OWNER_KEY_FP)
      ∧ ∀ v : Nat, v < 4 → d.sec.burns = [.lifecycle v] → e.lifecycle = v) ∧
    (d.inBoot = true → d.mode.boot = .memoryClear → leaves .sramClearEnd s (d.onMode (fun y => { y with boot := .firstSlot }))) ∧
    (∀ c : SlotContent, d.inBoot = true → d.clamped = false →
      (d.mode.boot = .firstSlot → gives (.bootSlotVerify c) s (fun e => e.inBoot = true ∧
        (slotError d false c = 0 → e.mode.boot = .firmware ∧ e.mode.slot = bootSlot d false ∧ e.mode.fallback = false) ∧
        (slotError d false c ≠ 0 → e = d.onMode (fun y => { y with
          bootError := slotError d false c, boot := if d.fld O.STRAPS 8 2 < 2 then .secondSlot else .halted })))) ∧
      (d.mode.boot = .secondSlot → gives (.bootSlotVerify c) s (fun e => e.inBoot = true ∧
        (slotError d true c = 0 → e.mode.boot = .firmware ∧ e.mode.slot = bootSlot d true ∧ e.mode.fallback = true) ∧
        (slotError d true c ≠ 0 → e = d.onMode (fun y => { y with bootError := slotError d true c, boot := .halted }))))) ∧
    (∀ (b : List Byte) (segments second : Bool), slotError d second (.manifest b segments) = 0 ↔ manifestFits b = true
      ∧ manifestSigned d b = true ∧ segments = true ∧ d.rd O.ROLLBACK_COUNTER ≤ ofBytesBE (manifestAt b 4 4)) ∧
    (∀ second : Bool, slotError d second .unreadable = 7) ∧
    (∀ n : BitVec 8, d.inBoot = true → d.clamped = false → d.mode.boot = .firmware → d.flag O.CLOCK_STATUS 6 = true →
      gives (.bootEnd n) s (fun e => e.modeCode = 1 ∧ e.bankA = generation0 ∧ e.bankB = generation0 ∧ e.rd O.ACTIVE_OP = 2
        ∧ e.clamped = false))

/-! ## Kiln -/

/-- Sources, supplies and Clamp (R361 to R369, R380, R381): a monitor that trips takes its source's bit, but a reference keeps only its
stopped-clock check while the crystal is not qualified; the management domain
falls back to the internal oscillator, the line reference to the next usable one, and a stopped core PLL or a low supply enters Clamp with its
cause shown and kept; causes end with what they name, and Clamp is left when none remains and every domain has a source; the recorded
mode then leads to Inert. -/
def Obligations.ClockSources : Prop :=
  ∀ s : State,
    let d := s.dev
    (∀ (x : Source) (stopped : Bool), d.qualified x = false → leaves (.monitorTrip x stopped) s d) ∧
    (∀ stopped : Bool, d.qualified .mgmtPll = true → d.qualified .intosc = true → d.flag O.CLOCK_STATUS 8 = false →
      gives (.monitorTrip .mgmtPll stopped) s (fun e => e.flag O.CLOCK_STATUS 8 = true ∧ e.flag O.CLOCK_STATUS 9 = false
        ∧ e.flag O.TIME_STATUS 0 = true)) ∧
    (∀ stopped : Bool, d.qualified .corePll = true → gives (.monitorTrip .corePll stopped) s (fun e =>
      e.flag O.CLOCK_STATUS 10 = false ∧ e.flag O.CLAMP_CAUSE 1 = true ∧ e.flag O.CLAMP_CAUSE 17 = true)) ∧
    (d.qualified .xtal = false → ∀ x : Source, x = .refA ∨ x = .refB → leaves (.monitorTrip x false) s d) ∧
    (∀ stopped : Bool, d.inBoot = false → d.qualified .refA = true → stopped = true ∨ d.qualified .xtal = true → d.refSelected = 0 →
      d.refUsable 1 = true → leaves (.monitorTrip .refA stopped) s
        (((((d.putFlag O.CLOCK_STATUS 4 false).count O.MONITOR_TRIPS 1).set1 O.CLOCK_STATUS 21).clockEvent
        1).switchRef 1 stopped)) ∧
    (∀ x : Source, d.inBoot = false → d.refSelected ≠ 3 → (x ≠ .intosc → x ≠ .xtal → d.qualified .xtal = true) →
      (x = .xtal ∨ x = .refA ∨ x = .refB ∨ x = .synth ∨ x = .mgmtPll →
        leaves (.sourceQualified x) s (d.putFlag O.CLOCK_STATUS (sourceBit x) true)) ∧
      (∀ mask : Nat, (x, mask) ∈ [(Source.intosc, 1), (.corePll, 2), (.tfiPll, 4)] →
        (x = .intosc → d.flag O.CLAMP_CAUSE 0 = false ∨ d.flag O.CLOCK_STATUS 8 = true) → leaves (.sourceQualified x) s
          ((d.putFlag O.CLOCK_STATUS (sourceBit x) true).causeEnds mask)) ∧
      (x = .intosc → d.flag O.CLAMP_CAUSE 0 = true → d.flag O.CLOCK_STATUS 8 = false → gives (.sourceQualified x) s (fun e =>
        e.qualified .intosc = true ∧ e.flag O.CLOCK_STATUS 8 = true ∧ e.flag O.TIME_STATUS 0 = true ∧ e.flag O.CLAMP_CAUSE 0 = false))) ∧
    (d.inBoot = false → d.refSelected = 3 → d.qualified .xtal = true → d.genBit O.REF_CTRL 0 = true →
      gives (.sourceQualified .refA) s (fun e => e.refSelected = 0 ∧ e.flag O.CLAMP_CAUSE 3 = false)) ∧
    (∀ r : Rail, (d.clamped = false → gives (.supplyLow r) s (fun e => e.flag O.CLAMP_CAUSE (railBit r) = true
        ∧ e.flag O.CLAMP_CAUSE (16 + railBit r) = true ∧ e.clamped = true)) ∧
      (d.clamped = true → leaves (.supplyLow r) s (d.wr O.CLAMP_CAUSE
        (d.rd O.CLAMP_CAUSE ||| 2 ^ railBit r ||| 2 ^ railBit r * 2 ^ 16))) ∧
      gives (.supplyRestored r) s (fun e => e.flag O.CLAMP_CAUSE (railBit r) = false
        ∧ ∀ i : Nat, i ≠ railBit r → e.flag O.CLAMP_CAUSE i = d.flag O.CLAMP_CAUSE i)) ∧
    (d.rd O.CLAMP_CAUSE % 2 ^ 16 ≠ 0 → leaves .clampRelease s d) ∧
    (d.clamped = true → d.rd O.CLAMP_CAUSE % 2 ^ 16 = 0 → d.flag O.CLOCK_STATUS 8 = false → d.qualified .mgmtPll = true →
      d.qualified .corePll = true → d.qualified .tfiPll = true →
      gives .clampRelease s (fun e => e.clamped = false ∧ (2 ≤ d.modeCode → e.modeCode = 1))) ∧
    (d.inBoot = false → d.refSelected ≠ 3 → d.refUsable 0 = true → (d.refSelected = 2 ∨ (d.refSelected = 1 ∧ d.genBit O.REF_CTRL 3 = true)) →
      leaves (.referenceReturn .refA) s (d.switchRef 0 false)) ∧
    (d.refSelected = 1 → d.genBit O.REF_CTRL 3 = false → leaves (.referenceReturn .refA) s d) ∧
    (d.qualified .xtal = true → gives .mgmtPllReturn s (fun e => e.flag O.CLOCK_STATUS 8 = false ∧ e.flag O.CLOCK_STATUS 9 = true
      ∧ e.flag O.TIME_STATUS 0 = false ∧ e.flag O.CLAMP_CAUSE 0 = false)) ∧
    (∀ (n : Nat) (valid : Bool), let v := if valid && d.qualified .refA && d.qualified .xtal then ppmOffset n 155520000 1 else noReading
      leaves (.refOffsetGateEnd .refA n valid) s (d.wr O.REFA_OFFSET v)) ∧
    (∀ n : Fin 2, leaves (.auxRelock n) s (d.onClk (fun c => { c with auxHeld := c.auxHeld.filter (· != n.val) }))) ∧
    (∀ (m : Master) (v : BitVec 32), reachable s m →
      let f := disarmed s m
      (f.inShadow = false → accepts (.timeStep m v) s m ((f.putFlag O.TIME_STATUS 1 true).onClk (fun c => { c with
        step := some (toSigned 32 v.toNat) }))) ∧
      (f.inShadow = true → abortsWith (.timeStep m v) s m 0x08000022 f))

/-- Operating points and gating (R370 to R377): a raise moves the divisor once the voltage has settled, a lowering before the voltage
falls; a failed raise marks the point and cancels the switch-in; OP_OVERRIDE refuses a failed point and one raise over another, and
cancels a scheduled switch-in when it changes; OP_RETRY forgets the failures; BLOCK_CLOCK_ENABLE shows in BLOCK_CLOCK_STATE at once, and
blocks resume at a boundary. -/
def Obligations.OperatingPoints : Prop :=
  ∀ s : State,
    let d := s.dev
    (∀ mv : BitVec 16,
      (d.clk.raise = true → leaves (.voltageSettled mv) s ((d.wr O.VCORE_READBACK mv.toNat).onClk (fun c => { c with settled := true }))) ∧
      (d.clk.raise = false → leaves (.voltageSettled mv) s d) ∧
      (d.clk.lower = true → d.op = d.targetOp → leaves (.voltageLowered mv) s
        (((d.wr O.VCORE_READBACK mv.toNat).putFlag O.OP_STATUS 8 false).onClk (fun c => { c with lower := false }))) ∧
      (d.clk.lower = false ∨ d.op ≠ d.targetOp → leaves (.voltageLowered mv) s d)) ∧
    (d.op ≠ d.targetOp → (d.clk.raise = true ∧ d.clk.settled = true ∨ d.clk.raise = false ∧ d.clk.lower = true) →
      gives .divisorChange s (fun e => e.op = d.targetOp ∧ e.rd O.ACTIVE_OP = d.targetOp ∧ e.flag O.OP_STATUS 10 = true
        ∧ e.clk.raise = false ∧ (d.clk.raise = true → e.flag O.OP_STATUS 8 = false))) ∧
    (d.clk.raise = false → d.clk.lower = false → leaves .divisorChange s d) ∧
    (d.clk.raise = true → leaves .avsFault s ((((((d.putFlag O.OP_STATUS (4 + d.targetOp) true).set1 O.OP_STATUS 11).putFld O.OP_STATUS 2 2
      d.op).putFlag O.OP_STATUS 8 false).onClk (fun c => { c with raise := false, settled := false })).cancelRaise |>.clockEvent 7)
      ∧ (d.prov.sched.isSome = true → gives .avsFault s (fun e => e.prov.sched = none ∧ e.rd O.PENDING_STATE = 0
        ∧ e.rd O.SWITCH_OUTCOME = 6 ∧ e.op = d.op))) ∧
    (d.clk.raise = false → leaves .avsFault s d) ∧
    (∀ (m : Master) (v : BitVec 8), armedFor s m 0x2102 1 v.toNat →
      let f := taken s m
      let n := v.toNat
      (n ≠ 0 → f.flag O.OP_STATUS (4 + (n - 1)) = true → abortsWith (.opOverride m v) s m 0x08000022 f) ∧
      (n ≠ 0 → n - 1 < f.op → f.flag O.OP_STATUS 8 = true → abortsWith (.opOverride m v) s m 0x08000022 f) ∧
      (n ≠ f.rd O.OP_OVERRIDE → (n = 0 ∨ f.op ≤ n - 1 ∧ f.flag O.OP_STATUS (4 + (n - 1)) = false) →
        accepts (.opOverride m v) s m ((f.wr O.OP_OVERRIDE n).cancelEarly 4)) ∧
      (n ≠ f.rd O.OP_OVERRIDE → n ≠ 0 → n - 1 < f.op → f.flag O.OP_STATUS 8 = false → f.flag O.OP_STATUS (4 + (n - 1)) = false →
        accepts (.opOverride m v) s m (((f.wr O.OP_OVERRIDE n).cancelEarly 4).startRaise (n - 1)))) ∧
    (∀ m : Master, reachable s m → accepts (.opRetry m 1) s m ((disarmed s m).putFld O.OP_STATUS 4 3 0) ∧
      accepts (.opRetry m 0) s m (disarmed s m)) ∧
    (∀ (m : Master) (v : BitVec 32), armedFor s m 0x2110 1 v.toNat →
      (((taken s m).rd O.BLOCK_CLOCK_ENABLE ^^^ v.toNat) &&& 0xF0000000 = 0 → ∃ e : Dev, accepts (.blockClockEnable m v) s m e
        ∧ e.rd O.BLOCK_CLOCK_ENABLE = v.toNat ∧ e.rd O.BLOCK_CLOCK_STATE = v.toNat % 2 ^ 28
        ∧ e.clk.resume &&& (0x0FFFFFFF ^^^ v.toNat % 2 ^ 28) = 0) ∧
      (((taken s m).rd O.BLOCK_CLOCK_ENABLE ^^^ v.toNat) &&& 0xF0000000 ≠ 0 → exec (.blockClockEnable m v) s = .fault .rsvdChanged)) ∧
    (d.traffic = false → leaves .blockResume s (d.onClk (fun c => { c with resume := 0 }))) ∧
    (d.traffic = true → leaves .blockResume s ((d.onClk (fun c => { c with resume := 0 })).blockStart d.clk.resume))

/-! ## Fault collection -/

/-- Events and their handling (R386 to R400): an event of no source of Table FC-1 does nothing; a raise that does not reach its class's
count is written into Coma and counted, one that does opens a window; a pulse ends its step of the sequence; ACK_SEQ acknowledges what
its value covers and closes windows that ran; HISTORY returns whole entries, read once transferred; INJECT_FIRE fires in Bisque alone;
FAULT_N_CTRL, SEVERE_N, SEVERE_WINDOW and REACTION take their values. -/
def Obligations.FaultCollection : Prop :=
  ∀ s : State,
    let d := s.dev
    (∀ e : EventOp, sourceExists e.source.toNat = false → leaves (.eventRecord e) s d) ∧
    (∀ e : EventOp, sourceExists e.source.toNat = true → e.source.toNat / 256 ≠ 1 → e.clear = false → e.forced = false →
      e.injected = false → d.collecting = true → d.coma.windows = [] → smLook (0, 0) d.coma.counts e.source.toNat = (0, 0) →
      (d.severeN (e.source.toNat / 256) ≠ 1 → leaves (.eventRecord e) s ((d.onComa (fun c => { c with
        counts := smPut (0, 0) c.counts e.source.toNat (d.time, 1) })).writeEntry { cls := e.source.toNat / 256, inst := e.source.toNat % 256
                                                                                    level := e.level.toNat, addr := e.addr.toNat
                                                                                    detail := e.detail.toNat } false false)) ∧
      (d.severeN (e.source.toNat / 256) = 1 → gives (.eventRecord e) s (fun x => ∃ w ∈ x.coma.windows, w.seq = d.coma.next
        ∧ w.source = e.source.toNat))) ∧
    (∀ i : Bool, d.coma.windows.any (fun w => w.injected == i && w.pulse) = false → leaves (.pulseEnd i) s d) ∧
    (∀ w : Window, d.coma.windows = [w] → w.pulse = true → w.want &&& (15 ^^^ w.ran) = 0 → w.acked = false →
      gives (.pulseEnd w.injected) s (fun x => x.coma.windows = [{ w with pulse := false }] ∧ x.faultNLow = (d.flag O.FAULT_N_CTRL 0 && !d.inert))) ∧
    (∀ m : Master, reachable s m →
      let f := disarmed s m
      (∀ v : BitVec 32, ∃ x : Dev, accepts (.ackSeq m v) s m x ∧ (∀ u ∈ x.coma.unacked, ackCovers v.toNat u.1 = false)
        ∧ ∀ w ∈ x.coma.windows, w.busy = false → w.acked = false) ∧
      (∀ r : DomRead, r.maxLen ≠ 0 → r.ecc = .clean → leaves (.history m r) s (answered
        (if r.complete then d.markRead ((d.coma.entries.take (r.maxLen / 32)).map (fun e => e.seq)) else d) m 0
        ((d.coma.entries.take (r.maxLen / 32)).flatMap entryBytes))) ∧
      (f.inBisque = false → abortsWith (.injectFire m 1) s m 0x08000022 f) ∧
      (f.inBisque = true → sourceExists (f.rd O.INJECT_SOURCE % 65536) = true → accepts (.injectFire m 1) s m
        (f.raise { cls := f.rd O.INJECT_SOURCE / 256 % 256, inst := f.rd O.INJECT_SOURCE % 256, level := adLevel (f.rd O.INJECT_ADDRESS)
                   addr := f.rd O.INJECT_ADDRESS, detail := f.rd O.INJECT_DETAIL, clear := bit (f.rd O.INJECT_SOURCE) 16, injected := true })) ∧
      (∀ (v : BitVec 8) (h : Bool), (f.rd O.FAULT_N_CTRL ^^^ v.toNat) &&& 0xF0 = 0 → ∃ n : Nat,
        accepts (.faultNCtrl m v h) s m (f.wr O.FAULT_N_CTRL n) ∧ bit n 0 = (h || bit v.toNat 0)
        ∧ bit n 3 = (h || (f.flag O.FAULT_N_CTRL 3 && !bit v.toNat 3))) ∧
      (∀ (k : Fin 13) (v : BitVec 32),
        (1 ≤ v.toNat → v.toNat ≤ 255 → accepts (.severeSetting m k .severeN v) s m ((f.wr (keyAt O.SEVERE_N k.val) v.toNat).closeCounts k.val)) ∧
        (1 ≤ v.toNat → v.toNat ≤ 65000 → accepts (.severeSetting m k .severeWindow v) s m
          ((f.wr (keyAt O.SEVERE_WINDOW k.val) v.toNat).closeCounts k.val)) ∧
        (v.toNat = 0 ∨ 255 < v.toNat → abortsWith (.severeSetting m k .severeN v) s m 0x06090030 f) ∧
        (v.toNat = 0 ∨ 65000 < v.toNat → abortsWith (.severeSetting m k .severeWindow v) s m 0x06090030 f))) ∧
    (∀ (m : Master) (k : Fin 13) (v : BitVec 8), armedFor s m (0x2340 + k.val) 3 v.toNat →
      ((taken s m).rd (keyAt O.REACTION k.val) ^^^ v.toNat) &&& 0xF0 = 0 →
      accepts (.reaction m k v) s m ((taken s m).wr (keyAt O.REACTION k.val) v.toNat))

/-! ## The check-value unit -/

/-- Host scans and the integrity check (R406 to R415): GO starts a scan of a range of 8-byte words inside one region, is refused while one
runs and aborts 0609 0030h on any other range, and FREEZE aborts 0800 0022h where nothing can be frozen (R409); ABORT ends it with cause 1, an
uncorrectable word with cause 4 (R411); completion leaves the status, the next address and the channel's value, GEN_CRC's for a whole scan of
a bank's contents; a scan that another user displaces does not complete (R36); the integrity check passes on its first good attempt and fails
only on three, and single-bit errors are counted (R31). -/
def Obligations.CheckValueUnit : Prop :=
  ∀ s : State,
    let d := s.dev
    (∀ m : Master, reachable s m →
      let f := disarmed s m
      let c := f.rd O.SCAN_CTRL
      let start := f.rd O.SCAN_START
      let len := f.rd O.SCAN_LENGTH
      (f.gateOn gCheck = false → accepts (.go m) s m f ∧ accepts (.abort m) s m f ∧ ∀ (n : Fin 4) (v : BitVec 32), accepts (.running m n v) s m f) ∧
      (f.gateOn gCheck = true → bits c 2 2 ≠ 3 → bit c 5 = false →
        (f.cvu.host.isSome = true → abortsWith (.go m) s m 0x08000022 f) ∧
        (f.cvu.host = none → start % 8 ≠ 0 ∨ len % 8 ≠ 0 ∨ len < 8 ∨ scanRegion start len = none → abortsWith (.go m) s m 0x06090030 f) ∧
        (∀ r : Nat, f.cvu.host = none → start % 8 = 0 → len % 8 = 0 → 8 ≤ len → scanRegion start len = some r →
          (bit c 1 = true → r ≠ 4 → f.isPendingRegion r = false ∨ f.rd O.PENDING_STATE ≠ 0 → abortsWith (.go m) s m 0x08000022 f) ∧
          (bit c 1 = false ∨ r = 4 ∨ (f.isPendingRegion r = true ∧ f.rd O.PENDING_STATE = 0) → ∃ e : Dev, accepts (.go m) s m e ∧ e.rd O.SCAN_NEXT = start
            ∧ e.rd O.SCAN_STATUS = 1 + 512 * ofBit (bit c 1)
            ∧ e.cvu.host = some { alg := bits c 2 2, start := start, len := len, frozen := bit c 1, init := bit c 0,
                                    since := max f.elapsed f.cvu.mateUntil }))) ∧
      (f.gateOn gCheck = true → bits c 2 2 ≠ 3 → bit c 4 = false →
        (f.cvu.host = none → accepts (.abort m) s m (f.wr O.SCAN_CTRL ((c ||| 32) &&& 0xCF))) ∧
        (f.cvu.host.isSome = true → ∃ e : Dev, accepts (.abort m) s m e ∧ e.cvu.host = none ∧ e.fld O.SCAN_STATUS 0 3 = 4
          ∧ e.fld O.SCAN_STATUS 4 4 = 1)) ∧
      (f.gateOn gCheck = true → ∀ (n : Fin 4) (v : BitVec 32),
        (f.channelBusy n.val = true → abortsWith (.running m n v) s m 0x08000022 f) ∧
        (f.channelBusy n.val = false → let v' := if f.rd (keyAt O.ALGORITHM n.val) = 2 then v.toNat % 2 ^ 16 else v.toNat
          accepts (.running m n v) s m (f.wr (keyAt O.RUNNING n.val) v')))) ∧
    (∀ touched : Bool,
      (d.cvu.host = none → ∀ e : Ecc, leaves (.scanComplete touched e) s d) ∧
      (∀ x : Scan, d.cvu.host = some x → (d.displaced = true → ∀ e : Ecc, leaves (.scanComplete touched e) s d) ∧
        (d.displaced = false → gives (.scanComplete touched .uncorrectable) s (fun e => e.cvu.host = none
          ∧ e.fld O.SCAN_STATUS 0 3 = 4 ∧ e.fld O.SCAN_STATUS 4 4 = 4 ∧ e.flag O.CV_STATUS 11 = true)) ∧
        (d.displaced = false → gives (.scanComplete touched .clean) s (fun e => e.cvu.host = none
          ∧ e.rd O.SCAN_STATUS = 3 + 256 * ofBit (touched && !x.frozen) ∧ e.rd O.SCAN_NEXT = (x.start + x.len) % 2 ^ 64
          ∧ e.flag O.CV_STATUS 10 = true
          ∧ (x.alg = 0 → x.init = true → x.len = 0x1FFFC0 → x.start = 0x40 → e.rd (keyAt O.RUNNING 3) = (d.crcOf false).toNat ^^^ 0xFFFFFFFF)
          ∧ (x.alg = 0 → x.init = true → x.len = 0x1FFFC0 → x.start = 0x400040 →
            e.rd (keyAt O.RUNNING 3) = (d.crcOf true).toNat ^^^ 0xFFFFFFFF))))) ∧
    (d.inBoot = false → d.clamped = false → d.gateOn gCheck = true → d.cvu.integ = false → d.rd O.INTEGRITY_PERIOD ≠ 0 →
      gives .integrityCheckStart s (fun e => e.cvu.integ = true ∧ e.rd (keyAt O.RUNNING 2) = 0xFFFFFFFF)) ∧
    (d.cvu.integ = true → leaves .integrityCheckStart s d) ∧
    (d.cvu.integ = false ∨ d.integDisplaced = true → ∀ (l : List Attempt) (n : BitVec 32), leaves (.integrityCheckEnd l n) s d) ∧
    (d.cvu.integ = true → d.integDisplaced = false → ∀ v n : BitVec 32,
      (d.active.genCrc.toNat = v.toNat → d.flag O.CV_STATUS 8 = false → leaves (.integrityCheckEnd [.result v] n) s
        ((((((d.scanHold.count (O.ECC_CORRECTED + d.rd O.ACTIVE_BANK) n.toNat).wr O.LAST_COMPUTED v.toNat).wr O.LAST_CHECK_TIME d.time).count
          O.INTEGRITY_CHECKS 1).wr (keyAt O.RUNNING 2) (v.toNat ^^^ 0xFFFFFFFF)).onCvu (fun c => { c with integ := false }))) ∧
      (d.active.genCrc.toNat ≠ v.toNat → leaves (.integrityCheckEnd [.result v] n) s d
        ∧ leaves (.integrityCheckEnd [.result v, .result v] n) s d
        ∧ gives (.integrityCheckEnd [.result v, .result v, .result v] n) s (fun e => e.cvu.integ = false ∧ e.flag O.CV_STATUS 8 = true
          ∧ e.flag O.CV_STATUS 9 = true ∧ e.rd O.LAST_COMPUTED = v.toNat)))

/-! ## Saggar -/

/-- The lifecycle, fuses, nonces, tokens and the policy (R419 to R426, R431): a burn starts where the state and mode allow it and aborts
0800 0022h elsewhere; its end shows the fuse, closes debug on a lifecycle change, and at Retired erases identity and banks; a nonce is
random and the writer's own; a token is valid only when its form, signer, signature, device, nonce and kind are good; an apply takes
effect only on a valid token of its kind and consumes it. -/
def Obligations.LifecycleAndTokens : Prop :=
  ∀ (s : State) (m : Master),
    let d := s.dev
    let f := taken s m
    let result := keyOf O.TOKEN_RESULT (masterNo m)
    (∀ v : BitVec 8, armedFor s m 0x2201 1 v.toNat →
      (f.lifecycle = 0 → f.inInert = true → accepts (.lifecycleRequest m v) s m
        ((f.wr O.LIFECYCLE_REQUEST v.toNat).onSec (fun x => { x with burns := x.burns ++ [.lifecycle 1] }))) ∧
      (f.lifecycle ≠ 0 ∨ f.inInert = false → abortsWith (.lifecycleRequest m v) s m 0x08000022 f)) ∧
    (∀ v : BitVec 8, armedFor s m 0x2201 2 v.toNat →
      (f.lifecycle = 3 → abortsWith (.zeroise m v) s m 0x08000022 f) ∧
      (f.lifecycle ≠ 3 → f.inInert = true → accepts (.zeroise m v) s m ((f.wr O.ZEROISE v.toNat).onSec (fun x => { x with
        zeroising := true, burns := x.burns ++ [.lifecycle 3] }))) ∧
      (f.lifecycle ≠ 3 → f.inInert = false → modeRefusal f 1 (modeNeedsGuard f.modeCode 1) = 0 → accepts (.zeroise m v) s m
        (((f.wr O.ZEROISE v.toNat).onSec (fun x => { x with zeroising := true })).startTransition 1))) ∧
    (∀ v : BitVec 8, armedFor s m 0x2201 3 v.toNat →
      (f.rd O.ROLLBACK_COUNTER < v.toNat → v.toNat ≤ f.mode.slotRb → accepts (.rollbackAdvance m v) s m
        ((f.wr O.ROLLBACK_ADVANCE v.toNat).onSec (fun x => { x with burns := x.burns ++ [.rollback v.toNat] }))) ∧
      (v.toNat ≤ f.rd O.ROLLBACK_COUNTER ∨ f.mode.slotRb < v.toNat → abortsWith (.rollbackAdvance m v) s m 0x06090030 f)) ∧
    (d.sec.burns = [] → leaves .fuseBurnEnd s d) ∧
    (∀ (b : Burn) (r : List Burn), d.sec.burns = b :: r → gives .fuseBurnEnd s (fun e =>
      (∀ v : Nat, b = .lifecycle v → v < 4 → e.lifecycle = v ∧ e.debug = 0) ∧
      (b = .lifecycle 3 → e.identityPresent = false ∧ e.bankA = generation0 ∧ e.bankB = generation0 ∧ e.rd O.ACTIVE_GENERATION = 0) ∧
      (∀ v : Nat, b = .rollback v → e.rd O.ROLLBACK_COUNTER = v % 2 ^ 64 ∧ e.sec.burns = r) ∧
      (∀ fp : List Byte, b = .owner fp → e.ownerInstalled = true ∧ e.rdStr O.OWNER_KEY_FP = fp))) ∧
    (reachable s m →
      let g := disarmed s m
      accepts (.nonceNew m 1) s m (((g.wrStr (keyOf O.NONCE (masterNo m)) (fitBytes 32 (Config.random g.free))).onSecOf m
        (fun x => { x with nonceOk := true })).fresh) ∧
      accepts (.nonceNew m 0) s m g ∧
      (∀ t : List Byte, (t.length = 278 → accepts (.token m t) s m ((g.onSecOf m (fun x => { x with token := t })).wr result 1)) ∧
        (t.length ≠ 278 → abortsWith (.token m t) s m 0x06070010 g))) ∧
    leaves (.nonceExpiry m) s ((d.wrStr (keyOf O.NONCE (masterNo m)) (List.replicate 32 0)).onSecOf m (fun x => { x with nonceOk := false })) ∧
    (d.rd result ≠ 1 → leaves (.tokenVerified m) s d) ∧
    (d.rd result = 1 → gives (.tokenVerified m) s (fun e =>
      let t := (d.secOf m).token
      2 ≤ e.rd result ∧ e.rd result ≤ 8 ∧
      (e.rd result = 2 → tokenForm t = true ∧ Config.signatureGood (tokenAt t 104 57) (tokenAt t 0 164) (tokenAt t 164 114) = true
        ∧ tokenAt t 8 32 = d.identityFp ∧ d.nonceIs m t = true ∧ d.kindAllowed (tokenNum t 1 1) = true) ∧
      (2 < e.rd result → e.flag O.SEC_STATUS 10 = true))) ∧
    (∀ (c : Instr) (kind : Nat), (c, kind) ∈ [(Instr.tokenApplyDebugUnlock m, 1), (.tokenApplyReturned m, 2), (.tokenApplyOwnerKey m, 3)] →
      armedFor s m 0x2201 4 kind →
      let t := (f.secOf m).token
      (f.rd result = 2 → tokenNum t 1 1 = kind → f.nonceIs m t = true → f.mode.trans = none → f.kindAllowed kind = true →
        (kind = 1 → tokenNum t 2 1 ≤ f.applyCap) → (kind = 2 → f.inInert = true) →
        accepts c s m (((f.tokenActs t kind).consumeToken m).wr O.TOKEN_APPLY kind)) ∧
      (f.rd result ≠ 2 ∨ tokenNum t 1 1 ≠ kind ∨ f.nonceIs m t = false ∨ f.mode.trans.isSome = true ∨ f.kindAllowed kind = false →
        abortsWith c s m 0x08000022 f)) ∧
    (∀ v : BitVec 8, armedFor s m 0x2202 1 v.toNat → (d.bankHeld && !d.inShadow) = false →
      (f.editRefused = true → abortsWith (.secPolicy m v) s m 0x08000022 f) ∧
      (f.editRefused = false → (f.genP O.SEC_POLICY ^^^ v.toNat) &&& 0xFC = 0 → accepts (.secPolicy m v) s m
        (f.edit (fun b => bankWr b O.SEC_POLICY v.toNat))))

/-- Debug, CAN privilege sessions and attestation (R429, R433, R434): debug closes on request and at the end of its lifetime; a session
takes the policy, a challenge and a good response, lasts 600 s, and three failures lock it out; only the CAN master drives it; a report is
built for the reader's nonce and counted, and refused when Retired. -/
def Obligations.DebugSessionsAttestation : Prop :=
  ∀ (s : State) (m : Master),
    let d := s.dev
    (d.sec.lifetime = none → leaves .debugLifetimeEnd s d) ∧
    (d.sec.lifetime.isSome = true → gives .debugLifetimeEnd s (fun e => e.debug = 0 ∧ (d.debug ≠ 0 → e.flag O.SEC_STATUS 9 = true ∧ e.sec.lifetime = none))) ∧
    leaves .challengeExpiry s (d.onSec (fun x => { x with challenge := false })) ∧
    leaves .challengeLockoutEnd s (d.onSec (fun x => { x with lockout := false, failRun := 0 })) ∧
    gives .sessionExpiry s (fun e => e.privilege .can = 0) ∧
    (d.sec.response = none → leaves .sessionResponseChecked s d) ∧
    (∀ r : List Byte, d.sec.response = some r → gives .sessionResponseChecked s (fun e => e.sec.challenge = false ∧
      (responseGood d r = true → e.privilege .can = 1 ∧ e.sec.failRun = 0 ∧ e.sec.session = some (d.elapsed + 600000000000)) ∧
      (responseGood d r = false → e.sec.failRun = d.sec.failRun + 1 ∧ e.flag O.SEC_STATUS 11 = true
        ∧ (2 ≤ d.sec.failRun → e.sec.lockout = true)))) ∧
    (reachable s m →
      let f := disarmed s m
      (∃ e : Dev, accepts (.debugClose m 1) s m e ∧ e.debug = 0) ∧ accepts (.debugClose m 0) s m f ∧
      (m ≠ .can → ∀ (v : BitVec 8) (r : List Byte), abortsWith (.sessionChallengeNew m v) s m 0x08000022 f ∧
        abortsWith (.sessionResponse m r) s m 0x08000022 f ∧ abortsWith (.sessionEnd m v) s m 0x08000022 f) ∧
      (m = .can →
        (f.genBit O.SEC_POLICY 1 = false ∨ f.sec.lockout = true → abortsWith (.sessionChallengeNew m 1) s m 0x08000022 f) ∧
        (f.genBit O.SEC_POLICY 1 = true → f.sec.lockout = false → accepts (.sessionChallengeNew m 1) s m
          (((f.wrStr O.SESSION_CHALLENGE (fitBytes 32 (Config.random f.free))).onSec (fun x => { x with challenge := true })).fresh)) ∧
        (∀ r : List Byte, (r.length = 171 → accepts (.sessionResponse m r) s m (f.onSec (fun x => { x with response := some r }))) ∧
          (r.length ≠ 171 → abortsWith (.sessionResponse m r) s m 0x06070010 f.sessionFailed)) ∧
        (∃ e : Dev, accepts (.sessionEnd m 1) s m e ∧ e.privilege .can = 0)) ∧
      (∀ l : List Byte, (l.length ≤ 32 → accepts (.attestNonce m l) s m (f.onSecOf m (fun x => { x with attest := l }))) ∧
        (32 < l.length → abortsWith (.attestNonce m l) s m 0x06070010 f)) ∧
      (∀ r : DomRead, r.ecc = .clean → (d.lifecycle = 3 → r.maxLen ≠ 0 → abortsWith (.attestReport m r) s m 0x08000022 d) ∧
        (d.lifecycle ≠ 3 → r.maxLen < 306 → abortsWith (.attestReport m r) s m 0x06070010 d) ∧
        (d.lifecycle ≠ 3 → 306 ≤ r.maxLen →
          let e := d.countWrap O.REPORT_COUNTER 64 1
          leaves (.attestReport m r) s (answered e m 0 (reportBody e m ++ fitBytes 114 (Config.sign (reportBody e m)))))))

/-! ## The test access port -/

/-- The TAP (R427, R428, R435, R447, R450 to R452): a test instruction scans the boundary register where the mode allows it, and acts as
BYPASS elsewhere; LINE and TFI transmitters drive test data only while no claim is seen, MATE transmitters without that limit; IDCODE
gives part and revision; a debug instruction acts at its level alone; a halted controller resumes with its requests; memory written
under Full debug reads back; TEST_EN shows in STRAPS. -/
def Obligations.TestAccess : Prop :=
  ∀ s : State,
    let d := s.dev
    let quiet := fun (code : Nat) (out : List Byte) => (d.onJtag (fun j => { j with ir := code, out := out })).putFlag O.SEC_STATUS 4 false
    (∀ (c : Instr) (code : Nat) (shift pins : List Bool), (c, code) ∈ [(Instr.extest shift pins, 0), (.extestPulse shift pins, 8),
        (.extestTrain shift pins, 9)] →
      (d.testTakesPins = true → gives c s (fun e => e.jtag = { ir := code, out := boundaryBytes pins, boundary := shift }
        ∧ e.mateTestDrives = true ∧ (d.claimIn = true → e.lineTestDrives = false) ∧ (d.claimIn = false → e.lineTestDrives = true))) ∧
      (d.testTakesPins = false → leaves c s (quiet code []))) ∧
    (∀ shift pins : List Bool,
      (d.lifecycle = 3 → leaves (.samplePreload shift pins) s (quiet 2 [])) ∧
      (d.lifecycle ≠ 3 → leaves (.samplePreload shift pins) s ((quiet 2 (boundaryBytes pins)).onJtag (fun j => { j with boundary := shift })))) ∧
    leaves .idcode s (quiet 1 (bytesLE 4 (Config.revision.toNat % 16 * 2 ^ 28 + 0x8640 * 2 ^ 12 + 0x2E5 * 2 + 1))) ∧
    leaves .highz s (quiet 3 []) ∧ leaves .tapReset s (quiet 1 []) ∧
    (∀ c : BitVec 8, privateLevel c.toNat = none → leaves (.bypass c) s (quiet c.toNat [])) ∧
    (d.debug = 0 → leaves .dbgTrace s (quiet 0x40 []) ∧ (∀ (i : BitVec 16) (n : BitVec 8) (x : BitVec 32), leaves (.dbgDict i n x) s (quiet 0x41 [])) ∧
      (d.undoc = false → ∀ op : Fin 3, leaves (.dbgCtrl op) s (quiet 0x42 [])) ∧
      ∀ (a : BitVec 32) (w : Option Byte), leaves (.dbgMem a w) s (quiet 0x43 [])) ∧
    (d.debug ≠ 0 →
      gives .dbgTrace s (fun e => e.jtag.out = bytesLE 8 (Config.freeWord d.free).toNat ∧ e.flag O.SEC_STATUS 4 = true) ∧
      (∀ (i : BitVec 16) (n : BitVec 8) (x : BitVec 32), gives (.dbgDict i n x) s (fun e => e.mem = d.mem ∧ e.spi = d.spi
        ∧ e.canM = d.canM ∧ e.mgmt = d.mgmt ∧ e.flag O.SEC_STATUS 4 = true))) ∧
    (2 ≤ d.debug →
      (d.undoc = false → gives (.dbgCtrl 0) s (fun e => e.halted = true) ∧ gives (.dbgCtrl 1) s (fun e => e.halted = d.halted)) ∧
      (∀ (a : BitVec 32) (v : Byte), scanRegion a.toNat 1 ≠ none → headerPlace a.toNat = none →
        gives (.dbgMem a (some v)) s (fun e => e.mem = cellPut d.mem a.toNat v ∧ (memoryByte e a.toNat).1 = v ∧ e.bankA = d.bankA ∧ e.bankB = d.bankB)) ∧
      (∀ a : BitVec 32, gives (.dbgMem a none) s (fun e => e.jtag.out = [(memoryByte d a.toNat).1] ∧ e.mem = d.mem))) ∧
    (∀ level : Bool, leaves (.testEnChange level) s (d.putFlag O.STRAPS 11 level))
end

