-- ==== Sys2Proof/Laws/Documented.lean ====
section
/-!
SUPPORT. Which operations leave the mark of a changed `rsvd` field as it is: one lemma per operation, by a name for the mark that
simp does not unfold.
-/
namespace Sys2Proof.Machine

set_option Elab.async false

/-- The mark of a changed `rsvd` field, by a name of its own. -/
def Dev.undocumented (d : Dev) := d.undoc
@[simp] theorem Dev.undoc_eq (d : Dev) : d.undoc = d.undocumented := Eq.trans rfl rfl
@[simp] theorem Dev.undocumented_mk x_regs x_strs x_bankA x_bankB x_elapsed x_frames x_spi x_canM x_mgmt x_can x_prov x_mode x_clk x_coma x_pair x_cvu x_sec x_jtag x_align x_line x_oh x_pairWait x_ptrRx x_ptrTx x_rxFrames x_pathRx x_pathTx x_acts x_poh x_captures x_ber x_pm x_cpm x_pmTime x_prot x_latched x_clients x_tfi x_tfiCh x_mateLanes x_pins x_mem x_out x_free x_reads x_undoc : Dev.undocumented (Dev.mk x_regs x_strs x_bankA x_bankB x_elapsed x_frames x_spi x_canM x_mgmt x_can x_prov x_mode x_clk x_coma x_pair x_cvu x_sec x_jtag x_align x_line x_oh x_pairWait x_ptrRx x_ptrTx x_rxFrames x_pathRx x_pathTx x_acts x_poh x_captures x_ber x_pm x_cpm x_pmTime x_prot x_latched x_clients x_tfi x_tfiCh x_mateLanes x_pins x_mem x_out x_free x_reads x_undoc) = x_undoc := Eq.trans rfl rfl
@[simp] theorem ite_undocumented (c : Prop) [Decidable c] (a b : Dev) : (if c then a else b).undocumented = if c then a.undocumented else b.undocumented := by split <;> rfl
@[simp] theorem ite_fst_undocumented {α : Type} (c : Prop) [Decidable c] (a b : Dev × α) : (if c then a else b).1.undocumented = if c then a.1.undocumented else b.1.undocumented := by split <;> rfl
@[simp] theorem foldl_undocumented {α : Type} (l : List α) (f : Dev → α → Dev) (h : ∀ x a, (f x a).undocumented = x.undocumented) (d : Dev) : (l.foldl f d).undocumented = d.undocumented := by
  induction l generalizing d with
  | nil => rfl
  | cons a r ih => simp [List.foldl, ih, h]

@[simp] theorem Dev.wr_undocumented (d : Dev) (k : Key) (v : Nat)  :
    (Dev.wr d k v).undocumented = d.undocumented := by
  simp [Dev.wr]
@[simp] theorem Dev.wrStr_undocumented (d : Dev) (k : Key) (v : List Byte)  :
    (Dev.wrStr d k v).undocumented = d.undocumented := by
  simp [Dev.wrStr]
@[simp] theorem Dev.putFld_undocumented (d : Dev) (k : Key) (lo w x : Nat) : (Dev.putFld d k lo w x).undocumented = d.undocumented := by simp [Dev.putFld]
@[simp] theorem Dev.putFlag_undocumented (d : Dev) (k : Key) (i : Nat) (b : Bool) : (Dev.putFlag d k i b).undocumented = d.undocumented := by simp [Dev.putFlag]
@[simp] theorem Dev.set1_undocumented (d : Dev) (k : Key) (i : Nat) : (Dev.set1 d k i).undocumented = d.undocumented := by simp [Dev.set1]
@[simp] theorem Dev.countSat_undocumented (d : Dev) (k : Key) (w n : Nat) : (Dev.countSat d k w n).undocumented = d.undocumented := by simp [Dev.countSat]
@[simp] theorem Dev.countWrap_undocumented (d : Dev) (k : Key) (w n : Nat) : (Dev.countWrap d k w n).undocumented = d.undocumented := by simp [Dev.countWrap]
@[simp] theorem Dev.count_undocumented (d : Dev) (k : Key) (n : Nat) : (Dev.count d k n).undocumented = d.undocumented := by
  unfold Dev.count
  split <;> simp
@[simp] theorem Dev.when_undocumented (d : Dev) (c : Bool) (f : Dev → Dev) (hf : ∀ x : Dev, (f x).undocumented = x.undocumented) : (Dev.when d c f).undocumented = d.undocumented := by
  simp [Dev.when, hf]
@[simp] theorem Dev.fresh_undocumented (d : Dev) : (Dev.fresh d).undocumented = d.undocumented := by simp [Dev.fresh]
@[simp] theorem Dev.onSpi_undocumented (d : Dev) (f : MasterSt → MasterSt) : (Dev.onSpi d f).undocumented = d.undocumented := by simp [Dev.onSpi]
@[simp] theorem Dev.onCanM_undocumented (d : Dev) (f : MasterSt → MasterSt) : (Dev.onCanM d f).undocumented = d.undocumented := by simp [Dev.onCanM]
@[simp] theorem Dev.onMgmt_undocumented (d : Dev) (f : MasterSt → MasterSt) : (Dev.onMgmt d f).undocumented = d.undocumented := by simp [Dev.onMgmt]
@[simp] theorem Dev.onCan_undocumented (d : Dev) (f : Can → Can) : (Dev.onCan d f).undocumented = d.undocumented := by simp [Dev.onCan]
@[simp] theorem Dev.onProv_undocumented (d : Dev) (f : Prov → Prov) : (Dev.onProv d f).undocumented = d.undocumented := by simp [Dev.onProv]
@[simp] theorem Dev.onMode_undocumented (d : Dev) (f : ModeSt → ModeSt) : (Dev.onMode d f).undocumented = d.undocumented := by simp [Dev.onMode]
@[simp] theorem Dev.onClk_undocumented (d : Dev) (f : Clk → Clk) : (Dev.onClk d f).undocumented = d.undocumented := by simp [Dev.onClk]
@[simp] theorem Dev.onComa_undocumented (d : Dev) (f : Coma → Coma) : (Dev.onComa d f).undocumented = d.undocumented := by simp [Dev.onComa]
@[simp] theorem Dev.onPair_undocumented (d : Dev) (f : PairSt → PairSt) : (Dev.onPair d f).undocumented = d.undocumented := by simp [Dev.onPair]
@[simp] theorem Dev.onCvu_undocumented (d : Dev) (f : Cvu → Cvu) : (Dev.onCvu d f).undocumented = d.undocumented := by simp [Dev.onCvu]
@[simp] theorem Dev.onSec_undocumented (d : Dev) (f : Sec → Sec) : (Dev.onSec d f).undocumented = d.undocumented := by simp [Dev.onSec]
@[simp] theorem Dev.onJtag_undocumented (d : Dev) (f : Jtag → Jtag) : (Dev.onJtag d f).undocumented = d.undocumented := by simp [Dev.onJtag]
@[simp] theorem Dev.onAlign_undocumented (d : Dev) (f : AlignSt → AlignSt) : (Dev.onAlign d f).undocumented = d.undocumented := by simp [Dev.onAlign]
@[simp] theorem Dev.onLine_undocumented (d : Dev) (f : LineSt → LineSt) : (Dev.onLine d f).undocumented = d.undocumented := by simp [Dev.onLine]
@[simp] theorem Dev.onOh_undocumented (d : Dev) (f : SecOh → SecOh) : (Dev.onOh d f).undocumented = d.undocumented := by simp [Dev.onOh]
@[simp] theorem Dev.onOut_undocumented (d : Dev) (f : Out → Out) : (Dev.onOut d f).undocumented = d.undocumented := by simp [Dev.onOut]
@[simp] theorem Dev.onMaster_undocumented (d : Dev) (m : Master) (f : MasterSt → MasterSt) : (Dev.onMaster d m f).undocumented = d.undocumented := by
  unfold Dev.onMaster
  split <;> simp
@[simp] theorem Dev.onSecOf_undocumented (d : Dev) (m : Master) (f : SecMaster → SecMaster) : (Dev.onSecOf d m f).undocumented = d.undocumented := by simp [Dev.onSecOf]
@[simp] theorem Dev.onPending_undocumented (d : Dev) (f : Bank → Bank) : (Dev.onPending d f).undocumented = d.undocumented := by simp [Dev.onPending]
@[simp] theorem Dev.onActive_undocumented (d : Dev) (f : Bank → Bank) : (Dev.onActive d f).undocumented = d.undocumented := by simp [Dev.onActive]
@[simp] theorem Dev.edit_undocumented (d : Dev) (f : Bank → Bank) : (Dev.edit d f).undocumented = d.undocumented := by simp [Dev.edit]
@[simp] theorem Dev.advance_undocumented (d : Dev) (ns : Nat)  :
    (Dev.advance d ns).undocumented = d.undocumented := by
  simp [Dev.advance]
@[simp] theorem Dev.berAdd_undocumented (d : Dev) (a n : Nat) : (Dev.berAdd d a n).undocumented = d.undocumented := by simp [Dev.berAdd]
@[simp] theorem Dev.onPmTime_undocumented (d : Dev) (f : PmTime → PmTime) : (Dev.onPmTime d f).undocumented = d.undocumented := by simp [Dev.onPmTime]
@[simp] theorem Dev.pmBreak_undocumented (d : Dev) : (Dev.pmBreak d).undocumented = d.undocumented := by simp [Dev.pmBreak]
@[simp] theorem Dev.onPmAcc_undocumented (d : Dev) (a : Nat) (f : PmSec → PmSec) : (Dev.onPmAcc d a f).undocumented = d.undocumented := by simp [Dev.onPmAcc]
@[simp] theorem Dev.onCpmAcc_undocumented (d : Dev) (c : Nat) (f : CpmSec → CpmSec) : (Dev.onCpmAcc d c f).undocumented = d.undocumented := by simp [Dev.onCpmAcc]
@[simp] theorem Dev.sendCan_undocumented (d : Dev) (cob : Nat) (data : List Byte) : (Dev.sendCan d cob data).undocumented = d.undocumented := by simp [Dev.sendCan]
@[simp] theorem Dev.queueTpdo_undocumented (d : Dev) (n : Nat) : (Dev.queueTpdo d n).undocumented = d.undocumented := by simp [Dev.queueTpdo]
@[simp] theorem Dev.sendEmcy_undocumented (d : Dev) (data : List Byte) (seq : Option Nat) : (Dev.sendEmcy d data seq).1.undocumented = d.undocumented := by
  simp [Dev.sendEmcy]
@[simp] theorem Dev.upset_undocumented (d : Dev) (outcome : Nat) : (Dev.upset d outcome).undocumented = d.undocumented := by simp [Dev.upset]
@[simp] theorem Dev.switchPoint_undocumented (d : Dev) : (Dev.switchPoint d).undocumented = d.undocumented := by
  unfold Dev.switchPoint
  split <;> simp
@[simp] theorem Dev.privateStatus_undocumented (d : Dev) : (Dev.privateStatus d).undocumented = d.undocumented := by simp [Dev.privateStatus]
@[simp] theorem Dev.setDebug_undocumented (d : Dev) (level : Nat) (forced : Bool) : (Dev.setDebug d level forced).undocumented = d.undocumented := by simp [Dev.setDebug]
@[simp] theorem Dev.capDebug_undocumented (d : Dev) (cap : Nat) : (Dev.capDebug d cap).undocumented = d.undocumented := by simp [Dev.capDebug]
@[simp] theorem Dev.recordMode_undocumented (d : Dev) (m : Nat) : (Dev.recordMode d m).undocumented = d.undocumented := by simp [Dev.recordMode]
@[simp] theorem Dev.startLower_undocumented (d : Dev) (target : Nat) : (Dev.startLower d target).undocumented = d.undocumented := by simp [Dev.startLower]
@[simp] theorem Dev.unschedule_undocumented (d : Dev) (outcome : Nat) : (Dev.unschedule d outcome).undocumented = d.undocumented := by
  simp [Dev.unschedule]
@[simp] theorem Dev.sendMate_undocumented (d : Dev) (m : MateMsg) : (Dev.sendMate d m).undocumented = d.undocumented := by simp [Dev.sendMate]
@[simp] theorem Dev.cancelSched_undocumented (d : Dev) (outcome : Nat) : (Dev.cancelSched d outcome).undocumented = d.undocumented := by
  unfold Dev.cancelSched
  split <;> simp
@[simp] theorem Dev.cancelRaise_undocumented (d : Dev) : (Dev.cancelRaise d).undocumented = d.undocumented := by
  unfold Dev.cancelRaise
  split <;> simp
@[simp] theorem Dev.cancelEarly_undocumented (d : Dev) (outcome : Nat) : (Dev.cancelEarly d outcome).undocumented = d.undocumented := by
  unfold Dev.cancelEarly
  split <;> simp
@[simp] theorem Dev.channelUsed_undocumented (d : Dev) (n : Nat) : (Dev.channelUsed d n).undocumented = d.undocumented := by simp [Dev.channelUsed]
@[simp] theorem Dev.scanHold_undocumented (d : Dev) : (Dev.scanHold d).undocumented = d.undocumented := by simp [Dev.scanHold]
@[simp] theorem Dev.mateVerify_undocumented (d : Dev) (beats : Nat) : (Dev.mateVerify d beats).undocumented = d.undocumented := by
  simp [Dev.mateVerify]
@[simp] theorem Dev.stopClaim_undocumented (d : Dev) : (Dev.stopClaim d).undocumented = d.undocumented := by simp [Dev.stopClaim]
@[simp] theorem Dev.sendRequest_undocumented (d : Dev) (cause : Nat) : (Dev.sendRequest d cause).undocumented = d.undocumented := by simp [Dev.sendRequest]
@[simp] theorem Dev.setPairState_undocumented (d : Dev) (s : Nat) : (Dev.setPairState d s).undocumented = d.undocumented := by simp [Dev.setPairState]
@[simp] theorem Dev.verifyMark_undocumented (d : Dev) (o : ObjId) (i : Nat) (seen : Bool) : (Dev.verifyMark d o i seen).undocumented = d.undocumented := by
  simp [Dev.verifyMark]
@[simp] theorem Dev.releaseClaim_undocumented (d : Dev) (cause : Nat) (own : Bool) : (Dev.releaseClaim d cause own).undocumented = d.undocumented := by
  simp [Dev.releaseClaim]
@[simp] theorem Dev.putWindow_undocumented (d : Dev) (w : Window) : (Dev.putWindow d w).undocumented = d.undocumented := by simp [Dev.putWindow]
@[simp] theorem Dev.closeWindows_undocumented (d : Dev) : (Dev.closeWindows d).undocumented = d.undocumented := by simp [Dev.closeWindows]
@[simp] theorem Dev.reactEnd_undocumented (d : Dev) (seq : Nat) : (Dev.reactEnd d seq).undocumented = d.undocumented := by
  unfold Dev.reactEnd
  dsimp only
  (repeat' (first | (simp; done) | split))
@[simp] theorem Dev.react_undocumented (d : Dev) (seq : Nat) : (Dev.react d seq).undocumented = d.undocumented := by
  unfold Dev.react
  split <;> simp
@[simp] theorem Dev.writeEntry_undocumented (d : Dev) (e : Ev) (severe forced : Bool) : (Dev.writeEntry d e severe forced).undocumented = d.undocumented := by
  simp [Dev.writeEntry]
@[simp] theorem Dev.raise_undocumented (d : Dev) (e : Ev) : (Dev.raise d e).undocumented = d.undocumented := by
  unfold Dev.raise
  dsimp only
  (repeat' (first | (simp; done) | split))
@[simp] theorem Dev.clockEvent_undocumented (d : Dev) (code : Nat) (causes : Nat) (clear : Bool) : (Dev.clockEvent d code causes clear).undocumented = d.undocumented := by
  simp [Dev.clockEvent]
@[simp] theorem Dev.pairEvent_undocumented (d : Dev) (detail : Nat) (forced : Bool) : (Dev.pairEvent d detail forced).undocumented = d.undocumented := by
  simp [Dev.pairEvent]
@[simp] theorem Dev.endPulse_undocumented (d : Dev) (injected : Bool) : (Dev.endPulse d injected).undocumented = d.undocumented := by
  unfold Dev.endPulse
  split <;> simp
@[simp] theorem Dev.emcyInhibitEnd_undocumented (d : Dev) : (Dev.emcyInhibitEnd d).undocumented = d.undocumented := by
  unfold Dev.emcyInhibitEnd
  dsimp only
  (repeat' (first | (simp; done) | split))
@[simp] theorem Dev.acknowledge_undocumented (d : Dev) (s : Nat) : (Dev.acknowledge d s).undocumented = d.undocumented := by simp [Dev.acknowledge]
@[simp] theorem Dev.closeCounts_undocumented (d : Dev) (k : Nat) : (Dev.closeCounts d k).undocumented = d.undocumented := by simp [Dev.closeCounts]
@[simp] theorem Dev.markRead_undocumented (d : Dev) (seqs : List Nat) : (Dev.markRead d seqs).undocumented = d.undocumented := by simp [Dev.markRead]
@[simp] theorem Dev.guardDiscard_undocumented (d : Dev) (m : Master) (idx sub cause : Nat) : (Dev.guardDiscard d m idx sub cause).undocumented = d.undocumented := by
  simp [Dev.guardDiscard]
@[simp] theorem Dev.dropArm_undocumented (d : Dev) (m : Master) (cause : Nat) : (Dev.dropArm d m cause).undocumented = d.undocumented := by
  unfold Dev.dropArm
  split <;> simp
@[simp] theorem Dev.plainWrite_undocumented (d : Dev) (m : Master) (f : Dev → Dev × Nat) (hf : ∀ x : Dev, (f x).1.undocumented = x.undocumented) : (Dev.plainWrite d m f).1.undocumented = d.undocumented := by
  simp [Dev.plainWrite, hf]
@[simp] theorem Dev.queuePeak_undocumented (d : Dev) (m : Master) : (Dev.queuePeak d m).undocumented = d.undocumented := by simp [Dev.queuePeak]
@[simp] theorem Dev.overload_undocumented (d : Dev) (m : Master) : (Dev.overload d m).undocumented = d.undocumented := by simp [Dev.overload]
@[simp] theorem Dev.queueReq_undocumented (d : Dev) (m : Master) (r : Req) : (Dev.queueReq d m r).1.undocumented = d.undocumented := by simp [Dev.queueReq]
@[simp] theorem Dev.armGuard_undocumented (d : Dev) (m : Master) (idx n v : Nat) (lenOk inRange : Bool) : (Dev.armGuard d m idx n v lenOk inRange).1.undocumented = d.undocumented := by
  simp [Dev.armGuard]
@[simp] theorem Dev.completeGuard_undocumented (d : Dev) (m : Master) (idx n w c : Nat) (lenOk : Bool) (apply : Nat → Dev → Dev × Nat) (happly : ∀ (v : Nat) (x : Dev), (apply v x).1.undocumented = x.undocumented) : (Dev.completeGuard d m idx n w c lenOk apply).1.undocumented = d.undocumented := by
  simp [Dev.completeGuard, happly]
@[simp] theorem Dev.completing_undocumented (d : Dev) (m : Master) (idx n w v : Nat) (apply : Nat → Dev → Dev × Nat) (happly : ∀ (v : Nat) (x : Dev), (apply v x).1.undocumented = x.undocumented) : (Dev.completing d m idx n w v apply).1.undocumented = d.undocumented := by
  simp [Dev.completing, happly]
@[simp] theorem trigger_undocumented (v : Nat) (d : Dev) (f : Dev → Dev × Nat) (hf : ∀ x : Dev, (f x).1.undocumented = x.undocumented) : (trigger v d f).1.undocumented = d.undocumented := by
  simp [trigger, hf]
@[simp] theorem Dev.ungated_undocumented (d : Dev) (gate : Nat) (f : Dev → Dev × Nat) (hf : ∀ x : Dev, (f x).1.undocumented = x.undocumented) : (Dev.ungated d gate f).1.undocumented = d.undocumented := by
  simp [Dev.ungated, hf]
@[simp] theorem Dev.memoryError_undocumented (d : Dev) (region offset : Nat) : (Dev.memoryError d region offset).undocumented = d.undocumented := by simp [Dev.memoryError]
@[simp] theorem Dev.memoryErrorSomewhere_undocumented (d : Dev) (region : Nat) : (Dev.memoryErrorSomewhere d region).undocumented = d.undocumented := by
  simp [Dev.memoryErrorSomewhere]
@[simp] theorem Dev.eccCorrected_undocumented (d : Dev) (region : Nat) : (Dev.eccCorrected d region).undocumented = d.undocumented := by
  simp [Dev.eccCorrected]
@[simp] theorem Dev.eccHit_undocumented (d : Dev) (region : Nat) (e : Ecc) : (Dev.eccHit d region e).undocumented = d.undocumented := by
  cases e <;> simp [Dev.eccHit]
@[simp] theorem Dev.putSyz_undocumented (d : Dev) (k : Nat) (z : Syzygy) : (Dev.putSyz d k z).undocumented = d.undocumented := by simp [Dev.putSyz]
@[simp] theorem Dev.alignEvent_undocumented (d : Dev) (p code : Nat) : (Dev.alignEvent d p code).undocumented = d.undocumented := by simp [Dev.alignEvent]
@[simp] theorem Dev.freshSearch_undocumented (d : Dev) (k : Nat) : (Dev.freshSearch d k).undocumented = d.undocumented := by simp [Dev.freshSearch]
@[simp] theorem Dev.cutFrame_undocumented (d : Dev) (k : Nat) : (Dev.cutFrame d k).undocumented = d.undocumented := by simp [Dev.cutFrame]
@[simp] theorem Dev.resumeSearch_undocumented (d : Dev) (k : Nat) : (Dev.resumeSearch d k).undocumented = d.undocumented := by simp [Dev.resumeSearch]
@[simp] theorem Dev.holdClient_undocumented (d : Dev) (p : Nat) : (Dev.holdClient d p).undocumented = d.undocumented := by simp [Dev.holdClient]
@[simp] theorem Dev.alignStatusStart_undocumented (d : Dev) (p : Nat) (never : Bool) : (Dev.alignStatusStart d p never).undocumented = d.undocumented := by
  simp [Dev.alignStatusStart]
@[simp] theorem Dev.alignEnable_undocumented (d : Dev) (p : Nat) : (Dev.alignEnable d p).undocumented = d.undocumented := by simp [Dev.alignEnable]
@[simp] theorem Dev.alignResume_undocumented (d : Dev) (p : Nat) : (Dev.alignResume d p).undocumented = d.undocumented := by simp [Dev.alignResume]
@[simp] theorem Dev.alignStop_undocumented (d : Dev) (p : Nat) : (Dev.alignStop d p).undocumented = d.undocumented := by simp [Dev.alignStop]
@[simp] theorem Dev.alignStart_undocumented (d : Dev) : (Dev.alignStart d).undocumented = d.undocumented := by simp [Dev.alignStart]
@[simp] theorem Dev.breakRuns_undocumented (d : Dev) (k : Nat) : (Dev.breakRuns d k).undocumented = d.undocumented := by simp [Dev.breakRuns]
@[simp] theorem Dev.declareOof_undocumented (d : Dev) (k : Nat) : (Dev.declareOof d k).undocumented = d.undocumented := by
  unfold Dev.declareOof
  dsimp only
  (repeat' (first | (simp; done) | split))
@[simp] theorem Dev.oofCheck_undocumented (d : Dev) (k : Nat) : (Dev.oofCheck d k).undocumented = d.undocumented := by simp [Dev.oofCheck]
@[simp] theorem Dev.losForcesOof_undocumented (d : Dev) (l : Nat) : (Dev.losForcesOof d l).undocumented = d.undocumented := by simp [Dev.losForcesOof]
@[simp] theorem patternSeen_undocumented (d : Dev) (k phase : Nat) (correct : Bool) : (patternSeen d k phase correct).undocumented = d.undocumented := by
  unfold patternSeen
  dsimp only
  (repeat' (first | (simp; done) | split))
@[simp] theorem Dev.bitsPassed_undocumented (d : Dev) (k n : Nat) : (Dev.bitsPassed d k n).undocumented = d.undocumented := by simp [Dev.bitsPassed]
@[simp] theorem framingSeen_undocumented (d : Dev) (k n : Nat) (w : BitVec 48) : (framingSeen d k n w).undocumented = d.undocumented := by
  simp [framingSeen]
@[simp] theorem Dev.changeOfAlignment_undocumented (d : Dev) (p lane shift : Nat) : (Dev.changeOfAlignment d p lane shift).undocumented = d.undocumented := by
  simp [Dev.changeOfAlignment]
@[simp] theorem laneInFrame_undocumented (d : Dev) (k : Nat) (z : Syzygy) (slot phase : Nat) : (laneInFrame d k z slot phase).undocumented = d.undocumented := by
  simp [laneInFrame]
@[simp] theorem windowEnd_undocumented (d0 : Dev) (k : Nat) : (windowEnd d0 k).undocumented = d0.undocumented := by
  unfold windowEnd
  dsimp only
  (repeat' (first | (simp; done) | split))
@[simp] theorem lofDeclared_undocumented (d : Dev) (k : Nat) : (lofDeclared d k).undocumented = d.undocumented := by simp [lofDeclared]
@[simp] theorem lofCleared_undocumented (d : Dev) (k : Nat) : (lofCleared d k).undocumented = d.undocumented := by simp [lofCleared]
@[simp] theorem lomDeclared_undocumented (d : Dev) (p : Nat) : (lomDeclared d p).undocumented = d.undocumented := by simp [lomDeclared]
@[simp] theorem lomCleared_undocumented (d : Dev) (p : Nat) : (lomCleared d p).undocumented = d.undocumented := by simp [lomCleared]
@[simp] theorem Dev.thresholds_undocumented (d : Dev) (p : Nat) : (Dev.thresholds d p).undocumented = d.undocumented := by simp [Dev.thresholds]
@[simp] theorem Dev.alignTick_undocumented (d : Dev) : (Dev.alignTick d).undocumented = d.undocumented := by simp [Dev.alignTick]
@[simp] theorem Dev.alignKept_undocumented (d : Dev) (p : Nat) : (Dev.alignKept d p).undocumented = d.undocumented := by simp [Dev.alignKept]
@[simp] theorem inMultiframe_undocumented (d : Dev) (p : Nat) : (inMultiframe d p).undocumented = d.undocumented := by simp [inMultiframe]
@[simp] theorem oomDeclared_undocumented (d : Dev) (p : Nat) : (oomDeclared d p).undocumented = d.undocumented := by simp [oomDeclared]
@[simp] theorem Dev.mfasSeen_undocumented (d : Dev) (p mfas : Nat) (marked : Bool) : (Dev.mfasSeen d p mfas marked).undocumented = d.undocumented := by
  simp [Dev.mfasSeen]
@[simp] theorem Dev.refuseMode_undocumented (d : Dev) (cause : Nat) : (Dev.refuseMode d cause).undocumented = d.undocumented := by simp [Dev.refuseMode]
@[simp] theorem Dev.startTransition_undocumented (d : Dev) (target : Nat) : (Dev.startTransition d target).undocumented = d.undocumented := by simp [Dev.startTransition]
@[simp] theorem Dev.requestMode_undocumented (d : Dev) (target : Nat) (guarded : Bool) : (Dev.requestMode d target guarded).1.undocumented = d.undocumented := by
  simp [Dev.requestMode]
@[simp] theorem Dev.wake_undocumented (d : Dev) : (Dev.wake d).undocumented = d.undocumented := by simp [Dev.wake]
@[simp] theorem Dev.spoilGate_undocumented (d : Dev) (l : Nat) : (Dev.spoilGate d l).undocumented = d.undocumented := by simp [Dev.spoilGate]
@[simp] theorem cdrLocked_undocumented (d : Dev) (l : Nat) : (cdrLocked d l).undocumented = d.undocumented := by simp [cdrLocked]
@[simp] theorem cdrUnlocked_undocumented (d : Dev) (l : Nat) : (cdrUnlocked d l).undocumented = d.undocumented := by simp [cdrUnlocked]
@[simp] theorem Dev.losSeen_undocumented (d : Dev) (l : Nat) (amplitude transitions : Bool) : (Dev.losSeen d l amplitude transitions).undocumented = d.undocumented := by
  simp [Dev.losSeen]
@[simp] theorem losDeclared_undocumented (d : Dev) (l : Nat) (amplitude transitions : Bool) : (losDeclared d l amplitude transitions).undocumented = d.undocumented := by
  simp [losDeclared]
@[simp] theorem losCleared_undocumented (d : Dev) (l : Nat) (amplitude transitions : Bool) : (losCleared d l amplitude transitions).undocumented = d.undocumented := by
  simp [losCleared]
@[simp] theorem Dev.quadEvent_undocumented (d : Dev) (q code : Nat) : (Dev.quadEvent d q code).undocumented = d.undocumented := by simp [Dev.quadEvent]
@[simp] theorem quadLocked_undocumented (d : Dev) (q : Nat) : (quadLocked d q).undocumented = d.undocumented := by simp [quadLocked]
@[simp] theorem quadLost_undocumented (d : Dev) (q : Nat) : (quadLost d q).undocumented = d.undocumented := by simp [quadLost]
@[simp] theorem Dev.quadSettle_undocumented (d : Dev) : (Dev.quadSettle d).undocumented = d.undocumented := by simp [Dev.quadSettle]
@[simp] theorem freqGateEnd_undocumented (d : Dev) (l count : Nat) (valid : Bool) : (freqGateEnd d l count valid).undocumented = d.undocumented := by simp [freqGateEnd]
@[simp] theorem rxAdapted_undocumented (d : Dev) (l : RxLane) (v : Nat) : (rxAdapted d l v).undocumented = d.undocumented := by simp [rxAdapted]
@[simp] theorem Dev.quadWrite_undocumented (d : Dev) (m : Master) (l : Nat) (f : Dev → Dev × Nat) (hf : ∀ x : Dev, (f x).1.undocumented = x.undocumented) : (Dev.quadWrite d m l f).1.undocumented = d.undocumented := by
  simp [Dev.quadWrite, hf]
@[simp] theorem squelchWrite_undocumented (p v : Nat) (d : Dev) : (squelchWrite p v d).1.undocumented = d.undocumented := by simp [squelchWrite]
@[simp] theorem prbsWrite_undocumented (l v : Nat) (d : Dev) : (prbsWrite l v d).1.undocumented = d.undocumented := by simp [prbsWrite]
@[simp] theorem Dev.prbsCheck_undocumented (d : Dev) (l : Nat) (bytes : List Byte) : (Dev.prbsCheck d l bytes).undocumented = d.undocumented := by
  simp [Dev.prbsCheck]
@[simp] theorem Dev.prbsSend_undocumented (d : Dev) (l n : Nat) : (Dev.prbsSend d l n).1.undocumented = d.undocumented := by simp [Dev.prbsSend]
@[simp] theorem lolDeclared_undocumented (d : Dev) (q : Nat) : (lolDeclared d q).undocumented = d.undocumented := by simp [lolDeclared]
@[simp] theorem lolCleared_undocumented (d : Dev) (q : Nat) : (lolCleared d q).undocumented = d.undocumented := by simp [lolCleared]
@[simp] theorem Dev.laneMarked_undocumented (d : Dev) (l skew : Nat) (bytes : List Byte) : (Dev.laneMarked d l skew bytes).undocumented = d.undocumented := by
  unfold Dev.laneMarked
  dsimp only
  (repeat' (first | (simp; done) | split))
@[simp] theorem Dev.lolFrame_undocumented (d : Dev) (q : Nat) : (Dev.lolFrame d q).undocumented = d.undocumented := by simp [Dev.lolFrame]
@[simp] theorem Dev.otlReceive_undocumented (d : Dev) (q : Nat) (raw : List Byte) (skews : List (BitVec 12)) : (Dev.otlReceive d q raw skews).1.undocumented = d.undocumented := by
  simp [Dev.otlReceive]
@[simp] theorem Dev.onSecRx_undocumented (d : Dev) (p : Nat) (f : SecRx → SecRx) : (Dev.onSecRx d p f).undocumented = d.undocumented := by simp [Dev.onSecRx]
@[simp] theorem Dev.onSecTx_undocumented (d : Dev) (p : Nat) (f : SecTx → SecTx) : (Dev.onSecTx d p f).undocumented = d.undocumented := by simp [Dev.onSecTx]
@[simp] theorem Dev.putDccRx_undocumented (d : Dev) (q : Nat) (l : List Byte) : (Dev.putDccRx d q l).undocumented = d.undocumented := by simp [Dev.putDccRx]
@[simp] theorem Dev.putDccTx_undocumented (d : Dev) (q : Nat) (l : List Byte) : (Dev.putDccTx d q l).undocumented = d.undocumented := by simp [Dev.putDccTx]
@[simp] theorem Dev.dccCapture_undocumented (d : Dev) (p : Nat) (multiplex : Bool) (l : List Byte) : (Dev.dccCapture d p multiplex l).undocumented = d.undocumented := by
  simp [Dev.dccCapture]
@[simp] theorem Dev.dccDrop_undocumented (d : Dev) (q n : Nat) : (Dev.dccDrop d q n).undocumented = d.undocumented := by simp [Dev.dccDrop]
@[simp] theorem Dev.dccConsume_undocumented (d : Dev) (q upTo : Nat) : (Dev.dccConsume d q upTo).undocumented = d.undocumented := by
  simp [Dev.dccConsume]
@[simp] theorem Dev.dccSend_undocumented (d : Dev) (p : Nat) (multiplex : Bool) (n : Nat) : (Dev.dccSend d p multiplex n).1.undocumented = d.undocumented := by
  simp [Dev.dccSend]
@[simp] theorem Dev.onRxFrame_undocumented (d : Dev) (p : Nat) (f : RxFrame → RxFrame) : (Dev.onRxFrame d p f).undocumented = d.undocumented := by
  simp [Dev.onRxFrame]
@[simp] theorem Dev.takeFrame_undocumented (d : Dev) (p n : Nat) (g : List Byte) : (Dev.takeFrame d p n g).undocumented = d.undocumented := by
  simp [Dev.takeFrame]
@[simp] theorem sdhReceive_undocumented (d : Dev) (p : Nat) (raw : List Byte) : (sdhReceive d p raw).undocumented = d.undocumented := by simp [sdhReceive]
@[simp] theorem Dev.comparePt_undocumented (d : Dev) (p : Nat) : (Dev.comparePt d p).undocumented = d.undocumented := by simp [Dev.comparePt]
@[simp] theorem Dev.payloadType_undocumented (d : Dev) (p v : Nat) : (Dev.payloadType d p v).undocumented = d.undocumented := by simp [Dev.payloadType]
@[simp] theorem Dev.opuJoin_undocumented (d : Dev) (p : Nat) (l : List Byte) : (Dev.opuJoin d p l).undocumented = d.undocumented := by
  simp [Dev.opuJoin]
theorem Dev.clientFrame_undocumented {d x : Dev} {p : Nat} {f : List Byte} (h : Dev.clientFrame d p = some (f, x)) : x.undocumented = d.undocumented := by
  simp only [Dev.clientFrame] at h
  split at h
  · cases h
  · cases h; simp
@[simp] theorem otuReceive_undocumented (d0 : Dev) (p : Nat) (raw : List Byte) : (otuReceive d0 p raw).undocumented = d0.undocumented := by
  simp [otuReceive]
@[simp] theorem Dev.cutPassed_undocumented (d : Dev) (k : Nat) : (Dev.cutPassed d k).undocumented = d.undocumented := by simp [Dev.cutPassed]
@[simp] theorem lineReceive_undocumented (d : Dev) (p : Nat) (signal : RxSignal) : (lineReceive d p signal).undocumented = d.undocumented := by
  unfold lineReceive
  dsimp only
  (repeat' split) <;> first
    | (simp; done)
    | (rename_i h; simp [Dev.clientFrame_undocumented h])
@[simp] theorem Dev.compareJ0_undocumented (d : Dev) (p : Nat) : (Dev.compareJ0 d p).undocumented = d.undocumented := by simp [Dev.compareJ0]
@[simp] theorem Dev.compareTti_undocumented (d : Dev) (p : Nat) : (Dev.compareTti d p).undocumented = d.undocumented := by simp [Dev.compareTti]
@[simp] theorem Dev.acceptStr_undocumented (d : Dev) (k status : Key) (ev : Nat) (v : Option (List Byte)) : (Dev.acceptStr d k status ev v).undocumented = d.undocumented := by
  unfold Dev.acceptStr
  split <;> simp
@[simp] theorem Dev.acceptVal_undocumented (d : Dev) (k status : Key) (ev : Nat) (v : Nat) : (Dev.acceptVal d k status ev v).undocumented = d.undocumented := by
  simp [Dev.acceptVal]
@[simp] theorem Dev.berPeriod_undocumented (d : Dev) (a errs : Nat) : (Dev.berPeriod d a errs).undocumented = d.undocumented := by
  simp [Dev.berPeriod]
@[simp] theorem sdhVisit_undocumented (p : Nat) (d : Dev) (r : SdhRec) : (sdhVisit p d r).undocumented = d.undocumented := by simp [sdhVisit]
@[simp] theorem otnVisit_undocumented (p : Nat) (d : Dev) (r : OtnRec) : (otnVisit p d r).undocumented = d.undocumented := by simp [otnVisit]
@[simp] theorem recVisit_undocumented (p : Nat) (d : Dev) (z0 : RxRec) : (recVisit p d z0).undocumented = d.undocumented := by
  unfold recVisit
  split <;> simp
@[simp] theorem Dev.sectionWork_undocumented (d : Dev) (p : Nat) : (Dev.sectionWork d p).undocumented = d.undocumented := by
  simp only [Dev.sectionWork]
  (repeat' (first | (simp; done) | split))
@[simp] theorem Dev.sectionStart_undocumented (d : Dev) (p : Nat) : (Dev.sectionStart d p).undocumented = d.undocumented := by simp [Dev.sectionStart]
@[simp] theorem Dev.signBytes_undocumented (d : Dev) (src : Nat) (l : List Byte) : (Dev.signBytes d src l).undocumented = d.undocumented := by simp [Dev.signBytes]
@[simp] theorem Dev.latchSignatures_undocumented (d : Dev) (frame : Nat) : (Dev.latchSignatures d frame).undocumented = d.undocumented := by simp [Dev.latchSignatures]
@[simp] theorem Dev.writeTogether_undocumented (d : Dev) (w : PairedWrite) (check : Nat) (apply : Dev → Dev) (happly : ∀ x : Dev, (apply x).undocumented = x.undocumented) : (Dev.writeTogether d w check apply).1.undocumented = d.undocumented := by
  simp [Dev.writeTogether, happly]
@[simp] theorem soTestApply_undocumented (p v : Nat) (d : Dev) : (soTestApply p v d).undocumented = d.undocumented := by simp [soTestApply]
@[simp] theorem dccTxApply_undocumented (p : Nat) (multiplex : Bool) (data : List Byte) (d : Dev) : (dccTxApply p multiplex data d).undocumented = d.undocumented := by
  simp [dccTxApply]
@[simp] theorem dccTxWrite_undocumented (p : Nat) (multiplex : Bool) (data : List Byte) (d : Dev) : (dccTxWrite p multiplex data d).1.undocumented = d.undocumented := by
  simp [dccTxWrite]
@[simp] theorem sdhTransmit_undocumented (d : Dev) (p : Nat) (payload : List Byte) : (sdhTransmit d p payload).1.undocumented = d.undocumented := by simp [sdhTransmit]
@[simp] theorem otuTransmit_undocumented (d : Dev) (p : Nat) (payload : List Byte) : (otuTransmit d p payload).1.undocumented = d.undocumented := by simp [otuTransmit]
@[simp] theorem Dev.onPathRx_undocumented (d : Dev) (a : Nat) (f : PathRx → PathRx) : (Dev.onPathRx d a f).undocumented = d.undocumented := by
  simp [Dev.onPathRx]
@[simp] theorem Dev.onPathTx_undocumented (d : Dev) (a : Nat) (f : PathTx → PathTx) : (Dev.onPathTx d a f).undocumented = d.undocumented := by
  simp [Dev.onPathTx]
@[simp] theorem Dev.onClient_undocumented (d : Dev) (c : Nat) (f : ClientSt → ClientSt) : (Dev.onClient d c f).undocumented = d.undocumented := by simp [Dev.onClient]
@[simp] theorem Dev.onCh_undocumented (d : Dev) (a : Nat) (f : TfiCh → TfiCh) : (Dev.onCh d a f).undocumented = d.undocumented := by simp [Dev.onCh]
@[simp] theorem Dev.clientWrite_undocumented (d : Dev) (c : Nat) (l : List Bool) : (Dev.clientWrite d c l).undocumented = d.undocumented := by
  simp [Dev.clientWrite]
@[simp] theorem Dev.deliverTo_undocumented (d : Dev) (w : Nat) (c : List Byte) : (Dev.deliverTo d w c).undocumented = d.undocumented := by
  simp [Dev.deliverTo]
@[simp] theorem Dev.deliver_undocumented (d : Dev) (a : Nat) (c : List Byte) : (Dev.deliver d a c).undocumented = d.undocumented := by
  simp [Dev.deliver]
@[simp] theorem Dev.onPtrTx_undocumented (d : Dev) (a : Nat) (f : PtrTx → PtrTx) : (Dev.onPtrTx d a f).undocumented = d.undocumented := by
  simp [Dev.onPtrTx]
@[simp] theorem Dev.recentre_undocumented (d : Dev) (a : Nat) : (Dev.recentre d a).undocumented = d.undocumented := by simp [Dev.recentre]
@[simp] theorem Dev.moveFill_undocumented (d : Dev) (a : Nat) (n : Int) : (Dev.moveFill d a n).undocumented = d.undocumented := by
  simp [Dev.moveFill]
@[simp] theorem Dev.contStart_undocumented (d : Dev) (a off : Nat) : (Dev.contStart d a off).undocumented = d.undocumented := by simp [Dev.contStart]
@[simp] theorem Dev.generate_undocumented (d : Dev) (a : Nat) (first : Bool) : (Dev.generate d a first).undocumented = d.undocumented := by
  simp [Dev.generate]
@[simp] theorem pointerWord_undocumented (d : Dev) (a word : Nat) (members : List Nat) : (pointerWord d a word members).undocumented = d.undocumented := by
  simp [pointerWord]
@[simp] theorem pathPeriod_undocumented (d : Dev) (a : Nat) : (pathPeriod d a).undocumented = d.undocumented := by
  unfold pathPeriod
  dsimp only
  (repeat' (first | (simp; done) | split))
@[simp] theorem Dev.pointerStart_undocumented (d : Dev) (a : Nat) : (Dev.pointerStart d a).undocumented = d.undocumented := by simp [Dev.pointerStart]
@[simp] theorem Dev.onPohCtx_undocumented (d : Dev) (a : Nat) (f : PohCtx → PohCtx) : (Dev.onPohCtx d a f).undocumented = d.undocumented := by simp [Dev.onPohCtx]
@[simp] theorem Dev.comparePath_undocumented (d : Dev) (a : Nat) : (Dev.comparePath d a).undocumented = d.undocumented := by simp [Dev.comparePath]
@[simp] theorem Dev.capture_undocumented (d : Dev) (a : Nat) (v : List Byte) : (Dev.capture d a v).undocumented = d.undocumented := by simp [Dev.capture]
@[simp] theorem Dev.h4Work_undocumented (d : Dev) (a v : Nat) : (Dev.h4Work d a v).undocumented = d.undocumented := by simp [Dev.h4Work]
@[simp] theorem Dev.markerRx_undocumented (d : Dev) (a t : Nat) (v : Bool) : (Dev.markerRx d a t v).undocumented = d.undocumented := by
  simp [Dev.markerRx]
@[simp] theorem Dev.pohPeriod_undocumented (d : Dev) (a : Nat) (l : List Byte) (computed : Option Byte) (t : Nat) : (Dev.pohPeriod d a l computed t).undocumented = d.undocumented := by
  unfold Dev.pohPeriod
  dsimp only
  (repeat' (first | (simp; done) | split))
@[simp] theorem Dev.tuDeliver_undocumented (d : Dev) (a t : Nat) (raw : List Byte) : (Dev.tuDeliver d a t raw).undocumented = d.undocumented := by
  simp [Dev.tuDeliver]
@[simp] theorem pohVisit_undocumented (d : Dev) (a : Nat) : (pohVisit d a).undocumented = d.undocumented := by simp [pohVisit]
@[simp] theorem markerTick_undocumented (d : Dev) (a : Nat) : (markerTick d a).undocumented = d.undocumented := by simp [markerTick]
@[simp] theorem markerLost_undocumented (d : Dev) (a : Nat) : (markerLost d a).undocumented = d.undocumented := by simp [markerLost]
@[simp] theorem Dev.markerRestart_undocumented (d : Dev) (a : Nat) : (Dev.markerRestart d a).undocumented = d.undocumented := by simp [Dev.markerRestart]
@[simp] theorem Dev.h4Start_undocumented (d : Dev) (a : Nat) : (Dev.h4Start d a).undocumented = d.undocumented := by simp [Dev.h4Start]
@[simp] theorem Dev.pohStart_undocumented (d : Dev) (a : Nat) : (Dev.pohStart d a).undocumented = d.undocumented := by simp [Dev.pohStart]
@[simp] theorem Dev.onContext_undocumented (d : Dev) (m : Master) (gate : Nat) (levels : List Nat) (f : Nat → Dev → Dev × Nat) (hf : ∀ (v : Nat) (x : Dev), (f v x).1.undocumented = x.undocumented) : (Dev.onContext d m gate levels f).1.undocumented = d.undocumented := by
  simp [Dev.onContext, hf]
@[simp] theorem traceCaptureWrite_undocumented (m : Master) (v : Nat) (d : Dev) : (traceCaptureWrite m v d).1.undocumented = d.undocumented := by simp [traceCaptureWrite]
@[simp] theorem pohTestApply_undocumented (a v : Nat) (d : Dev) : (pohTestApply a v d).undocumented = d.undocumented := by simp [pohTestApply]
@[simp] theorem Dev.gapBytes_undocumented (d : Dev) (a n : Nat) : (Dev.gapBytes d a n).1.undocumented = d.undocumented := by simp [Dev.gapBytes]
@[simp] theorem Dev.clientMap_undocumented (d : Dev) (a c : Nat) : (Dev.clientMap d a c).1.undocumented = d.undocumented := by simp [Dev.clientMap]
@[simp] theorem Dev.markerTx_undocumented (d : Dev) (a : Nat) : (Dev.markerTx d a).undocumented = d.undocumented := by simp [Dev.markerTx]
@[simp] theorem Dev.ownPoh_undocumented (d : Dev) (a : Nat) : (Dev.ownPoh d a).1.undocumented = d.undocumented := by simp [Dev.ownPoh]
@[simp] theorem Dev.sealCont_undocumented (d : Dev) (a : Nat) (own : Bool) (body : List Byte) : (Dev.sealCont d a own body).1.undocumented = d.undocumented := by
  simp [Dev.sealCont]
@[simp] theorem Dev.buildLeaf_undocumented (d : Dev) (a : Nat) : (Dev.buildLeaf d a).1.undocumented = d.undocumented := by
  unfold Dev.buildLeaf
  dsimp only
  (repeat' (first | (simp; done) | split))
@[simp] theorem Dev.nextCont_undocumented (build : Dev → Nat → Dev × List Byte) (d : Dev) (a : Nat) (hbuild : ∀ (x : Dev) (w0 : Nat), (build x w0).1.undocumented = x.undocumented) : (Dev.nextCont build d a).1.undocumented = d.undocumented := by
  unfold Dev.nextCont
  split <;> simp [hbuild]
@[simp] theorem Dev.pull_undocumented (build : Dev → Nat → Dev × List Byte) (hbuild : ∀ (x : Dev) (w0 : Nat), (build x w0).1.undocumented = x.undocumented) (fuel : Nat) (d : Dev) (a n : Nat) : (Dev.pull build fuel d a n).1.undocumented = d.undocumented := by
  induction fuel generalizing d n with
  | zero => rfl
  | succ k ih =>
    unfold Dev.pull
    dsimp only
    (repeat' split) <;> simp [ih, hbuild]
@[simp] theorem Dev.bytesOf_undocumented (build : Dev → Nat → Dev × List Byte) (d : Dev) (a n : Nat) (ais : Bool) (hbuild : ∀ (x : Dev) (w0 : Nat), (build x w0).1.undocumented = x.undocumented) : (Dev.bytesOf build d a n ais).1.undocumented = d.undocumented := by
  unfold Dev.bytesOf
  (repeat' split) <;> simp [hbuild]
@[simp] theorem Dev.sentNow_undocumented (d : Dev) (a : Nat) : (Dev.sentNow d a).undocumented = d.undocumented := by simp [Dev.sentNow]
@[simp] theorem Dev.sendPeriod_undocumented (build : Dev → Nat → Dev × List Byte) (d : Dev) (a n0 n1 : Nat) (hbuild : ∀ (x : Dev) (w0 : Nat), (build x w0).1.undocumented = x.undocumented) : (Dev.sendPeriod build d a n0 n1).1.undocumented = d.undocumented := by
  simp only [Dev.sendPeriod]
  (repeat' (first | (simp [hbuild]; done) | split))
@[simp] theorem Dev.tuQuarter_undocumented (d : Dev) (a v : Nat) : (Dev.tuQuarter d a v).1.undocumented = d.undocumented := by
  simp only [Dev.tuQuarter]
  (repeat' (first | (simp; done) | split))
@[simp] theorem Dev.gather_undocumented {α : Type} (d : Dev) (l : List Nat) (f : Dev → Nat → Dev × α) (hf : ∀ (x : Dev) (i : Nat), (f x i).1.undocumented = x.undocumented) : (Dev.gather d l f).1.undocumented = d.undocumented := by
  suffices h : ∀ s : Dev × List α, (l.foldl (fun s i => let r := f s.1 i; (r.1, s.2 ++ [r.2])) s).1.undocumented = s.1.undocumented from h (d, [])
  induction l with
  | nil => intro s; rfl
  | cons i r ih => intro s; rw [List.foldl_cons, ih]; exact hf _ _
@[simp] theorem Dev.tug2Bytes_undocumented (d : Dev) (par k l v : Nat) : (Dev.tug2Bytes d par k l v).1.undocumented = d.undocumented := by
  unfold Dev.tug2Bytes
  dsimp only
  rw [Dev.gather_undocumented]
  intro x i
  split <;> simp
@[simp] theorem Dev.tug2Rows_undocumented (d : Dev) (par k v : Nat) : (Dev.tug2Rows d par k v).1.undocumented = d.undocumented := by
  simp only [Dev.tug2Rows]
  (repeat' (first | (simp; done) | split))
@[simp] theorem Dev.tug3Send_undocumented (d : Dev) (par k v : Nat) : (Dev.tug3Send d par k v).1.undocumented = d.undocumented := by
  simp only [Dev.tug3Send]
  (repeat' (first | (simp; done) | split))
@[simp] theorem Dev.buildStructured_undocumented (d : Dev) (a : Nat) : (Dev.buildStructured d a).1.undocumented = d.undocumented := by
  simp only [Dev.buildStructured]
  (repeat' (first | (simp; done) | split))
@[simp] theorem Dev.buildAny_undocumented (d : Dev) (a : Nat) : (Dev.buildAny d a).1.undocumented = d.undocumented := by
  simp only [Dev.buildAny]
  (repeat' (first | (simp; done) | split))
@[simp] theorem Dev.auSend_undocumented (d : Dev) (a : Nat) : (Dev.auSend d a).1.undocumented = d.undocumented := by
  simp only [Dev.auSend]
  (repeat' (first | (simp; done) | split))
@[simp] theorem Dev.au3Send_undocumented (d : Dev) (p : Nat) (at_ : Option Nat) : (Dev.au3Send d p at_).1.undocumented = d.undocumented := by
  simp only [Dev.au3Send]
  (repeat' (first | (simp; done) | split))
@[simp] theorem Dev.ausSend_undocumented (p : Nat) (live : List Nat) (fuel : Nat) (d : Dev) (i n : Nat) : (Dev.ausSend p live fuel d i n).1.undocumented = d.undocumented := by
  induction fuel generalizing d i with
  | zero => rfl
  | succ k ih =>
    unfold Dev.ausSend
    dsimp only
    (repeat' split) <;> simp [ih]
@[simp] theorem Dev.stmPayload_undocumented (d : Dev) (p : Nat) (moves : List (Addr × Int)) : (Dev.stmPayload d p moves).1.undocumented = d.undocumented := by
  simp only [Dev.stmPayload]
  (repeat' (first | (simp; done) | split))
@[simp] theorem Dev.stmSend_undocumented (d : Dev) (p : Nat) (moves : List (Addr × Int)) : (Dev.stmSend d p moves).1.undocumented = d.undocumented := by
  simp only [Dev.stmSend]
  (repeat' (first | (simp; done) | split))
@[simp] theorem Dev.stmClientSend_undocumented (d : Dev) (p : Nat) (moves : List (Addr × Int)) : (Dev.stmClientSend d p moves).undocumented = d.undocumented := by
  simp only [Dev.stmClientSend]
  (repeat' (first | (simp; done) | split))
@[simp] theorem Dev.otuSend_undocumented (d : Dev) (p : Nat) (moves : List (Addr × Int)) : (Dev.otuSend d p moves).1.undocumented = d.undocumented := by
  simp only [Dev.otuSend]
  (repeat' (first | (simp; done) | split))
@[simp] theorem Dev.laneSend_undocumented (d : Dev) (l : Nat) (bytes : List Byte) : (Dev.laneSend d l bytes).undocumented = d.undocumented := by
  simp [Dev.laneSend]
@[simp] theorem Dev.pinsSend_undocumented (d : Dev) (p mfas : Nat) (f : List Byte) : (Dev.pinsSend d p mfas f).undocumented = d.undocumented := by
  simp [Dev.pinsSend]
@[simp] theorem transmitFrame_undocumented (d : Dev) (p : Nat) (client : Bool) (moves : List (Addr × Int)) : (transmitFrame d p client moves).undocumented = d.undocumented := by
  simp only [transmitFrame]
  (repeat' (first | (simp; done) | split))
@[simp] theorem Dev.report_undocumented (d : Dev) (a new : Nat) : (Dev.report d a new).undocumented = d.undocumented := by simp [Dev.report]
@[simp] theorem Dev.defectPort_undocumented (d : Dev) (p : Nat) : (Dev.defectPort d p).undocumented = d.undocumented := by simp [Dev.defectPort]
@[simp] theorem Dev.defectPath_undocumented (d : Dev) (a : Nat) : (Dev.defectPath d a).undocumented = d.undocumented := by simp [Dev.defectPath]
@[simp] theorem defectVisit_undocumented (d : Dev) (a : Nat) : (defectVisit d a).undocumented = d.undocumented := by simp [defectVisit]
@[simp] theorem berBlockEnd_undocumented (d : Dev) (a : Nat) (sf : Bool) : (berBlockEnd d a sf).undocumented = d.undocumented := by simp [berBlockEnd]
@[simp] theorem defectCounts_undocumented (d : Dev) : (defectCounts d).undocumented = d.undocumented := by simp [defectCounts]
@[simp] theorem Dev.defectStart_undocumented (d : Dev) (a : Nat) : (Dev.defectStart d a).undocumented = d.undocumented := by simp [Dev.defectStart]
@[simp] theorem Dev.tick_undocumented (d : Dev) (irregular : Bool) (number : Option Nat) : (Dev.tick d irregular number).undocumented = d.undocumented := by
  simp [Dev.tick]
@[simp] theorem Dev.ppsLost_undocumented (d : Dev) : (Dev.ppsLost d).undocumented = d.undocumented := by simp [Dev.ppsLost]
@[simp] theorem ppsEdge_undocumented (d : Dev) (falling : Bool) (interval since : Nat) : (ppsEdge d falling interval since).undocumented = d.undocumented := by
  simp [ppsEdge]
@[simp] theorem flywheelTick_undocumented (d : Dev) : (flywheelTick d).undocumented = d.undocumented := by simp [flywheelTick]
@[simp] theorem ppsLoss_undocumented (d : Dev) : (ppsLoss d).undocumented = d.undocumented := by simp [ppsLoss]
@[simp] theorem tickEffect_undocumented (d : Dev) : (tickEffect d).undocumented = d.undocumented := by simp [tickEffect]
@[simp] theorem closePath_undocumented (d : Dev) (a : Nat) : (closePath d a).undocumented = d.undocumented := by
  unfold closePath
  dsimp only
  (repeat' (first | (simp; done) | split))
@[simp] theorem Dev.cpmEvent_undocumented (d : Dev) (c detail : Nat) (clear : Bool) : (Dev.cpmEvent d c detail clear).undocumented = d.undocumented := by
  simp [Dev.cpmEvent]
@[simp] theorem Dev.cpmAlerts_undocumented (d : Dev) (c : Nat) : (Dev.cpmAlerts d c).undocumented = d.undocumented := by simp [Dev.cpmAlerts]
@[simp] theorem Dev.cpmChange_undocumented (d : Dev) (c : Nat) (last : List (Bool × Bool)) (un : Bool) : (Dev.cpmChange d c last un).undocumented = d.undocumented := by
  simp [Dev.cpmChange]
@[simp] theorem closeClient_undocumented (d : Dev) (c : Nat) : (closeClient d c).undocumented = d.undocumented := by
  unfold closeClient
  dsimp only
  (repeat' (first | (simp; done) | split))
@[simp] theorem Dev.binSpoil_undocumented (d : Dev) (a i : Nat) : (Dev.binSpoil d a i).undocumented = d.undocumented := by simp [Dev.binSpoil]
@[simp] theorem Dev.visitEcc_undocumented (d : Dev) (a i : Nat) (ecc : Ecc) : (Dev.visitEcc d a i ecc).undocumented = d.undocumented := by
  simp only [Dev.visitEcc]
  (repeat' (first | (simp; done) | split))
@[simp] theorem closeOut_undocumented (d : Dev) (ecc : Ecc) (i : Nat) (t : PmTarget) : (closeOut d ecc i t).undocumented = d.undocumented := by
  cases t <;> simp [closeOut]
@[simp] theorem managementRollover_undocumented (d : Dev) : (managementRollover d).undocumented = d.undocumented := by simp [managementRollover]
@[simp] theorem Dev.pmRelease_undocumented (d : Dev) : (Dev.pmRelease d).undocumented = d.undocumented := by simp [Dev.pmRelease]
@[simp] theorem Dev.pmInvalidate_undocumented (d : Dev) : (Dev.pmInvalidate d).undocumented = d.undocumented := by simp [Dev.pmInvalidate]
@[simp] theorem Dev.pmStart_undocumented (d : Dev) (a : Nat) : (Dev.pmStart d a).undocumented = d.undocumented := by simp [Dev.pmStart]
@[simp] theorem Dev.cpmStart_undocumented (d : Dev) (c : Nat) : (Dev.cpmStart d c).undocumented = d.undocumented := by simp [Dev.cpmStart]
@[simp] theorem Dev.cpmDelay_undocumented (d : Dev) (c delay : Nat) (asym : Int) : (Dev.cpmDelay d c delay asym).undocumented = d.undocumented := by simp [Dev.cpmDelay]
@[simp] theorem pmSecondWrite_undocumented (v : Nat) (coincident : Bool) (d : Dev) : (pmSecondWrite v coincident d).1.undocumented = d.undocumented := by
  simp [pmSecondWrite]
@[simp] theorem pmClear_undocumented (m : Master) (v : Nat) (d : Dev) : (pmClear m v d).1.undocumented = d.undocumented := by simp [pmClear]
@[simp] theorem cpmClear_undocumented (c v : Nat) (d : Dev) : (cpmClear c v d).1.undocumented = d.undocumented := by simp [cpmClear]
@[simp] theorem pmBlockDone_undocumented (d : Dev) (m : Master) (n : Nat) : (pmBlockDone d m n).undocumented = d.undocumented := by simp [pmBlockDone]
@[simp] theorem pmSnapshot_undocumented (d : Dev) : (pmSnapshot d).undocumented = d.undocumented := by simp [pmSnapshot]
@[simp] theorem Dev.onProt_undocumented (d : Dev) (w : Nat) (f : Prot → Prot) : (Dev.onProt d w f).undocumented = d.undocumented := by simp [Dev.onProt]
@[simp] theorem Dev.latchTriggers_undocumented (d : Dev) : (Dev.latchTriggers d).undocumented = d.undocumented := by simp [Dev.latchTriggers]
@[simp] theorem Dev.showCommand_undocumented (d : Dev) (w : Nat) : (Dev.showCommand d w).undocumented = d.undocumented := by simp [Dev.showCommand]
@[simp] theorem selectorVisit_undocumented (d : Dev) (w : Nat) : (selectorVisit d w).undocumented = d.undocumented := by simp [selectorVisit]
@[simp] theorem mspDecide_undocumented (d : Dev) (w : Nat) : (mspDecide d w).undocumented = d.undocumented := by simp [mspDecide]
@[simp] theorem sectionVisit_undocumented (d : Dev) (p : Nat) : (sectionVisit d p).undocumented = d.undocumented := by
  simp only [sectionVisit]
  (repeat' (first | (simp; done) | split))
@[simp] theorem Dev.protEvent_undocumented (d : Dev) (code n a : Nat) : (Dev.protEvent d code n a).undocumented = d.undocumented := by simp [Dev.protEvent]
@[simp] theorem fopDeclare_undocumented (d : Dev) (w : Nat) (f : ApsFailure) : (fopDeclare d w f).undocumented = d.undocumented := by simp [fopDeclare]
@[simp] theorem apsClear_undocumented (d : Dev) (w : Nat) (f : ApsFailure) : (apsClear d w f).undocumented = d.undocumented := by simp [apsClear]
@[simp] theorem holdOffExpiry_undocumented (d : Dev) (w : Nat) (k : Member) : (holdOffExpiry d w k).undocumented = d.undocumented := by simp [holdOffExpiry]
@[simp] theorem wtrExpiry_undocumented (d : Dev) (w : Nat) : (wtrExpiry d w).undocumented = d.undocumented := by simp [wtrExpiry]
@[simp] theorem exerciseEnd_undocumented (d : Dev) (p : Nat) : (exerciseEnd d p).undocumented = d.undocumented := by simp [exerciseEnd]
@[simp] theorem commandApply_undocumented (w c : Nat) (d : Dev) : (commandApply w c d).undocumented = d.undocumented := by simp [commandApply]
@[simp] theorem commandWrite_undocumented (w c : Nat) (d : Dev) : (commandWrite w c d).1.undocumented = d.undocumented := by simp [commandWrite]
@[simp] theorem Dev.switchOne_undocumented (d : Dev) (w : Nat) : (Dev.switchOne d w).undocumented = d.undocumented := by simp [Dev.switchOne]
@[simp] theorem Dev.applySelections_undocumented (d : Dev) : (Dev.applySelections d).undocumented = d.undocumented := by
  unfold Dev.applySelections
  dsimp only
  (repeat' (first | (simp; done) | split))
@[simp] theorem Dev.protStart_undocumented (d : Dev) (w : Nat) : (Dev.protStart d w).undocumented = d.undocumented := by simp [Dev.protStart]
@[simp] theorem Dev.protGone_undocumented (d : Dev) (w : Nat) : (Dev.protGone d w).undocumented = d.undocumented := by simp [Dev.protGone]
@[simp] theorem Dev.clientEvent_undocumented (d : Dev) (c detail : Nat) : (Dev.clientEvent d c detail).undocumented = d.undocumented := by simp [Dev.clientEvent]
@[simp] theorem clientDeclare_undocumented (d : Dev) (c : Nat) (f : ClientDefect) : (clientDeclare d c f).undocumented = d.undocumented := by simp [clientDeclare]
@[simp] theorem clientClear_undocumented (d : Dev) (c : Nat) (f : ClientDefect) : (clientClear d c f).undocumented = d.undocumented := by simp [clientClear]
@[simp] theorem Dev.ingressPush_undocumented (d : Dev) (c : Nat) (data : List Byte) : (Dev.ingressPush d c data).undocumented = d.undocumented := by
  simp [Dev.ingressPush]
@[simp] theorem clientReceive_undocumented (d : Dev) (c : Nat) (errored : Bool) (data : List Byte) : (clientReceive d c errored data).undocumented = d.undocumented := by
  simp [clientReceive]
@[simp] theorem Dev.slewChanged_undocumented (d : Dev) (c old : Nat) : (Dev.slewChanged d c old).undocumented = d.undocumented := by
  simp [Dev.slewChanged]
@[simp] theorem Dev.slewTo_undocumented (d : Dev) (c t : Nat) : (Dev.slewTo d c t).undocumented = d.undocumented := by simp [Dev.slewTo]
@[simp] theorem Dev.fillAtTarget_undocumented (d : Dev) (c t : Nat) : (Dev.fillAtTarget d c t).undocumented = d.undocumented := by simp [Dev.fillAtTarget]
@[simp] theorem ingressSlip_undocumented (d : Dev) (c : Nat) : (ingressSlip d c).undocumented = d.undocumented := by simp [ingressSlip]
@[simp] theorem bufferStarved_undocumented (d : Dev) (c : Nat) : (bufferStarved d c).undocumented = d.undocumented := by simp [bufferStarved]
@[simp] theorem bufferOverflow_undocumented (d : Dev) (c : Nat) : (bufferOverflow d c).undocumented = d.undocumented := by simp [bufferOverflow]
@[simp] theorem starvationEnd_undocumented (d : Dev) (c : Nat) : (starvationEnd d c).undocumented = d.undocumented := by simp [starvationEnd]
@[simp] theorem Dev.clientSend_undocumented (d : Dev) (c : Nat) : (Dev.clientSend d c).undocumented = d.undocumented := by simp [Dev.clientSend]
@[simp] theorem Dev.setPin_undocumented (d : Dev) (c st : Nat) : (Dev.setPin d c st).undocumented = d.undocumented := by simp [Dev.setPin]
@[simp] theorem Dev.pinAt_undocumented (d : Dev) (c st : Nat) (fill : Int) (step : Bool) : (Dev.pinAt d c st fill step).undocumented = d.undocumented := by
  simp [Dev.pinAt]
@[simp] theorem Dev.skewWork_undocumented (d : Dev) (c : Nat) : (Dev.skewWork d c).undocumented = d.undocumented := by
  unfold Dev.skewWork
  dsimp only
  (repeat' (first | (simp; done) | split))
@[simp] theorem Dev.pinSwitch_undocumented (d : Dev) (c : Nat) : (Dev.pinSwitch d c).undocumented = d.undocumented := by
  unfold Dev.pinSwitch
  dsimp only
  (repeat' split) <;> simp only [Dev.pinAt_undocumented, Dev.setPin_undocumented, Dev.set1_undocumented, Dev.onClient_undocumented]
@[simp] theorem Dev.holdEnds_undocumented (d : Dev) (c : Nat) : (Dev.holdEnds d c).undocumented = d.undocumented := by
  unfold Dev.holdEnds
  dsimp only
  (repeat' (first | (simp; done) | split))
@[simp] theorem Dev.asymCheck_undocumented (d : Dev) (c : Nat) : (Dev.asymCheck d c).undocumented = d.undocumented := by simp [Dev.asymCheck]
@[simp] theorem Dev.pinCompute_undocumented (d : Dev) (c reading : Nat) (far : FarReport) (fresh : Bool) : (Dev.pinCompute d c reading far fresh).undocumented = d.undocumented := by
  simp [Dev.pinCompute]
@[simp] theorem Dev.pinOpen_undocumented (d : Dev) (c st : Nat) (step : Bool) : (Dev.pinOpen d c st step).undocumented = d.undocumented := by simp [Dev.pinOpen]
@[simp] theorem Dev.pinRetarget_undocumented (d : Dev) (c : Nat) : (Dev.pinRetarget d c).undocumented = d.undocumented := by
  unfold Dev.pinRetarget
  split <;> simp
@[simp] theorem Dev.pinClosed_undocumented (d : Dev) (c : Nat) : (Dev.pinClosed d c).undocumented = d.undocumented := by
  unfold Dev.pinClosed
  dsimp only
  (repeat' (first | (simp; done) | split))
@[simp] theorem Dev.farCheck_undocumented (d : Dev) (c : Nat) : (Dev.farCheck d c).undocumented = d.undocumented := by simp [Dev.farCheck]
@[simp] theorem clientVisit_undocumented (d : Dev) (c : Nat) : (clientVisit d c).undocumented = d.undocumented := by simp [clientVisit]
@[simp] theorem farApply_undocumented (c : Nat) (l : List Byte) (d : Dev) : (farApply c l d).undocumented = d.undocumented := by simp [farApply]
@[simp] theorem farWrite_undocumented (c : Nat) (l : List Byte) (d : Dev) : (farWrite c l d).1.undocumented = d.undocumented := by simp [farWrite]
@[simp] theorem clientTestApply_undocumented (c v : Nat) (d : Dev) : (clientTestApply c v d).undocumented = d.undocumented := by simp [clientTestApply]
@[simp] theorem Dev.clientStart_undocumented (d : Dev) (c : Nat) : (Dev.clientStart d c).undocumented = d.undocumented := by simp [Dev.clientStart]
@[simp] theorem Dev.onTfi_undocumented (d : Dev) (l : Nat) (f : TfiLane → TfiLane) : (Dev.onTfi d l f).undocumented = d.undocumented := by simp [Dev.onTfi]
@[simp] theorem Dev.onMateLane_undocumented (d : Dev) (k : Nat) (f : TfiLane → TfiLane) : (Dev.onMateLane d k f).undocumented = d.undocumented := by simp [Dev.onMateLane]
@[simp] theorem Dev.tfiEvent_undocumented (d : Dev) (l detail level a : Nat) : (Dev.tfiEvent d l detail level a).undocumented = d.undocumented := by simp [Dev.tfiEvent]
@[simp] theorem Dev.onCellLane_undocumented (d : Dev) (c : CellLane) (f : TfiLane → TfiLane) : (Dev.onCellLane d c f).undocumented = d.undocumented := by
  unfold Dev.onCellLane
  split <;> simp
@[simp] theorem Dev.setDelin_undocumented (d : Dev) (c : CellLane) (st : Nat) : (Dev.setDelin d c st).undocumented = d.undocumented := by
  unfold Dev.setDelin
  split <;> simp
@[simp] theorem blockLock_undocumented (d : Dev) (c : CellLane) : (blockLock d c).undocumented = d.undocumented := by simp [blockLock]
@[simp] theorem blockLockLoss_undocumented (d : Dev) (c : CellLane) : (blockLockLoss d c).undocumented = d.undocumented := by simp [blockLockLoss]
@[simp] theorem Dev.delineate_undocumented (d : Dev) (c : CellLane) (ok : Bool) : (Dev.delineate d c ok).undocumented = d.undocumented := by simp [Dev.delineate]
@[simp] theorem Dev.playEmpty_undocumented (d : Dev) (a : Nat) : (Dev.playEmpty d a).undocumented = d.undocumented := by simp [Dev.playEmpty]
@[simp] theorem Dev.setIn_undocumented (d : Dev) (a st : Nat) : (Dev.setIn d a st).undocumented = d.undocumented := by simp [Dev.setIn]
@[simp] theorem Dev.playOut_undocumented (d : Dev) (a fuel : Nat) : (Dev.playOut d a fuel).undocumented = d.undocumented := by
  induction fuel generalizing d with
  | zero => rfl
  | succ k ih =>
    unfold Dev.playOut
    dsimp only
    split <;> simp [ih]
@[simp] theorem Dev.tfiReturn_undocumented (d : Dev) (a : Nat) (was : Bool) : (Dev.tfiReturn d a was).undocumented = d.undocumented := by simp [Dev.tfiReturn]
@[simp] theorem Dev.underrun_undocumented (d : Dev) (a l : Nat) : (Dev.underrun d a l).undocumented = d.undocumented := by simp [Dev.underrun]
@[simp] theorem Dev.waitCell_undocumented (d : Dev) (a cso : Nat) (payload : List Byte) : (Dev.waitCell d a cso payload).undocumented = d.undocumented := by
  simp [Dev.waitCell]
@[simp] theorem Dev.dataCell_undocumented (d : Dev) (a l cso seq : Nat) (ais : Bool) (payload : List Byte) : (Dev.dataCell d a l cso seq ais payload).undocumented = d.undocumented := by
  simp only [Dev.dataCell]
  (repeat' (first | (simp; done) | split))
@[simp] theorem Dev.cellDeliver_undocumented (d : Dev) (l : Nat) (head trail : Nat) (payload : List Byte) : (Dev.cellDeliver d l head trail payload).undocumented = d.undocumented := by
  simp only [Dev.cellDeliver]
  (repeat' (first | (simp; done) | split))
@[simp] theorem cellReceived_undocumented (d : Dev) (c : CellLane) (raw : List Byte) (syncOk : Bool) : (cellReceived d c raw syncOk).undocumented = d.undocumented := by
  simp only [cellReceived]
  (repeat' (first | (simp; done) | split))
@[simp] theorem cellSend_undocumented (d : Dev) (l : Nat) : (cellSend d l).undocumented = d.undocumented := by
  unfold cellSend
  dsimp only
  (repeat' (first | (simp; done) | split))
@[simp] theorem creditStall_undocumented (d : Dev) (l : Nat) : (creditStall d l).undocumented = d.undocumented := by simp [creditStall]
@[simp] theorem Dev.dropped_undocumented (d : Dev) (l : Nat) (c : Cell) : (Dev.dropped d l c).undocumented = d.undocumented := by
  unfold Dev.dropped
  split <;> simp
@[simp] theorem Dev.enqueue_undocumented (d : Dev) (l : Nat) (c : Cell) : (Dev.enqueue d l c).undocumented = d.undocumented := by
  unfold Dev.enqueue
  dsimp only
  (repeat' (first | (simp; done) | split))
@[simp] theorem cellGenerate_undocumented (d : Dev) (a : Nat) : (cellGenerate d a).undocumented = d.undocumented := by simp [cellGenerate]
@[simp] theorem playoutUnderrun_undocumented (d : Dev) (a : Nat) : (playoutUnderrun d a).undocumented = d.undocumented := by simp [playoutUnderrun]
@[simp] theorem Dev.tfiTick_undocumented (d : Dev) : (Dev.tfiTick d).undocumented = d.undocumented := by
  unfold Dev.tfiTick
  apply foldl_undocumented
  intro x a
  split <;> simp
@[simp] theorem Dev.tfiLaneStart_undocumented (d : Dev) (l : Nat) : (Dev.tfiLaneStart d l).undocumented = d.undocumented := by simp [Dev.tfiLaneStart]
@[simp] theorem Dev.mateLaneStart_undocumented (d : Dev) (k : Nat) : (Dev.mateLaneStart d k).undocumented = d.undocumented := by simp [Dev.mateLaneStart]
@[simp] theorem Dev.tfiChStart_undocumented (d : Dev) (a : Nat) : (Dev.tfiChStart d a).undocumented = d.undocumented := by simp [Dev.tfiChStart]
@[simp] theorem Dev.tfiChNew_undocumented (d : Dev) (a : Nat) : (Dev.tfiChNew d a).undocumented = d.undocumented := by simp [Dev.tfiChNew]
@[simp] theorem Dev.tfiChGone_undocumented (d : Dev) (a entry ctl : Nat) : (Dev.tfiChGone d a entry ctl).undocumented = d.undocumented := by simp [Dev.tfiChGone]
@[simp] theorem Dev.eachPort_undocumented (d : Dev) (f : Dev → Nat → Dev) (hf : ∀ (x : Dev) (v : Nat), (f x v).undocumented = x.undocumented) : (Dev.eachPort d f).undocumented = d.undocumented := by
  simp [Dev.eachPort, hf]
@[simp] theorem Dev.eachContext_undocumented (d : Dev) (f : Dev → Nat → Dev) (hf : ∀ (x : Dev) (v : Nat), (f x v).undocumented = x.undocumented) : (Dev.eachContext d f).undocumented = d.undocumented := by
  simp [Dev.eachContext, hf]
@[simp] theorem Dev.eachProt_undocumented (d : Dev) (f : Dev → Nat → Dev) (hf : ∀ (x : Dev) (v : Nat), (f x v).undocumented = x.undocumented) : (Dev.eachProt d f).undocumented = d.undocumented := by
  simp [Dev.eachProt, hf]
@[simp] theorem Dev.eachClient_undocumented (d : Dev) (f : Dev → Nat → Dev) (hf : ∀ (x : Dev) (v : Nat), (f x v).undocumented = x.undocumented) : (Dev.eachClient d f).undocumented = d.undocumented := by
  simp [Dev.eachClient, hf]
@[simp] theorem Dev.actionsStart_undocumented (d : Dev) : (Dev.actionsStart d).undocumented = d.undocumented := by simp [Dev.actionsStart]
@[simp] theorem Dev.tfiStart_undocumented (d : Dev) : (Dev.tfiStart d).undocumented = d.undocumented := by simp [Dev.tfiStart]
@[simp] theorem Dev.clearedStart_undocumented (d : Dev) : (Dev.clearedStart d).undocumented = d.undocumented := by simp [Dev.clearedStart]
@[simp] theorem Dev.receiveStart_undocumented (d : Dev) : (Dev.receiveStart d).undocumented = d.undocumented := by simp [Dev.receiveStart]
@[simp] theorem Dev.quadStart_undocumented (d : Dev) (q : Nat) : (Dev.quadStart d q).undocumented = d.undocumented := by simp [Dev.quadStart]
@[simp] theorem Dev.blockStart_undocumented (d : Dev) (mask : Nat) : (Dev.blockStart d mask).undocumented = d.undocumented := by simp [Dev.blockStart]
@[simp] theorem Dev.berSwap_undocumented (d : Dev) (old : Bank) (a : Nat) : (Dev.berSwap d old a).undocumented = d.undocumented := by simp [Dev.berSwap]
@[simp] theorem Dev.alignSwap_undocumented (d : Dev) (p : Nat) : (Dev.alignSwap d p).undocumented = d.undocumented := by simp [Dev.alignSwap]
@[simp] theorem Dev.laneSwap_undocumented (d : Dev) (old : Bank) (l : Nat) : (Dev.laneSwap d old l).undocumented = d.undocumented := by
  simp [Dev.laneSwap]
@[simp] theorem Dev.portSwap_undocumented (d : Dev) (old : Bank) (p : Nat) : (Dev.portSwap d old p).undocumented = d.undocumented := by simp [Dev.portSwap]
@[simp] theorem Dev.quadSwap_undocumented (d0 : Dev) (old : Bank) (q : Nat) : (Dev.quadSwap d0 old q).undocumented = d0.undocumented := by
  simp [Dev.quadSwap]
@[simp] theorem Dev.dropCaptures_undocumented (d : Dev) (a : Nat) : (Dev.dropCaptures d a).undocumented = d.undocumented := by simp [Dev.dropCaptures]
@[simp] theorem Dev.contextNew_undocumented (d : Dev) (a : Nat) : (Dev.contextNew d a).undocumented = d.undocumented := by simp [Dev.contextNew]
@[simp] theorem Dev.contextGone_undocumented (d : Dev) (old : Bank) (a : Nat) : (Dev.contextGone d old a).undocumented = d.undocumented := by simp [Dev.contextGone]
@[simp] theorem Dev.contextKept_undocumented (d : Dev) (old : Bank) (a : Nat) : (Dev.contextKept d old a).undocumented = d.undocumented := by simp [Dev.contextKept]
@[simp] theorem Dev.contextSwap_undocumented (d : Dev) (old : Bank) (a : Nat) : (Dev.contextSwap d old a).undocumented = d.undocumented := by simp [Dev.contextSwap]
@[simp] theorem Dev.protSwap_undocumented (d : Dev) (old : Bank) (w : Nat) : (Dev.protSwap d old w).undocumented = d.undocumented := by simp [Dev.protSwap]
@[simp] theorem Dev.pinSwap_undocumented (d : Dev) (old : Bank) (c : Nat) : (Dev.pinSwap d old c).undocumented = d.undocumented := by
  simp [Dev.pinSwap]
@[simp] theorem Dev.clientSwap_undocumented (d0 : Dev) (old : Bank) (c : Nat) : (Dev.clientSwap d0 old c).undocumented = d0.undocumented := by
  simp [Dev.clientSwap]
@[simp] theorem Dev.tfiSwap_undocumented (d : Dev) (was : Nat → Bool) (l : Nat) : (Dev.tfiSwap d was l).undocumented = d.undocumented := by simp [Dev.tfiSwap]
@[simp] theorem Dev.swapEffects_undocumented (d : Dev) (old : Bank) : (Dev.swapEffects d old).undocumented = d.undocumented := by simp [Dev.swapEffects]
@[simp] theorem Dev.syncGate_undocumented (d : Dev) : (Dev.syncGate d).undocumented = d.undocumented := by simp [Dev.syncGate]
@[simp] theorem Dev.startClaim_undocumented (d : Dev) (cause : Nat) : (Dev.startClaim d cause).undocumented = d.undocumented := by simp [Dev.startClaim]
@[simp] theorem Dev.enterJoin_undocumented (d : Dev) : (Dev.enterJoin d).undocumented = d.undocumented := by simp [Dev.enterJoin]
@[simp] theorem Dev.shadowAlone_undocumented (d : Dev) : (Dev.shadowAlone d).undocumented = d.undocumented := by simp [Dev.shadowAlone]
@[simp] theorem heartbeatIn_undocumented (d : Dev) (h : Heartbeat) : (heartbeatIn d h).undocumented = d.undocumented := by simp [heartbeatIn]
@[simp] theorem heartbeatOut_undocumented (d : Dev) : (heartbeatOut d).undocumented = d.undocumented := by simp [heartbeatOut]
@[simp] theorem heartbeatLost_undocumented (d : Dev) : (heartbeatLost d).undocumented = d.undocumented := by simp [heartbeatLost]
@[simp] theorem claimSeen_undocumented (d : Dev) : (claimSeen d).undocumented = d.undocumented := by simp [claimSeen]
@[simp] theorem claimGone_undocumented (d : Dev) : (claimGone d).undocumented = d.undocumented := by
  unfold claimGone
  (repeat' split) <;> simp
@[simp] theorem Dev.startVerify_undocumented (d : Dev) : (Dev.startVerify d).undocumented = d.undocumented := by simp [Dev.startVerify]
@[simp] theorem Dev.verifySample_undocumented (d : Dev) : (Dev.verifySample d).undocumented = d.undocumented := by simp [Dev.verifySample]
@[simp] theorem claimGranted_undocumented (d : Dev) : (claimGranted d).undocumented = d.undocumented := by simp [claimGranted]
@[simp] theorem interlockFault_undocumented (d : Dev) : (interlockFault d).undocumented = d.undocumented := by simp [interlockFault]
@[simp] theorem phaseLocked_undocumented (d : Dev) (f : FrameMark) : (phaseLocked d f).undocumented = d.undocumented := by simp [phaseLocked]
@[simp] theorem phaseLost_undocumented (d : Dev) : (phaseLost d).undocumented = d.undocumented := by simp [phaseLost]
@[simp] theorem frameMarked_undocumented (d : Dev) (f : FrameMark) : (frameMarked d f).undocumented = d.undocumented := by simp [frameMarked]
@[simp] theorem joinStarted_undocumented (d : Dev) : (joinStarted d).undocumented = d.undocumented := by simp [joinStarted]
@[simp] theorem Dev.progress_undocumented (d : Dev) (part bytes : Nat) : (Dev.progress d part bytes).undocumented = d.undocumented := by simp [Dev.progress]
@[simp] theorem Dev.copyRec_undocumented (d : Dev) (r : CopyRec) : (Dev.copyRec d r).undocumented = d.undocumented := by
  cases r <;> simp [Dev.copyRec]
@[simp] theorem Dev.copyPm_undocumented (d : Dev) (r : Addr × PmCtx) : (Dev.copyPm d r).undocumented = d.undocumented := by simp [Dev.copyPm]
@[simp] theorem copied_undocumented (d : Dev) (p : CopyPart) : (copied d p).undocumented = d.undocumented := by
  unfold copied
  (repeat' split) <;> simp
@[simp] theorem partEnded_undocumented (d : Dev) (p : PartName) (crcOk : Bool) : (partEnded d p crcOk).undocumented = d.undocumented := by
  unfold partEnded
  (repeat' split) <;> simp
@[simp] theorem Dev.restartRevert_undocumented (d : Dev) : (Dev.restartRevert d).undocumented = d.undocumented := by simp [Dev.restartRevert]
@[simp] theorem Dev.startCheck_undocumented (d : Dev) : (Dev.startCheck d).undocumented = d.undocumented := by simp [Dev.startCheck]
@[simp] theorem signaturesIn_undocumented (d : Dev) (frame : Nat) (values : List (BitVec 32)) : (signaturesIn d frame values).undocumented = d.undocumented := by
  unfold signaturesIn
  dsimp only
  (repeat' (first | (simp; done) | split))
@[simp] theorem Dev.checkEvent_undocumented (d : Dev) (forced : Bool) : (Dev.checkEvent d forced).undocumented = d.undocumented := by simp [Dev.checkEvent]
@[simp] theorem Dev.checkOutcome_undocumented (d : Dev) (own mate : Bool) : (Dev.checkOutcome d own mate).undocumented = d.undocumented := by simp [Dev.checkOutcome]
@[simp] theorem Dev.checkDecide_undocumented (d : Dev) : (Dev.checkDecide d).undocumented = d.undocumented := by
  unfold Dev.checkDecide
  split <;> simp
@[simp] theorem selfCheckIn_undocumented (d : Dev) (mate : Option CheckResult) : (selfCheckIn d mate).undocumented = d.undocumented := by
  unfold selfCheckIn
  (repeat' split) <;> simp
@[simp] theorem selfCheckOwn_undocumented (d : Dev) (own : CheckResult) : (selfCheckOwn d own).undocumented = d.undocumented := by simp [selfCheckOwn]
@[simp] theorem selfCheckLate_undocumented (d : Dev) : (selfCheckLate d).undocumented = d.undocumented := by simp [selfCheckLate]
@[simp] theorem releaseIn_undocumented (d : Dev) (cause : Nat) : (releaseIn d cause).undocumented = d.undocumented := by simp [releaseIn]
@[simp] theorem revertDue_undocumented (d : Dev) : (revertDue d).undocumented = d.undocumented := by simp [revertDue]
@[simp] theorem revertRequested_undocumented (d : Dev) (boundary cause : Nat) : (revertRequested d boundary cause).undocumented = d.undocumented := by
  simp [revertRequested]
@[simp] theorem revertGranted_undocumented (d : Dev) (b : Nat) : (revertGranted d b).undocumented = d.undocumented := by
  unfold revertGranted
  split <;> simp
@[simp] theorem grantLate_undocumented (d : Dev) : (grantLate d).undocumented = d.undocumented := by
  unfold grantLate
  split <;> simp
@[simp] theorem handoverAt_undocumented (d : Dev) : (handoverAt d).undocumented = d.undocumented := by
  unfold handoverAt
  (repeat' split) <;> simp
@[simp] theorem forceHandover_undocumented (d : Dev) : (forceHandover d).1.undocumented = d.undocumented := by simp [forceHandover]
@[simp] theorem verifyEnd_undocumented (d : Dev) : (verifyEnd d).undocumented = d.undocumented := by simp [verifyEnd]
@[simp] theorem Dev.abortScan_undocumented (d : Dev) (cause : Nat) : (Dev.abortScan d cause).undocumented = d.undocumented := by
  unfold Dev.abortScan
  split <;> simp
@[simp] theorem Dev.abortScans_undocumented (d : Dev) (cause : Nat) : (Dev.abortScans d cause).undocumented = d.undocumented := by simp [Dev.abortScans]
@[simp] theorem startScan_undocumented (d : Dev) (v : Nat) : (startScan d v).1.undocumented = d.undocumented := by
  unfold startScan
  dsimp only
  (repeat' (first | (simp; done) | split))
@[simp] theorem scanDone_undocumented (d : Dev) (touched : Bool) (ecc : Ecc) : (scanDone d touched ecc).undocumented = d.undocumented := by
  simp only [scanDone]
  (repeat' (first | (simp; done) | split))
@[simp] theorem runningWrite_undocumented (d : Dev) (n v : Nat) : (runningWrite d n v).1.undocumented = d.undocumented := by simp [runningWrite]
@[simp] theorem integrityStart_undocumented (d : Dev) : (integrityStart d).undocumented = d.undocumented := by simp [integrityStart]
@[simp] theorem attemptReport_undocumented (bank : Nat) (d : Dev) (z0 : Attempt) : (attemptReport bank d z0).undocumented = d.undocumented := by
  unfold attemptReport
  split <;> simp
@[simp] theorem integrityEnd_undocumented (d : Dev) (attempts : List Attempt) (corrected : Nat) : (integrityEnd d attempts corrected).undocumented = d.undocumented := by
  simp only [integrityEnd]
  (repeat' (first | (simp; done) | split))
@[simp] theorem Dev.forcedSwitch_undocumented (d : Dev) (stopped : Bool) : (Dev.forcedSwitch d stopped).undocumented = d.undocumented := by simp [Dev.forcedSwitch]
@[simp] theorem Dev.mgmtFallback_undocumented (d : Dev) (stopped : Bool) : (Dev.mgmtFallback d stopped).undocumented = d.undocumented := by
  simp [Dev.mgmtFallback]
@[simp] theorem Dev.switchRef_undocumented (d : Dev) (r : Nat) (stopped : Bool) : (Dev.switchRef d r stopped).undocumented = d.undocumented := by simp [Dev.switchRef]
@[simp] theorem Dev.enterClamp_undocumented (d : Dev) (causes : Nat) : (Dev.enterClamp d causes).undocumented = d.undocumented := by simp [Dev.enterClamp]
@[simp] theorem Dev.causeEnds_undocumented (d : Dev) (mask : Nat) : (Dev.causeEnds d mask).undocumented = d.undocumented := by simp [Dev.causeEnds]
@[simp] theorem monitorTrip_undocumented (d : Dev) (s : Source) (stopped : Bool) : (monitorTrip d s stopped).undocumented = d.undocumented := by simp [monitorTrip]
@[simp] theorem sourceQualified_undocumented (d : Dev) (s : Source) : (sourceQualified d s).undocumented = d.undocumented := by
  unfold sourceQualified
  split <;> simp
@[simp] theorem Dev.zeroiseBurn_undocumented (d : Dev) : (Dev.zeroiseBurn d).undocumented = d.undocumented := by simp [Dev.zeroiseBurn]
@[simp] theorem clampReleased_undocumented (d : Dev) : (clampReleased d).undocumented = d.undocumented := by simp [clampReleased]
@[simp] theorem referenceReturn_undocumented (d : Dev) (s : Source) : (referenceReturn d s).undocumented = d.undocumented := by
  unfold referenceReturn
  split <;> simp
@[simp] theorem mgmtReturn_undocumented (d : Dev) : (mgmtReturn d).undocumented = d.undocumented := by simp [mgmtReturn]
@[simp] theorem Dev.startRaise_undocumented (d : Dev) (target : Nat) : (Dev.startRaise d target).undocumented = d.undocumented := by simp [Dev.startRaise]
@[simp] theorem voltageSettled_undocumented (d : Dev) (mv : Nat) : (voltageSettled d mv).undocumented = d.undocumented := by simp [voltageSettled]
@[simp] theorem divisorChanged_undocumented (d : Dev) : (divisorChanged d).undocumented = d.undocumented := by simp [divisorChanged]
@[simp] theorem voltageLowered_undocumented (d : Dev) (mv : Nat) : (voltageLowered d mv).undocumented = d.undocumented := by simp [voltageLowered]
@[simp] theorem avsFailed_undocumented (d : Dev) : (avsFailed d).undocumented = d.undocumented := by simp [avsFailed]
@[simp] theorem opOverrideApply_undocumented (v : Nat) (d : Dev) : (opOverrideApply v d).1.undocumented = d.undocumented := by simp [opOverrideApply]
@[simp] theorem opRetry_undocumented (d : Dev) : (opRetry d).1.undocumented = d.undocumented := by simp [opRetry]
@[simp] theorem blocksResume_undocumented (d : Dev) : (blocksResume d).undocumented = d.undocumented := by simp [blocksResume]
@[simp] theorem timeStepWrite_undocumented (d : Dev) (v : Nat) : (timeStepWrite d v).1.undocumented = d.undocumented := by simp [timeStepWrite]
@[simp] theorem Dev.applyStep_undocumented (d : Dev) : (Dev.applyStep d).undocumented = d.undocumented := by
  unfold Dev.applyStep
  split <;> simp
@[simp] theorem refGateEnd_undocumented (d : Dev) (s : Source) (count : Nat) (valid : Bool) : (refGateEnd d s count valid).undocumented = d.undocumented := by
  unfold refGateEnd
  (repeat' split) <;> simp
@[simp] theorem Dev.endSession_undocumented (d : Dev) (cause : Nat) : (Dev.endSession d cause).undocumented = d.undocumented := by simp [Dev.endSession]
@[simp] theorem Dev.dropEmcy_undocumented (d : Dev) : (Dev.dropEmcy d).undocumented = d.undocumented := by simp [Dev.dropEmcy]
@[simp] theorem Dev.canBootUp_undocumented (d : Dev) : (Dev.canBootUp d).undocumented = d.undocumented := by simp [Dev.canBootUp]
@[simp] theorem Dev.canInit_undocumented (d : Dev) : (Dev.canInit d).undocumented = d.undocumented := by simp [Dev.canInit]
@[simp] theorem canDetected_undocumented (d : Dev) (code : Nat) : (canDetected d code).undocumented = d.undocumented := by simp [canDetected]
@[simp] theorem Dev.canHalt_undocumented (d : Dev) : (Dev.canHalt d).undocumented = d.undocumented := by simp [Dev.canHalt]
@[simp] theorem nmtStart_undocumented (d : Dev) : (nmtStart d).undocumented = d.undocumented := by simp [nmtStart]
@[simp] theorem nmtStop_undocumented (d : Dev) : (nmtStop d).undocumented = d.undocumented := by simp [nmtStop]
@[simp] theorem nmtPreOperational_undocumented (d : Dev) : (nmtPreOperational d).undocumented = d.undocumented := by simp [nmtPreOperational]
@[simp] theorem nmtReset_undocumented (d : Dev) : (nmtReset d).undocumented = d.undocumented := by simp [nmtReset]
@[simp] theorem canHeartbeat_undocumented (d : Dev) : (canHeartbeat d).undocumented = d.undocumented := by simp [canHeartbeat]
@[simp] theorem tpdoInhibitEnd_undocumented (d : Dev) (n : Nat) : (tpdoInhibitEnd d n).undocumented = d.undocumented := by simp [tpdoInhibitEnd]
@[simp] theorem tpdoTimer_undocumented (d : Dev) (n : Nat) : (tpdoTimer d n).undocumented = d.undocumented := by simp [tpdoTimer]
@[simp] theorem syncIn_undocumented (d : Dev) : (syncIn d).undocumented = d.undocumented := by simp [syncIn]
@[simp] theorem sdoTimeout_undocumented (d : Dev) : (sdoTimeout d).undocumented = d.undocumented := by simp [sdoTimeout]
@[simp] theorem modeRequestWrite_undocumented (v : Nat) (d : Dev) : (modeRequestWrite v d).1.undocumented = d.undocumented := by simp [modeRequestWrite]
@[simp] theorem modeGuardedApply_undocumented (v : Nat) (d : Dev) : (modeGuardedApply v d).1.undocumented = d.undocumented := by simp [modeGuardedApply]
@[simp] theorem Dev.serdesDown_undocumented (d : Dev) (quiesce : Bool) : (Dev.serdesDown d quiesce).undocumented = d.undocumented := by simp [Dev.serdesDown]
@[simp] theorem Dev.pairIdle_undocumented (d : Dev) : (Dev.pairIdle d).undocumented = d.undocumented := by simp [Dev.pairIdle]
@[simp] theorem Dev.enterClaim_undocumented (d : Dev) (target : Nat) : (Dev.enterClaim d target).undocumented = d.undocumented := by simp [Dev.enterClaim]
@[simp] theorem modeChange_undocumented (d : Dev) : (modeChange d).undocumented = d.undocumented := by
  unfold modeChange
  split <;> simp
@[simp] theorem burnDone_undocumented (d : Dev) (b : Burn) : (burnDone d b).undocumented = d.undocumented := by
  unfold burnDone
  split <;> simp
@[simp] theorem Dev.burnAll_undocumented (d : Dev) : (Dev.burnAll d).undocumented = d.undocumented := by simp [Dev.burnAll]
@[simp] theorem sramCleared_undocumented (d : Dev) : (sramCleared d).undocumented = d.undocumented := by simp [sramCleared]
@[simp] theorem slotVerified_undocumented (d : Dev) (c : SlotContent) : (slotVerified d c).undocumented = d.undocumented := by simp [slotVerified]
@[simp] theorem bootEnded_undocumented (d : Dev) (ms : Nat) : (bootEnded d ms).undocumented = d.undocumented := by simp [bootEnded]
@[simp] theorem Dev.holdWrite_undocumented (d : Dev) (m : Master) (idx sub : Nat) (data : List Byte) : (Dev.holdWrite d m idx sub data).1.undocumented = d.undocumented := by
  simp [Dev.holdWrite]
@[simp] theorem pathTypeWrite_undocumented (m : Master) (v : Nat) (d : Dev) : (pathTypeWrite m v d).1.undocumented = d.undocumented := by simp [pathTypeWrite]
@[simp] theorem pathTypeHost_undocumented (m : Master) (v : Nat) (d : Dev) : (pathTypeHost m v d).1.undocumented = d.undocumented := by simp [pathTypeHost]
@[simp] theorem portTypeWrite_undocumented (p v : Nat) (d : Dev) : (portTypeWrite p v d).1.undocumented = d.undocumented := by simp [portTypeWrite]
@[simp] theorem portTypeHost_undocumented (m : Master) (p v : Nat) (d : Dev) : (portTypeHost m p v d).1.undocumented = d.undocumented := by simp [portTypeHost]
@[simp] theorem Dev.admitting_undocumented (d : Dev) (s : AdmSnap) : (Dev.admitting d s).undocumented = d.undocumented := by simp [Dev.admitting]
@[simp] theorem commitFire_undocumented (m : Master) (d : Dev) : (commitFire m d).1.undocumented = d.undocumented := by simp [commitFire]
@[simp] theorem heldTrigger_undocumented (m : Master) (sub v : Nat) (f : Dev → Dev × Nat) (d : Dev) (hf : ∀ x : Dev, (f x).1.undocumented = x.undocumented) : (heldTrigger m sub v f d).1.undocumented = d.undocumented := by
  simp [heldTrigger, hf]
@[simp] theorem Dev.figures_undocumented (d : Dev) (b : Bank) (sf : Nat) (paired : Bool) (o : AdmOutcome) : (Dev.figures d b sf paired o).undocumented = d.undocumented := by
  simp [Dev.figures]
@[simp] theorem Dev.cancelUpset_undocumented (d : Dev) : (Dev.cancelUpset d).undocumented = d.undocumented := by
  unfold Dev.cancelUpset
  split <;> simp
@[simp] theorem Dev.accept_undocumented (d : Dev) (s : AdmSnap) (o : AdmOutcome) (boundary : Nat) : (Dev.accept d s o boundary).undocumented = d.undocumented := by
  simp [Dev.accept]
@[simp] theorem Dev.refuse_undocumented (d : Dev) : (Dev.refuse d).undocumented = d.undocumented := by
  unfold Dev.refuse
  split <;> simp
@[simp] theorem admissionEnded_undocumented (d : Dev) (mate : MateAdmission) : (admissionEnded d mate).undocumented = d.undocumented := by
  unfold admissionEnded
  split <;> simp
@[simp] theorem commitBank_undocumented (d : Dev) (b : Bank) (crcOk : Bool) : (commitBank d b crcOk).undocumented = d.undocumented := by simp [commitBank]
@[simp] theorem commitIn_undocumented (d : Dev) (m : CommitMsg) : (commitIn d m).undocumented = d.undocumented := by
  unfold commitIn
  split <;> simp
@[simp] theorem pendingResetFire_undocumented (d : Dev) : (pendingResetFire d).1.undocumented = d.undocumented := by simp [pendingResetFire]
@[simp] theorem bankCopied_undocumented (d : Dev) : (bankCopied d).undocumented = d.undocumented := by simp [bankCopied]
@[simp] theorem cancelFire_undocumented (d : Dev) : (cancelFire d).1.undocumented = d.undocumented := by
  unfold cancelFire
  split <;> simp
@[simp] theorem Dev.pinsSwap_undocumented (d : Dev) (old : Bank) : (Dev.pinsSwap d old).undocumented = d.undocumented := by simp [Dev.pinsSwap]
@[simp] theorem Dev.refSwap_undocumented (d : Dev) : (Dev.refSwap d).undocumented = d.undocumented := by simp [Dev.refSwap]
@[simp] theorem Dev.unitSwap_undocumented (d : Dev) (old : Bank) : (Dev.unitSwap d old).undocumented = d.undocumented := by simp [Dev.unitSwap]
@[simp] theorem Dev.swap_undocumented (d : Dev) (s : Sched) : (Dev.swap d s).undocumented = d.undocumented := by simp [Dev.swap]
@[simp] theorem switchedIn_undocumented (d : Dev) : (switchedIn d).undocumented = d.undocumented := by
  unfold switchedIn
  split <;> simp
@[simp] theorem mapSelectWrite_undocumented (m : Master) (v : Nat) (d : Dev) : (mapSelectWrite m v d).1.undocumented = d.undocumented := by simp [mapSelectWrite]
@[simp] theorem Dev.mapAdvance_undocumented (d : Dev) (m : Master) (n : Nat) : (Dev.mapAdvance d m n).undocumented = d.undocumented := by simp [Dev.mapAdvance]
@[simp] theorem mapBlockWrite_undocumented (m : Master) (data : List Byte) (d : Dev) : (mapBlockWrite m data d).1.undocumented = d.undocumented := by simp [mapBlockWrite]
@[simp] theorem plainApply_undocumented (k : Key) (v : Nat) (d : Dev) : (plainApply k v d).undocumented = d.undocumented := by simp [plainApply]
@[simp] theorem sectionApply_undocumented (p sub : Nat) (data : List Byte) (d : Dev) : (sectionApply p sub data d).undocumented = d.undocumented := by
  simp [sectionApply]
@[simp] theorem applyPaired_undocumented (d : Dev) (w : PairedWrite) : (applyPaired d w).undocumented = d.undocumented := by simp [applyPaired]
@[simp] theorem Dev.applyWaiting_undocumented (d : Dev) : (Dev.applyWaiting d).undocumented = d.undocumented := by simp [Dev.applyWaiting]
@[simp] theorem pairedWriteIn_undocumented (d : Dev) (w : PairedWrite) : (pairedWriteIn d w).undocumented = d.undocumented := by simp [pairedWriteIn]
@[simp] theorem Dev.latchActions_undocumented (d : Dev) : (Dev.latchActions d).undocumented = d.undocumented := by simp [Dev.latchActions]
@[simp] theorem Dev.leaveAis_undocumented (old d : Dev) : (Dev.leaveAis old d).undocumented = d.undocumented := by simp [Dev.leaveAis]
@[simp] theorem Dev.clientFrames_undocumented (d : Dev) : (Dev.clientFrames d).undocumented = d.undocumented := by simp [Dev.clientFrames]
@[simp] theorem Dev.boundarySelections_undocumented (d : Dev) : (Dev.boundarySelections d).undocumented = d.undocumented := by
  simp only [Dev.boundarySelections]
  (repeat' (first | (simp; done) | split))
@[simp] theorem Dev.pairTick_undocumented (d : Dev) : (Dev.pairTick d).undocumented = d.undocumented := by simp [Dev.pairTick]
@[simp] theorem Dev.boundaryPair_undocumented (d : Dev) (f : Nat) : (Dev.boundaryPair d f).undocumented = d.undocumented := by
  simp [Dev.boundaryPair]
@[simp] theorem Dev.boundaryCheck_undocumented (d : Dev) : (Dev.boundaryCheck d).undocumented = d.undocumented := by simp [Dev.boundaryCheck]
@[simp] theorem frameBoundary_undocumented (d : Dev) : (frameBoundary d).undocumented = d.undocumented := by
  simp only [frameBoundary]
  (repeat' (first | (simp; done) | split))
@[simp] theorem eventIn_undocumented (d : Dev) (e : EventOp) : (eventIn d e).undocumented = d.undocumented := by simp [eventIn]
@[simp] theorem injectFire_undocumented (d : Dev) : (injectFire d).1.undocumented = d.undocumented := by simp [injectFire]
@[simp] theorem severeNWrite_undocumented (k v : Nat) (d : Dev) : (severeNWrite k v d).1.undocumented = d.undocumented := by simp [severeNWrite]
@[simp] theorem severeWindowWrite_undocumented (k v : Nat) (d : Dev) : (severeWindowWrite k v d).1.undocumented = d.undocumented := by simp [severeWindowWrite]
@[simp] theorem lifecycleApply_undocumented (v : Nat) (d : Dev) : (lifecycleApply v d).1.undocumented = d.undocumented := by simp [lifecycleApply]
@[simp] theorem zeroiseApply_undocumented (v : Nat) (d : Dev) : (zeroiseApply v d).1.undocumented = d.undocumented := by simp [zeroiseApply]
@[simp] theorem Dev.forget_undocumented (d : Dev) (m : Master) : (Dev.forget d m).undocumented = d.undocumented := by simp [Dev.forget]
@[simp] theorem Dev.eraseSecrets_undocumented (d : Dev) : (Dev.eraseSecrets d).undocumented = d.undocumented := by simp [Dev.eraseSecrets]
@[simp] theorem Dev.eraseBanks_undocumented (d : Dev) : (Dev.eraseBanks d).undocumented = d.undocumented := by simp [Dev.eraseBanks]
@[simp] theorem burnEnded_undocumented (d : Dev) : (burnEnded d).undocumented = d.undocumented := by
  unfold burnEnded
  (repeat' split) <;> simp
@[simp] theorem rollbackApply_undocumented (v : Nat) (d : Dev) : (rollbackApply v d).1.undocumented = d.undocumented := by simp [rollbackApply]
@[simp] theorem nonceNew_undocumented (m : Master) (d : Dev) : (nonceNew m d).1.undocumented = d.undocumented := by simp [nonceNew]
@[simp] theorem Dev.nonceGone_undocumented (d : Dev) (m : Master) : (Dev.nonceGone d m).undocumented = d.undocumented := by simp [Dev.nonceGone]
@[simp] theorem tokenWrite_undocumented (m : Master) (t : List Byte) (d : Dev) : (tokenWrite m t d).1.undocumented = d.undocumented := by simp [tokenWrite]
@[simp] theorem tokenChecked_undocumented (d : Dev) (m : Master) : (tokenChecked d m).undocumented = d.undocumented := by simp [tokenChecked]
@[simp] theorem Dev.consumeToken_undocumented (d : Dev) (m : Master) : (Dev.consumeToken d m).undocumented = d.undocumented := by simp [Dev.consumeToken]
@[simp] theorem Dev.tokenActs_undocumented (d : Dev) (t : List Byte) (kind : Nat) : (Dev.tokenActs d t kind).undocumented = d.undocumented := by simp [Dev.tokenActs]
@[simp] theorem tokenApply_undocumented (m : Master) (kind : Nat) (d : Dev) : (tokenApply m kind d).1.undocumented = d.undocumented := by simp [tokenApply]
@[simp] theorem debugClose_undocumented (d : Dev) : (debugClose d).1.undocumented = d.undocumented := by simp [debugClose]
@[simp] theorem lifetimeEnd_undocumented (d : Dev) : (lifetimeEnd d).undocumented = d.undocumented := by simp [lifetimeEnd]
@[simp] theorem challengeNew_undocumented (d : Dev) : (challengeNew d).1.undocumented = d.undocumented := by simp [challengeNew]
@[simp] theorem canOnly_undocumented (m : Master) (d : Dev) (f : Dev → Dev × Nat) (hf : ∀ x : Dev, (f x).1.undocumented = x.undocumented) : (canOnly m d f).1.undocumented = d.undocumented := by
  simp [canOnly, hf]
@[simp] theorem Dev.sessionFailed_undocumented (d : Dev) : (Dev.sessionFailed d).undocumented = d.undocumented := by simp [Dev.sessionFailed]
@[simp] theorem sessionResponse_undocumented (m : Master) (r : List Byte) (d : Dev) : (sessionResponse m r d).1.undocumented = d.undocumented := by simp [sessionResponse]
@[simp] theorem responseChecked_undocumented (d : Dev) : (responseChecked d).undocumented = d.undocumented := by
  unfold responseChecked
  split <;> simp
@[simp] theorem sessionEndFire_undocumented (d : Dev) : (sessionEndFire d).1.undocumented = d.undocumented := by simp [sessionEndFire]
@[simp] theorem attestNonceWrite_undocumented (m : Master) (l : List Byte) (d : Dev) : (attestNonceWrite m l d).1.undocumented = d.undocumented := by simp [attestNonceWrite]
@[simp] theorem attestRead_undocumented (d : Dev) (m : Master) (maxLen : Nat) : (attestRead d m maxLen).1.undocumented = d.undocumented := by simp [attestRead]
@[simp] theorem domValue_undocumented (d : Dev) (m : Master) (idx sub n : Nat) : (domValue d m idx sub n).1.undocumented = d.undocumented := by simp [domValue]
@[simp] theorem Dev.freeUsed_undocumented (d : Dev) (id : Nat) : (Dev.freeUsed d id).undocumented = d.undocumented := by simp [Dev.freeUsed]
@[simp] theorem valueOf_undocumented (d : Dev) (m : Master) (o : ObjDef) (idx sub a : Nat) (len : Option Nat) : (valueOf d m o idx sub a len).1.undocumented = d.undocumented := by
  unfold valueOf
  split <;> simp
@[simp] theorem Dev.readError_undocumented (d : Dev) (m : Master) (region idx sub a : Nat) : (Dev.readError d m region idx sub a).undocumented = d.undocumented := by
  simp [Dev.readError]
@[simp] theorem readAt_undocumented (d : Dev) (m : Master) (idx sub a : Nat) (len : Option Nat) (ecc : Ecc) : (readAt d m idx sub a len ecc).1.undocumented = d.undocumented := by
  unfold readAt
  (repeat' split) <;> simp
@[simp] theorem Dev.readObj_undocumented (d : Dev) (m : Master) (idx sub : Nat) (len : Option Nat) (ecc : Ecc) : (Dev.readObj d m idx sub len ecc).1.undocumented = d.undocumented := by
  simp [Dev.readObj]
@[simp] theorem Dev.completed_undocumented (d : Dev) (z0 : Completion) : (Dev.completed d z0).undocumented = d.undocumented := by
  unfold Dev.completed
  split <;> simp
@[simp] theorem contextSelect_undocumented (m : Master) (a : Nat) (d : Dev) : (contextSelect m a d).1.undocumented = d.undocumented := by simp [contextSelect]
@[simp] theorem selectStep_undocumented (m : Master) (v : Nat) (d : Dev) : (selectStep m v d).1.undocumented = d.undocumented := by
  unfold selectStep
  dsimp only
  (repeat' (first | (simp; done) | split))
@[simp] theorem Dev.selecting_undocumented {α : Type} (d : Dev) (m : Master) (a : Nat) (f : Dev → Dev × α) (hf : ∀ x : Dev, (f x).1.undocumented = x.undocumented) : (Dev.selecting d m a f).1.undocumented = d.undocumented := by
  simp [Dev.selecting, hf]
@[simp] theorem Dev.finish_undocumented (d : Dev) (m : Master) (r : Req) (x : ReadAns) : (Dev.finish d m r x).undocumented = d.undocumented := by simp [Dev.finish]
@[simp] theorem Dev.slotError_undocumented (d : Dev) (b : ReqBody) : (Dev.slotError d b).undocumented = d.undocumented := by simp [Dev.slotError]
@[simp] theorem Dev.goesOn_undocumented (d : Dev) (m : Master) (r : Req) (data : List Byte) : (Dev.goesOn d m r data).undocumented = d.undocumented := by
  simp [Dev.goesOn]
@[simp] theorem tableReadOne_undocumented (d : Dev) (m : Master) (r : Req) (idx sub start count : Nat) (ecc : Ecc) : (tableReadOne d m r idx sub start count ecc).undocumented = d.undocumented := by
  unfold tableReadOne
  dsimp only
  generalize findObj idx sub = o
  cases o <;> dsimp only
  · simp
  · split
    · simp
    · (repeat' split) <;> simp
@[simp] theorem pmBlockOne_undocumented (d : Dev) (m : Master) (r : Req) (n : Nat) (ecc : Ecc) : (pmBlockOne d m r n ecc).undocumented = d.undocumented := by
  simp only [pmBlockOne]
  (repeat' (first | (simp; done) | split))
@[simp] theorem Dev.miso_undocumented (d : Dev) (l : List (BitVec 32)) : (Dev.miso d l).undocumented = d.undocumented := by simp [Dev.miso]
@[simp] theorem acceptWord_undocumented (d : Dev) (n code : Nat) : (acceptWord d n code).undocumented = d.undocumented := by simp [acceptWord]
@[simp] theorem acceptAll_undocumented (d : Dev) (n later code : Nat) : (acceptAll d n later code).undocumented = d.undocumented := by
  simp [acceptAll]
@[simp] theorem frameError_undocumented (d : Dev) : (frameError d).undocumented = d.undocumented := by simp [frameError]
@[simp] theorem fetched_undocumented (d : Dev) (tag : Nat) (whole : Bool) : (fetched d tag whole).undocumented = d.undocumented := by
  unfold fetched
  split <;> simp
@[simp] theorem Dev.tapLoad_undocumented (d : Dev) (code : Nat) (out : List Byte) : (Dev.tapLoad d code out).undocumented = d.undocumented := by simp [Dev.tapLoad]
@[simp] theorem testScan_undocumented (d : Dev) (code : Nat) (shift pins : List Bool) : (testScan d code shift pins).undocumented = d.undocumented := by
  simp [testScan]
@[simp] theorem samplePreload_undocumented (d : Dev) (shift pins : List Bool) : (samplePreload d shift pins).undocumented = d.undocumented := by simp [samplePreload]
@[simp] theorem privateRun_undocumented (d : Dev) (code : Nat) (f : Dev → Dev) (hf : ∀ x : Dev, (f x).undocumented = x.undocumented) : (privateRun d code f).undocumented = d.undocumented := by
  simp [privateRun, hf]
@[simp] theorem traceRead_undocumented (d : Dev) : (traceRead d).undocumented = d.undocumented := by simp [traceRead]
@[simp] theorem shadowOf_undocumented (d : Dev) (inst : Nat) : (shadowOf d inst).undocumented = d.undocumented := by simp [shadowOf]
@[simp] theorem shadowRead_undocumented (d : Dev) (idx sub inst : Nat) : (shadowRead d idx sub inst).undocumented = d.undocumented := by
  simp only [shadowRead]
  (repeat' (first | (simp; done) | split))
@[simp] theorem Dev.setBank_undocumented (d : Dev) (b : Bool) (x : Bank) : (Dev.setBank d b x).undocumented = d.undocumented := by
  simp only [Dev.setBank]
  (repeat' (first | (simp; done) | split))
@[simp] theorem memoryRead_undocumented (a : Nat) (d : Dev) : (memoryRead a d).undocumented = d.undocumented := by
  simp only [memoryRead]
  (repeat' (first | (simp; done) | split))
@[simp] theorem memoryWrite_undocumented (a : Nat) (v : Byte) (d : Dev) : (memoryWrite a v d).undocumented = d.undocumented := by
  unfold memoryWrite
  (repeat' split) <;> simp
@[simp] theorem answered_undocumented (d : Dev) (m : Master) (code : Nat) (data : List Byte) : (answered d m code data).undocumented = d.undocumented := by
  simp only [answered]
  (repeat' (first | (simp; done) | split))

/-- What a step owes the CAN layer leaves the mark as it is. -/
@[simp] theorem tpdoSweep_undocumented (a b : Dev) : (tpdoSweep a b).undocumented = b.undocumented := by
  unfold tpdoSweep; simp

end Sys2Proof.Machine
end

