-- ==== Sys2Proof/Laws/Registers.lean ====
section
/-!
SUPPORT. The laws of sparse maps and of the dictionary's values: a read after a write of the same key gives the value written, and
a write leaves every other key alone.
-/
namespace Sys2Proof.Machine

set_option Elab.async false

/-! ## Sparse maps -/

theorem smLook_smDrop {α : Type} (d : α) (m : SMap α) (k k' : Nat) :
    smLook d (smDrop m k) k' = if k = k' then d else smLook d m k' := by
  induction m with
  | nil => simp [smDrop, smLook]
  | cons e r ih =>
    obtain ⟨j, v⟩ := e
    simp only [smDrop] at ih
    by_cases h : j = k <;> by_cases h' : j = k' <;> simp_all [smDrop, smLook]
    omega

theorem smLook_smInsert {α : Type} (d : α) (m : SMap α) (k k' : Nat) (v : α) (h : ∀ e ∈ m, e.1 ≠ k) :
    smLook d (smInsert k v m) k' = if k = k' then v else smLook d m k' := by
  induction m with
  | nil => simp [smInsert, smLook]
  | cons e r ih =>
    obtain ⟨j, w⟩ := e
    have hj : j ≠ k := h (j, w) (by simp)
    have hr := ih (fun e he => h e (by simp [he]))
    by_cases hk : k < j
    · simp [smInsert, hk, smLook]
    · by_cases h' : j = k'
      · subst h'
        have : k ≠ j := fun e => hj e.symm
        simp [smInsert, hk, smLook, this]
      · simp [smInsert, hk, smLook, hr, h']

/-- A read with any default after a write: only at the written key does the default matter. -/
theorem smLook_smPut {α : Type} [DecidableEq α] (d : α) (m : SMap α) (k k' : Nat) (v : α) :
    smLook d (smPut d m k v) k' = if k = k' then v else smLook d m k' := by
  unfold smPut
  split
  · next h => rw [smLook_smDrop, h]
  · rw [smLook_smInsert _ _ _ _ _ (by intro e he; simp [smDrop] at he; exact he.2), smLook_smDrop]
    split <;> rfl

theorem smLook_smPut_ne {α : Type} [DecidableEq α] (d d' : α) (m : SMap α) {k k' : Nat} (v : α) (h : k ≠ k') :
    smLook d' (smPut d m k v) k' = smLook d' m k' := by
  unfold smPut
  split
  · rw [smLook_smDrop]; simp [h]
  · rw [smLook_smInsert _ _ _ _ _ (by intro e he; simp [smDrop] at he; exact he.2), smLook_smDrop]
    simp [h]

/-! ## Values -/

theorem rd_wr (d : Dev) (k k' v : Nat) : (d.wr k v).rd k' = if k = k' then v % 2 ^ 64 else d.rd k' := by
  unfold Dev.rd Dev.wr
  by_cases h : k = k'
  · subst h; simp [smLook_smPut]
  · simp [smLook_smPut_ne _ _ _ _ h, h]

@[simp] theorem rd_wr_same (d : Dev) (k v : Nat) : (d.wr k v).rd k = v % 2 ^ 64 := by simp [rd_wr]

theorem rd_wr_ne (d : Dev) {k k' : Nat} (v : Nat) (h : k ≠ k') : (d.wr k v).rd k' = d.rd k' := by simp [rd_wr, h]

theorem bankRd_bankWr (b : Bank) (k k' v : Nat) : bankRd (bankWr b k v) k' = if k = k' then v % 2 ^ 64 else bankRd b k' := by
  unfold bankRd bankWr
  by_cases h : k = k'
  · subst h; simp [smLook_smPut]
  · simp [smLook_smPut_ne _ _ _ _ h, h]

theorem rdStr_wrStr (d : Dev) (k k' : Nat) (v : List Byte) : (d.wrStr k v).rdStr k' = if k = k' then v else d.rdStr k' := by
  unfold Dev.rdStr Dev.wrStr
  by_cases h : k = k'
  · subst h; simp [smLook_smPut]
  · simp [smLook_smPut_ne _ _ _ _ h, h]

theorem rd_lt (d : Dev) (k : Nat) : d.rd k < 2 ^ 64 := by
  unfold Dev.rd; exact (smLook (dfltWord k) d.regs k).isLt

end Sys2Proof.Machine
end

