-- ==== Sys2Proof/Laws/State.lean ====
section
/-!
SUPPORT. One lemma per field of the device and per update of Machine/Ops.lean, each true by definition: what an update leaves of a
field, so that no proof unfolds a record update. Their proofs stand in brackets so that simp uses them as equations: as
definitional steps they would have the kernel compare two updated maps.
-/
namespace Sys2Proof.Machine

set_option Elab.async false

variable (d : Dev)

/-! ## wr -/

@[simp] theorem wr_strs (k : Key) (v : Nat) : (d.wr k v).strs = d.strs := (rfl)
@[simp] theorem wr_bankA (k : Key) (v : Nat) : (d.wr k v).bankA = d.bankA := (rfl)
@[simp] theorem wr_bankB (k : Key) (v : Nat) : (d.wr k v).bankB = d.bankB := (rfl)
@[simp] theorem wr_elapsed (k : Key) (v : Nat) : (d.wr k v).elapsed = d.elapsed := (rfl)
@[simp] theorem wr_frames (k : Key) (v : Nat) : (d.wr k v).frames = d.frames := (rfl)
@[simp] theorem wr_spi (k : Key) (v : Nat) : (d.wr k v).spi = d.spi := (rfl)
@[simp] theorem wr_canM (k : Key) (v : Nat) : (d.wr k v).canM = d.canM := (rfl)
@[simp] theorem wr_mgmt (k : Key) (v : Nat) : (d.wr k v).mgmt = d.mgmt := (rfl)
@[simp] theorem wr_can (k : Key) (v : Nat) : (d.wr k v).can = d.can := (rfl)
@[simp] theorem wr_prov (k : Key) (v : Nat) : (d.wr k v).prov = d.prov := (rfl)
@[simp] theorem wr_mode (k : Key) (v : Nat) : (d.wr k v).mode = d.mode := (rfl)
@[simp] theorem wr_clk (k : Key) (v : Nat) : (d.wr k v).clk = d.clk := (rfl)
@[simp] theorem wr_coma (k : Key) (v : Nat) : (d.wr k v).coma = d.coma := (rfl)
@[simp] theorem wr_pair (k : Key) (v : Nat) : (d.wr k v).pair = d.pair := (rfl)
@[simp] theorem wr_cvu (k : Key) (v : Nat) : (d.wr k v).cvu = d.cvu := (rfl)
@[simp] theorem wr_sec (k : Key) (v : Nat) : (d.wr k v).sec = d.sec := (rfl)
@[simp] theorem wr_jtag (k : Key) (v : Nat) : (d.wr k v).jtag = d.jtag := (rfl)
@[simp] theorem wr_align (k : Key) (v : Nat) : (d.wr k v).align = d.align := (rfl)
@[simp] theorem wr_line (k : Key) (v : Nat) : (d.wr k v).line = d.line := (rfl)
@[simp] theorem wr_oh (k : Key) (v : Nat) : (d.wr k v).oh = d.oh := (rfl)
@[simp] theorem wr_pairWait (k : Key) (v : Nat) : (d.wr k v).pairWait = d.pairWait := (rfl)
@[simp] theorem wr_ptrRx (k : Key) (v : Nat) : (d.wr k v).ptrRx = d.ptrRx := (rfl)
@[simp] theorem wr_ptrTx (k : Key) (v : Nat) : (d.wr k v).ptrTx = d.ptrTx := (rfl)
@[simp] theorem wr_poh (k : Key) (v : Nat) : (d.wr k v).poh = d.poh := (rfl)
@[simp] theorem wr_captures (k : Key) (v : Nat) : (d.wr k v).captures = d.captures := (rfl)
@[simp] theorem wr_rxFrames (k : Key) (v : Nat) : (d.wr k v).rxFrames = d.rxFrames := (rfl)
@[simp] theorem wr_pathRx (k : Key) (v : Nat) : (d.wr k v).pathRx = d.pathRx := (rfl)
@[simp] theorem wr_pathTx (k : Key) (v : Nat) : (d.wr k v).pathTx = d.pathTx := (rfl)
@[simp] theorem wr_acts (k : Key) (v : Nat) : (d.wr k v).acts = d.acts := (rfl)
@[simp] theorem wr_reads (k : Key) (v : Nat) : (d.wr k v).reads = d.reads := (rfl)
@[simp] theorem wr_ber (k : Key) (v : Nat) : (d.wr k v).ber = d.ber := (rfl)
@[simp] theorem wr_pm (k : Key) (v : Nat) : (d.wr k v).pm = d.pm := (rfl)
@[simp] theorem wr_cpm (k : Key) (v : Nat) : (d.wr k v).cpm = d.cpm := (rfl)
@[simp] theorem wr_pmTime (k : Key) (v : Nat) : (d.wr k v).pmTime = d.pmTime := (rfl)
@[simp] theorem wr_prot (k : Key) (v : Nat) : (d.wr k v).prot = d.prot := (rfl)
@[simp] theorem wr_latched (k : Key) (v : Nat) : (d.wr k v).latched = d.latched := (rfl)
@[simp] theorem wr_clients (k : Key) (v : Nat) : (d.wr k v).clients = d.clients := (rfl)
@[simp] theorem wr_tfi (k : Key) (v : Nat) : (d.wr k v).tfi = d.tfi := (rfl)
@[simp] theorem wr_tfiCh (k : Key) (v : Nat) : (d.wr k v).tfiCh = d.tfiCh := (rfl)
@[simp] theorem wr_mateLanes (k : Key) (v : Nat) : (d.wr k v).mateLanes = d.mateLanes := (rfl)
@[simp] theorem wr_pins (k : Key) (v : Nat) : (d.wr k v).pins = d.pins := (rfl)
@[simp] theorem wr_mem (k : Key) (v : Nat) : (d.wr k v).mem = d.mem := (rfl)
@[simp] theorem wr_out (k : Key) (v : Nat) : (d.wr k v).out = d.out := (rfl)
@[simp] theorem wr_free (k : Key) (v : Nat) : (d.wr k v).free = d.free := (rfl)
@[simp] theorem wr_undoc (k : Key) (v : Nat) : (d.wr k v).undoc = d.undoc := (rfl)

/-! ## wrStr -/

@[simp] theorem wrStr_regs (k : Key) (v : List Byte) : (d.wrStr k v).regs = d.regs := (rfl)
@[simp] theorem wrStr_bankA (k : Key) (v : List Byte) : (d.wrStr k v).bankA = d.bankA := (rfl)
@[simp] theorem wrStr_bankB (k : Key) (v : List Byte) : (d.wrStr k v).bankB = d.bankB := (rfl)
@[simp] theorem wrStr_elapsed (k : Key) (v : List Byte) : (d.wrStr k v).elapsed = d.elapsed := (rfl)
@[simp] theorem wrStr_frames (k : Key) (v : List Byte) : (d.wrStr k v).frames = d.frames := (rfl)
@[simp] theorem wrStr_spi (k : Key) (v : List Byte) : (d.wrStr k v).spi = d.spi := (rfl)
@[simp] theorem wrStr_canM (k : Key) (v : List Byte) : (d.wrStr k v).canM = d.canM := (rfl)
@[simp] theorem wrStr_mgmt (k : Key) (v : List Byte) : (d.wrStr k v).mgmt = d.mgmt := (rfl)
@[simp] theorem wrStr_can (k : Key) (v : List Byte) : (d.wrStr k v).can = d.can := (rfl)
@[simp] theorem wrStr_prov (k : Key) (v : List Byte) : (d.wrStr k v).prov = d.prov := (rfl)
@[simp] theorem wrStr_mode (k : Key) (v : List Byte) : (d.wrStr k v).mode = d.mode := (rfl)
@[simp] theorem wrStr_clk (k : Key) (v : List Byte) : (d.wrStr k v).clk = d.clk := (rfl)
@[simp] theorem wrStr_coma (k : Key) (v : List Byte) : (d.wrStr k v).coma = d.coma := (rfl)
@[simp] theorem wrStr_pair (k : Key) (v : List Byte) : (d.wrStr k v).pair = d.pair := (rfl)
@[simp] theorem wrStr_cvu (k : Key) (v : List Byte) : (d.wrStr k v).cvu = d.cvu := (rfl)
@[simp] theorem wrStr_sec (k : Key) (v : List Byte) : (d.wrStr k v).sec = d.sec := (rfl)
@[simp] theorem wrStr_jtag (k : Key) (v : List Byte) : (d.wrStr k v).jtag = d.jtag := (rfl)
@[simp] theorem wrStr_align (k : Key) (v : List Byte) : (d.wrStr k v).align = d.align := (rfl)
@[simp] theorem wrStr_line (k : Key) (v : List Byte) : (d.wrStr k v).line = d.line := (rfl)
@[simp] theorem wrStr_oh (k : Key) (v : List Byte) : (d.wrStr k v).oh = d.oh := (rfl)
@[simp] theorem wrStr_pairWait (k : Key) (v : List Byte) : (d.wrStr k v).pairWait = d.pairWait := (rfl)
@[simp] theorem wrStr_ptrRx (k : Key) (v : List Byte) : (d.wrStr k v).ptrRx = d.ptrRx := (rfl)
@[simp] theorem wrStr_ptrTx (k : Key) (v : List Byte) : (d.wrStr k v).ptrTx = d.ptrTx := (rfl)
@[simp] theorem wrStr_poh (k : Key) (v : List Byte) : (d.wrStr k v).poh = d.poh := (rfl)
@[simp] theorem wrStr_captures (k : Key) (v : List Byte) : (d.wrStr k v).captures = d.captures := (rfl)
@[simp] theorem wrStr_rxFrames (k : Key) (v : List Byte) : (d.wrStr k v).rxFrames = d.rxFrames := (rfl)
@[simp] theorem wrStr_pathRx (k : Key) (v : List Byte) : (d.wrStr k v).pathRx = d.pathRx := (rfl)
@[simp] theorem wrStr_pathTx (k : Key) (v : List Byte) : (d.wrStr k v).pathTx = d.pathTx := (rfl)
@[simp] theorem wrStr_acts (k : Key) (v : List Byte) : (d.wrStr k v).acts = d.acts := (rfl)
@[simp] theorem wrStr_reads (k : Key) (v : List Byte) : (d.wrStr k v).reads = d.reads := (rfl)
@[simp] theorem wrStr_ber (k : Key) (v : List Byte) : (d.wrStr k v).ber = d.ber := (rfl)
@[simp] theorem wrStr_pm (k : Key) (v : List Byte) : (d.wrStr k v).pm = d.pm := (rfl)
@[simp] theorem wrStr_cpm (k : Key) (v : List Byte) : (d.wrStr k v).cpm = d.cpm := (rfl)
@[simp] theorem wrStr_pmTime (k : Key) (v : List Byte) : (d.wrStr k v).pmTime = d.pmTime := (rfl)
@[simp] theorem wrStr_prot (k : Key) (v : List Byte) : (d.wrStr k v).prot = d.prot := (rfl)
@[simp] theorem wrStr_latched (k : Key) (v : List Byte) : (d.wrStr k v).latched = d.latched := (rfl)
@[simp] theorem wrStr_clients (k : Key) (v : List Byte) : (d.wrStr k v).clients = d.clients := (rfl)
@[simp] theorem wrStr_tfi (k : Key) (v : List Byte) : (d.wrStr k v).tfi = d.tfi := (rfl)
@[simp] theorem wrStr_tfiCh (k : Key) (v : List Byte) : (d.wrStr k v).tfiCh = d.tfiCh := (rfl)
@[simp] theorem wrStr_mateLanes (k : Key) (v : List Byte) : (d.wrStr k v).mateLanes = d.mateLanes := (rfl)
@[simp] theorem wrStr_pins (k : Key) (v : List Byte) : (d.wrStr k v).pins = d.pins := (rfl)
@[simp] theorem wrStr_mem (k : Key) (v : List Byte) : (d.wrStr k v).mem = d.mem := (rfl)
@[simp] theorem wrStr_out (k : Key) (v : List Byte) : (d.wrStr k v).out = d.out := (rfl)
@[simp] theorem wrStr_free (k : Key) (v : List Byte) : (d.wrStr k v).free = d.free := (rfl)
@[simp] theorem wrStr_undoc (k : Key) (v : List Byte) : (d.wrStr k v).undoc = d.undoc := (rfl)

/-! ## putFld -/

@[simp] theorem putFld_strs (k : Key) (l w x : Nat) : (d.putFld k l w x).strs = d.strs := (rfl)
@[simp] theorem putFld_bankA (k : Key) (l w x : Nat) : (d.putFld k l w x).bankA = d.bankA := (rfl)
@[simp] theorem putFld_bankB (k : Key) (l w x : Nat) : (d.putFld k l w x).bankB = d.bankB := (rfl)
@[simp] theorem putFld_elapsed (k : Key) (l w x : Nat) : (d.putFld k l w x).elapsed = d.elapsed := (rfl)
@[simp] theorem putFld_frames (k : Key) (l w x : Nat) : (d.putFld k l w x).frames = d.frames := (rfl)
@[simp] theorem putFld_spi (k : Key) (l w x : Nat) : (d.putFld k l w x).spi = d.spi := (rfl)
@[simp] theorem putFld_canM (k : Key) (l w x : Nat) : (d.putFld k l w x).canM = d.canM := (rfl)
@[simp] theorem putFld_mgmt (k : Key) (l w x : Nat) : (d.putFld k l w x).mgmt = d.mgmt := (rfl)
@[simp] theorem putFld_can (k : Key) (l w x : Nat) : (d.putFld k l w x).can = d.can := (rfl)
@[simp] theorem putFld_prov (k : Key) (l w x : Nat) : (d.putFld k l w x).prov = d.prov := (rfl)
@[simp] theorem putFld_mode (k : Key) (l w x : Nat) : (d.putFld k l w x).mode = d.mode := (rfl)
@[simp] theorem putFld_clk (k : Key) (l w x : Nat) : (d.putFld k l w x).clk = d.clk := (rfl)
@[simp] theorem putFld_coma (k : Key) (l w x : Nat) : (d.putFld k l w x).coma = d.coma := (rfl)
@[simp] theorem putFld_pair (k : Key) (l w x : Nat) : (d.putFld k l w x).pair = d.pair := (rfl)
@[simp] theorem putFld_cvu (k : Key) (l w x : Nat) : (d.putFld k l w x).cvu = d.cvu := (rfl)
@[simp] theorem putFld_sec (k : Key) (l w x : Nat) : (d.putFld k l w x).sec = d.sec := (rfl)
@[simp] theorem putFld_jtag (k : Key) (l w x : Nat) : (d.putFld k l w x).jtag = d.jtag := (rfl)
@[simp] theorem putFld_align (k : Key) (l w x : Nat) : (d.putFld k l w x).align = d.align := (rfl)
@[simp] theorem putFld_line (k : Key) (l w x : Nat) : (d.putFld k l w x).line = d.line := (rfl)
@[simp] theorem putFld_oh (k : Key) (l w x : Nat) : (d.putFld k l w x).oh = d.oh := (rfl)
@[simp] theorem putFld_pairWait (k : Key) (l w x : Nat) : (d.putFld k l w x).pairWait = d.pairWait := (rfl)
@[simp] theorem putFld_ptrRx (k : Key) (l w x : Nat) : (d.putFld k l w x).ptrRx = d.ptrRx := (rfl)
@[simp] theorem putFld_ptrTx (k : Key) (l w x : Nat) : (d.putFld k l w x).ptrTx = d.ptrTx := (rfl)
@[simp] theorem putFld_poh (k : Key) (l w x : Nat) : (d.putFld k l w x).poh = d.poh := (rfl)
@[simp] theorem putFld_captures (k : Key) (l w x : Nat) : (d.putFld k l w x).captures = d.captures := (rfl)
@[simp] theorem putFld_rxFrames (k : Key) (l w x : Nat) : (d.putFld k l w x).rxFrames = d.rxFrames := (rfl)
@[simp] theorem putFld_pathRx (k : Key) (l w x : Nat) : (d.putFld k l w x).pathRx = d.pathRx := (rfl)
@[simp] theorem putFld_pathTx (k : Key) (l w x : Nat) : (d.putFld k l w x).pathTx = d.pathTx := (rfl)
@[simp] theorem putFld_acts (k : Key) (l w x : Nat) : (d.putFld k l w x).acts = d.acts := (rfl)
@[simp] theorem putFld_reads (k : Key) (l w x : Nat) : (d.putFld k l w x).reads = d.reads := (rfl)
@[simp] theorem putFld_ber (k : Key) (l w x : Nat) : (d.putFld k l w x).ber = d.ber := (rfl)
@[simp] theorem putFld_pm (k : Key) (l w x : Nat) : (d.putFld k l w x).pm = d.pm := (rfl)
@[simp] theorem putFld_cpm (k : Key) (l w x : Nat) : (d.putFld k l w x).cpm = d.cpm := (rfl)
@[simp] theorem putFld_pmTime (k : Key) (l w x : Nat) : (d.putFld k l w x).pmTime = d.pmTime := (rfl)
@[simp] theorem putFld_prot (k : Key) (l w x : Nat) : (d.putFld k l w x).prot = d.prot := (rfl)
@[simp] theorem putFld_latched (k : Key) (l w x : Nat) : (d.putFld k l w x).latched = d.latched := (rfl)
@[simp] theorem putFld_clients (k : Key) (l w x : Nat) : (d.putFld k l w x).clients = d.clients := (rfl)
@[simp] theorem putFld_tfi (k : Key) (l w x : Nat) : (d.putFld k l w x).tfi = d.tfi := (rfl)
@[simp] theorem putFld_tfiCh (k : Key) (l w x : Nat) : (d.putFld k l w x).tfiCh = d.tfiCh := (rfl)
@[simp] theorem putFld_mateLanes (k : Key) (l w x : Nat) : (d.putFld k l w x).mateLanes = d.mateLanes := (rfl)
@[simp] theorem putFld_pins (k : Key) (l w x : Nat) : (d.putFld k l w x).pins = d.pins := (rfl)
@[simp] theorem putFld_mem (k : Key) (l w x : Nat) : (d.putFld k l w x).mem = d.mem := (rfl)
@[simp] theorem putFld_out (k : Key) (l w x : Nat) : (d.putFld k l w x).out = d.out := (rfl)
@[simp] theorem putFld_free (k : Key) (l w x : Nat) : (d.putFld k l w x).free = d.free := (rfl)
@[simp] theorem putFld_undoc (k : Key) (l w x : Nat) : (d.putFld k l w x).undoc = d.undoc := (rfl)

/-! ## putFlag -/

@[simp] theorem putFlag_strs (k : Key) (i : Nat) (b : Bool) : (d.putFlag k i b).strs = d.strs := (rfl)
@[simp] theorem putFlag_bankA (k : Key) (i : Nat) (b : Bool) : (d.putFlag k i b).bankA = d.bankA := (rfl)
@[simp] theorem putFlag_bankB (k : Key) (i : Nat) (b : Bool) : (d.putFlag k i b).bankB = d.bankB := (rfl)
@[simp] theorem putFlag_elapsed (k : Key) (i : Nat) (b : Bool) : (d.putFlag k i b).elapsed = d.elapsed := (rfl)
@[simp] theorem putFlag_frames (k : Key) (i : Nat) (b : Bool) : (d.putFlag k i b).frames = d.frames := (rfl)
@[simp] theorem putFlag_spi (k : Key) (i : Nat) (b : Bool) : (d.putFlag k i b).spi = d.spi := (rfl)
@[simp] theorem putFlag_canM (k : Key) (i : Nat) (b : Bool) : (d.putFlag k i b).canM = d.canM := (rfl)
@[simp] theorem putFlag_mgmt (k : Key) (i : Nat) (b : Bool) : (d.putFlag k i b).mgmt = d.mgmt := (rfl)
@[simp] theorem putFlag_can (k : Key) (i : Nat) (b : Bool) : (d.putFlag k i b).can = d.can := (rfl)
@[simp] theorem putFlag_prov (k : Key) (i : Nat) (b : Bool) : (d.putFlag k i b).prov = d.prov := (rfl)
@[simp] theorem putFlag_mode (k : Key) (i : Nat) (b : Bool) : (d.putFlag k i b).mode = d.mode := (rfl)
@[simp] theorem putFlag_clk (k : Key) (i : Nat) (b : Bool) : (d.putFlag k i b).clk = d.clk := (rfl)
@[simp] theorem putFlag_coma (k : Key) (i : Nat) (b : Bool) : (d.putFlag k i b).coma = d.coma := (rfl)
@[simp] theorem putFlag_pair (k : Key) (i : Nat) (b : Bool) : (d.putFlag k i b).pair = d.pair := (rfl)
@[simp] theorem putFlag_cvu (k : Key) (i : Nat) (b : Bool) : (d.putFlag k i b).cvu = d.cvu := (rfl)
@[simp] theorem putFlag_sec (k : Key) (i : Nat) (b : Bool) : (d.putFlag k i b).sec = d.sec := (rfl)
@[simp] theorem putFlag_jtag (k : Key) (i : Nat) (b : Bool) : (d.putFlag k i b).jtag = d.jtag := (rfl)
@[simp] theorem putFlag_align (k : Key) (i : Nat) (b : Bool) : (d.putFlag k i b).align = d.align := (rfl)
@[simp] theorem putFlag_line (k : Key) (i : Nat) (b : Bool) : (d.putFlag k i b).line = d.line := (rfl)
@[simp] theorem putFlag_oh (k : Key) (i : Nat) (b : Bool) : (d.putFlag k i b).oh = d.oh := (rfl)
@[simp] theorem putFlag_pairWait (k : Key) (i : Nat) (b : Bool) : (d.putFlag k i b).pairWait = d.pairWait := (rfl)
@[simp] theorem putFlag_ptrRx (k : Key) (i : Nat) (b : Bool) : (d.putFlag k i b).ptrRx = d.ptrRx := (rfl)
@[simp] theorem putFlag_ptrTx (k : Key) (i : Nat) (b : Bool) : (d.putFlag k i b).ptrTx = d.ptrTx := (rfl)
@[simp] theorem putFlag_poh (k : Key) (i : Nat) (b : Bool) : (d.putFlag k i b).poh = d.poh := (rfl)
@[simp] theorem putFlag_captures (k : Key) (i : Nat) (b : Bool) : (d.putFlag k i b).captures = d.captures := (rfl)
@[simp] theorem putFlag_rxFrames (k : Key) (i : Nat) (b : Bool) : (d.putFlag k i b).rxFrames = d.rxFrames := (rfl)
@[simp] theorem putFlag_pathRx (k : Key) (i : Nat) (b : Bool) : (d.putFlag k i b).pathRx = d.pathRx := (rfl)
@[simp] theorem putFlag_pathTx (k : Key) (i : Nat) (b : Bool) : (d.putFlag k i b).pathTx = d.pathTx := (rfl)
@[simp] theorem putFlag_acts (k : Key) (i : Nat) (b : Bool) : (d.putFlag k i b).acts = d.acts := (rfl)
@[simp] theorem putFlag_reads (k : Key) (i : Nat) (b : Bool) : (d.putFlag k i b).reads = d.reads := (rfl)
@[simp] theorem putFlag_ber (k : Key) (i : Nat) (b : Bool) : (d.putFlag k i b).ber = d.ber := (rfl)
@[simp] theorem putFlag_pm (k : Key) (i : Nat) (b : Bool) : (d.putFlag k i b).pm = d.pm := (rfl)
@[simp] theorem putFlag_cpm (k : Key) (i : Nat) (b : Bool) : (d.putFlag k i b).cpm = d.cpm := (rfl)
@[simp] theorem putFlag_pmTime (k : Key) (i : Nat) (b : Bool) : (d.putFlag k i b).pmTime = d.pmTime := (rfl)
@[simp] theorem putFlag_prot (k : Key) (i : Nat) (b : Bool) : (d.putFlag k i b).prot = d.prot := (rfl)
@[simp] theorem putFlag_latched (k : Key) (i : Nat) (b : Bool) : (d.putFlag k i b).latched = d.latched := (rfl)
@[simp] theorem putFlag_clients (k : Key) (i : Nat) (b : Bool) : (d.putFlag k i b).clients = d.clients := (rfl)
@[simp] theorem putFlag_tfi (k : Key) (i : Nat) (b : Bool) : (d.putFlag k i b).tfi = d.tfi := (rfl)
@[simp] theorem putFlag_tfiCh (k : Key) (i : Nat) (b : Bool) : (d.putFlag k i b).tfiCh = d.tfiCh := (rfl)
@[simp] theorem putFlag_mateLanes (k : Key) (i : Nat) (b : Bool) : (d.putFlag k i b).mateLanes = d.mateLanes := (rfl)
@[simp] theorem putFlag_pins (k : Key) (i : Nat) (b : Bool) : (d.putFlag k i b).pins = d.pins := (rfl)
@[simp] theorem putFlag_mem (k : Key) (i : Nat) (b : Bool) : (d.putFlag k i b).mem = d.mem := (rfl)
@[simp] theorem putFlag_out (k : Key) (i : Nat) (b : Bool) : (d.putFlag k i b).out = d.out := (rfl)
@[simp] theorem putFlag_free (k : Key) (i : Nat) (b : Bool) : (d.putFlag k i b).free = d.free := (rfl)
@[simp] theorem putFlag_undoc (k : Key) (i : Nat) (b : Bool) : (d.putFlag k i b).undoc = d.undoc := (rfl)

/-! ## set1 -/

@[simp] theorem set1_strs (k : Key) (i : Nat) : (d.set1 k i).strs = d.strs := (rfl)
@[simp] theorem set1_bankA (k : Key) (i : Nat) : (d.set1 k i).bankA = d.bankA := (rfl)
@[simp] theorem set1_bankB (k : Key) (i : Nat) : (d.set1 k i).bankB = d.bankB := (rfl)
@[simp] theorem set1_elapsed (k : Key) (i : Nat) : (d.set1 k i).elapsed = d.elapsed := (rfl)
@[simp] theorem set1_frames (k : Key) (i : Nat) : (d.set1 k i).frames = d.frames := (rfl)
@[simp] theorem set1_spi (k : Key) (i : Nat) : (d.set1 k i).spi = d.spi := (rfl)
@[simp] theorem set1_canM (k : Key) (i : Nat) : (d.set1 k i).canM = d.canM := (rfl)
@[simp] theorem set1_mgmt (k : Key) (i : Nat) : (d.set1 k i).mgmt = d.mgmt := (rfl)
@[simp] theorem set1_can (k : Key) (i : Nat) : (d.set1 k i).can = d.can := (rfl)
@[simp] theorem set1_prov (k : Key) (i : Nat) : (d.set1 k i).prov = d.prov := (rfl)
@[simp] theorem set1_mode (k : Key) (i : Nat) : (d.set1 k i).mode = d.mode := (rfl)
@[simp] theorem set1_clk (k : Key) (i : Nat) : (d.set1 k i).clk = d.clk := (rfl)
@[simp] theorem set1_coma (k : Key) (i : Nat) : (d.set1 k i).coma = d.coma := (rfl)
@[simp] theorem set1_pair (k : Key) (i : Nat) : (d.set1 k i).pair = d.pair := (rfl)
@[simp] theorem set1_cvu (k : Key) (i : Nat) : (d.set1 k i).cvu = d.cvu := (rfl)
@[simp] theorem set1_sec (k : Key) (i : Nat) : (d.set1 k i).sec = d.sec := (rfl)
@[simp] theorem set1_jtag (k : Key) (i : Nat) : (d.set1 k i).jtag = d.jtag := (rfl)
@[simp] theorem set1_align (k : Key) (i : Nat) : (d.set1 k i).align = d.align := (rfl)
@[simp] theorem set1_line (k : Key) (i : Nat) : (d.set1 k i).line = d.line := (rfl)
@[simp] theorem set1_oh (k : Key) (i : Nat) : (d.set1 k i).oh = d.oh := (rfl)
@[simp] theorem set1_pairWait (k : Key) (i : Nat) : (d.set1 k i).pairWait = d.pairWait := (rfl)
@[simp] theorem set1_ptrRx (k : Key) (i : Nat) : (d.set1 k i).ptrRx = d.ptrRx := (rfl)
@[simp] theorem set1_ptrTx (k : Key) (i : Nat) : (d.set1 k i).ptrTx = d.ptrTx := (rfl)
@[simp] theorem set1_poh (k : Key) (i : Nat) : (d.set1 k i).poh = d.poh := (rfl)
@[simp] theorem set1_captures (k : Key) (i : Nat) : (d.set1 k i).captures = d.captures := (rfl)
@[simp] theorem set1_rxFrames (k : Key) (i : Nat) : (d.set1 k i).rxFrames = d.rxFrames := (rfl)
@[simp] theorem set1_pathRx (k : Key) (i : Nat) : (d.set1 k i).pathRx = d.pathRx := (rfl)
@[simp] theorem set1_pathTx (k : Key) (i : Nat) : (d.set1 k i).pathTx = d.pathTx := (rfl)
@[simp] theorem set1_acts (k : Key) (i : Nat) : (d.set1 k i).acts = d.acts := (rfl)
@[simp] theorem set1_reads (k : Key) (i : Nat) : (d.set1 k i).reads = d.reads := (rfl)
@[simp] theorem set1_ber (k : Key) (i : Nat) : (d.set1 k i).ber = d.ber := (rfl)
@[simp] theorem set1_pm (k : Key) (i : Nat) : (d.set1 k i).pm = d.pm := (rfl)
@[simp] theorem set1_cpm (k : Key) (i : Nat) : (d.set1 k i).cpm = d.cpm := (rfl)
@[simp] theorem set1_pmTime (k : Key) (i : Nat) : (d.set1 k i).pmTime = d.pmTime := (rfl)
@[simp] theorem set1_prot (k : Key) (i : Nat) : (d.set1 k i).prot = d.prot := (rfl)
@[simp] theorem set1_latched (k : Key) (i : Nat) : (d.set1 k i).latched = d.latched := (rfl)
@[simp] theorem set1_clients (k : Key) (i : Nat) : (d.set1 k i).clients = d.clients := (rfl)
@[simp] theorem set1_tfi (k : Key) (i : Nat) : (d.set1 k i).tfi = d.tfi := (rfl)
@[simp] theorem set1_tfiCh (k : Key) (i : Nat) : (d.set1 k i).tfiCh = d.tfiCh := (rfl)
@[simp] theorem set1_mateLanes (k : Key) (i : Nat) : (d.set1 k i).mateLanes = d.mateLanes := (rfl)
@[simp] theorem set1_pins (k : Key) (i : Nat) : (d.set1 k i).pins = d.pins := (rfl)
@[simp] theorem set1_mem (k : Key) (i : Nat) : (d.set1 k i).mem = d.mem := (rfl)
@[simp] theorem set1_out (k : Key) (i : Nat) : (d.set1 k i).out = d.out := (rfl)
@[simp] theorem set1_free (k : Key) (i : Nat) : (d.set1 k i).free = d.free := (rfl)
@[simp] theorem set1_undoc (k : Key) (i : Nat) : (d.set1 k i).undoc = d.undoc := (rfl)

/-! ## fresh -/

@[simp] theorem fresh_regs : (d.fresh).regs = d.regs := (rfl)
@[simp] theorem fresh_strs : (d.fresh).strs = d.strs := (rfl)
@[simp] theorem fresh_bankA : (d.fresh).bankA = d.bankA := (rfl)
@[simp] theorem fresh_bankB : (d.fresh).bankB = d.bankB := (rfl)
@[simp] theorem fresh_elapsed : (d.fresh).elapsed = d.elapsed := (rfl)
@[simp] theorem fresh_frames : (d.fresh).frames = d.frames := (rfl)
@[simp] theorem fresh_spi : (d.fresh).spi = d.spi := (rfl)
@[simp] theorem fresh_canM : (d.fresh).canM = d.canM := (rfl)
@[simp] theorem fresh_mgmt : (d.fresh).mgmt = d.mgmt := (rfl)
@[simp] theorem fresh_can : (d.fresh).can = d.can := (rfl)
@[simp] theorem fresh_prov : (d.fresh).prov = d.prov := (rfl)
@[simp] theorem fresh_mode : (d.fresh).mode = d.mode := (rfl)
@[simp] theorem fresh_clk : (d.fresh).clk = d.clk := (rfl)
@[simp] theorem fresh_coma : (d.fresh).coma = d.coma := (rfl)
@[simp] theorem fresh_pair : (d.fresh).pair = d.pair := (rfl)
@[simp] theorem fresh_cvu : (d.fresh).cvu = d.cvu := (rfl)
@[simp] theorem fresh_sec : (d.fresh).sec = d.sec := (rfl)
@[simp] theorem fresh_jtag : (d.fresh).jtag = d.jtag := (rfl)
@[simp] theorem fresh_align : (d.fresh).align = d.align := (rfl)
@[simp] theorem fresh_line : (d.fresh).line = d.line := (rfl)
@[simp] theorem fresh_oh : (d.fresh).oh = d.oh := (rfl)
@[simp] theorem fresh_pairWait : (d.fresh).pairWait = d.pairWait := (rfl)
@[simp] theorem fresh_ptrRx : (d.fresh).ptrRx = d.ptrRx := (rfl)
@[simp] theorem fresh_ptrTx : (d.fresh).ptrTx = d.ptrTx := (rfl)
@[simp] theorem fresh_poh : (d.fresh).poh = d.poh := (rfl)
@[simp] theorem fresh_captures : (d.fresh).captures = d.captures := (rfl)
@[simp] theorem fresh_rxFrames : (d.fresh).rxFrames = d.rxFrames := (rfl)
@[simp] theorem fresh_pathRx : (d.fresh).pathRx = d.pathRx := (rfl)
@[simp] theorem fresh_pathTx : (d.fresh).pathTx = d.pathTx := (rfl)
@[simp] theorem fresh_acts : (d.fresh).acts = d.acts := (rfl)
@[simp] theorem fresh_reads : (d.fresh).reads = d.reads := (rfl)
@[simp] theorem fresh_ber : (d.fresh).ber = d.ber := (rfl)
@[simp] theorem fresh_pm : (d.fresh).pm = d.pm := (rfl)
@[simp] theorem fresh_cpm : (d.fresh).cpm = d.cpm := (rfl)
@[simp] theorem fresh_pmTime : (d.fresh).pmTime = d.pmTime := (rfl)
@[simp] theorem fresh_prot : (d.fresh).prot = d.prot := (rfl)
@[simp] theorem fresh_latched : (d.fresh).latched = d.latched := (rfl)
@[simp] theorem fresh_clients : (d.fresh).clients = d.clients := (rfl)
@[simp] theorem fresh_tfi : (d.fresh).tfi = d.tfi := (rfl)
@[simp] theorem fresh_tfiCh : (d.fresh).tfiCh = d.tfiCh := (rfl)
@[simp] theorem fresh_mateLanes : (d.fresh).mateLanes = d.mateLanes := (rfl)
@[simp] theorem fresh_pins : (d.fresh).pins = d.pins := (rfl)
@[simp] theorem fresh_mem : (d.fresh).mem = d.mem := (rfl)
@[simp] theorem fresh_out : (d.fresh).out = d.out := (rfl)
@[simp] theorem fresh_free : (d.fresh).free = d.free + 1 := (rfl)
@[simp] theorem fresh_undoc : (d.fresh).undoc = d.undoc := (rfl)

/-! ## onSpi -/

@[simp] theorem onSpi_regs (f : MasterSt → MasterSt) : (d.onSpi f).regs = d.regs := (rfl)
@[simp] theorem onSpi_strs (f : MasterSt → MasterSt) : (d.onSpi f).strs = d.strs := (rfl)
@[simp] theorem onSpi_bankA (f : MasterSt → MasterSt) : (d.onSpi f).bankA = d.bankA := (rfl)
@[simp] theorem onSpi_bankB (f : MasterSt → MasterSt) : (d.onSpi f).bankB = d.bankB := (rfl)
@[simp] theorem onSpi_elapsed (f : MasterSt → MasterSt) : (d.onSpi f).elapsed = d.elapsed := (rfl)
@[simp] theorem onSpi_frames (f : MasterSt → MasterSt) : (d.onSpi f).frames = d.frames := (rfl)
@[simp] theorem onSpi_spi (f : MasterSt → MasterSt) : (d.onSpi f).spi = f d.spi := (rfl)
@[simp] theorem onSpi_canM (f : MasterSt → MasterSt) : (d.onSpi f).canM = d.canM := (rfl)
@[simp] theorem onSpi_mgmt (f : MasterSt → MasterSt) : (d.onSpi f).mgmt = d.mgmt := (rfl)
@[simp] theorem onSpi_can (f : MasterSt → MasterSt) : (d.onSpi f).can = d.can := (rfl)
@[simp] theorem onSpi_prov (f : MasterSt → MasterSt) : (d.onSpi f).prov = d.prov := (rfl)
@[simp] theorem onSpi_mode (f : MasterSt → MasterSt) : (d.onSpi f).mode = d.mode := (rfl)
@[simp] theorem onSpi_clk (f : MasterSt → MasterSt) : (d.onSpi f).clk = d.clk := (rfl)
@[simp] theorem onSpi_coma (f : MasterSt → MasterSt) : (d.onSpi f).coma = d.coma := (rfl)
@[simp] theorem onSpi_pair (f : MasterSt → MasterSt) : (d.onSpi f).pair = d.pair := (rfl)
@[simp] theorem onSpi_cvu (f : MasterSt → MasterSt) : (d.onSpi f).cvu = d.cvu := (rfl)
@[simp] theorem onSpi_sec (f : MasterSt → MasterSt) : (d.onSpi f).sec = d.sec := (rfl)
@[simp] theorem onSpi_jtag (f : MasterSt → MasterSt) : (d.onSpi f).jtag = d.jtag := (rfl)
@[simp] theorem onSpi_align (f : MasterSt → MasterSt) : (d.onSpi f).align = d.align := (rfl)
@[simp] theorem onSpi_line (f : MasterSt → MasterSt) : (d.onSpi f).line = d.line := (rfl)
@[simp] theorem onSpi_oh (f : MasterSt → MasterSt) : (d.onSpi f).oh = d.oh := (rfl)
@[simp] theorem onSpi_pairWait (f : MasterSt → MasterSt) : (d.onSpi f).pairWait = d.pairWait := (rfl)
@[simp] theorem onSpi_ptrRx (f : MasterSt → MasterSt) : (d.onSpi f).ptrRx = d.ptrRx := (rfl)
@[simp] theorem onSpi_ptrTx (f : MasterSt → MasterSt) : (d.onSpi f).ptrTx = d.ptrTx := (rfl)
@[simp] theorem onSpi_poh (f : MasterSt → MasterSt) : (d.onSpi f).poh = d.poh := (rfl)
@[simp] theorem onSpi_captures (f : MasterSt → MasterSt) : (d.onSpi f).captures = d.captures := (rfl)
@[simp] theorem onSpi_rxFrames (f : MasterSt → MasterSt) : (d.onSpi f).rxFrames = d.rxFrames := (rfl)
@[simp] theorem onSpi_pathRx (f : MasterSt → MasterSt) : (d.onSpi f).pathRx = d.pathRx := (rfl)
@[simp] theorem onSpi_pathTx (f : MasterSt → MasterSt) : (d.onSpi f).pathTx = d.pathTx := (rfl)
@[simp] theorem onSpi_acts (f : MasterSt → MasterSt) : (d.onSpi f).acts = d.acts := (rfl)
@[simp] theorem onSpi_reads (f : MasterSt → MasterSt) : (d.onSpi f).reads = d.reads := (rfl)
@[simp] theorem onSpi_ber (f : MasterSt → MasterSt) : (d.onSpi f).ber = d.ber := (rfl)
@[simp] theorem onSpi_pm (f : MasterSt → MasterSt) : (d.onSpi f).pm = d.pm := (rfl)
@[simp] theorem onSpi_cpm (f : MasterSt → MasterSt) : (d.onSpi f).cpm = d.cpm := (rfl)
@[simp] theorem onSpi_pmTime (f : MasterSt → MasterSt) : (d.onSpi f).pmTime = d.pmTime := (rfl)
@[simp] theorem onSpi_prot (f : MasterSt → MasterSt) : (d.onSpi f).prot = d.prot := (rfl)
@[simp] theorem onSpi_latched (f : MasterSt → MasterSt) : (d.onSpi f).latched = d.latched := (rfl)
@[simp] theorem onSpi_clients (f : MasterSt → MasterSt) : (d.onSpi f).clients = d.clients := (rfl)
@[simp] theorem onSpi_tfi (f : MasterSt → MasterSt) : (d.onSpi f).tfi = d.tfi := (rfl)
@[simp] theorem onSpi_tfiCh (f : MasterSt → MasterSt) : (d.onSpi f).tfiCh = d.tfiCh := (rfl)
@[simp] theorem onSpi_mateLanes (f : MasterSt → MasterSt) : (d.onSpi f).mateLanes = d.mateLanes := (rfl)
@[simp] theorem onSpi_pins (f : MasterSt → MasterSt) : (d.onSpi f).pins = d.pins := (rfl)
@[simp] theorem onSpi_mem (f : MasterSt → MasterSt) : (d.onSpi f).mem = d.mem := (rfl)
@[simp] theorem onSpi_out (f : MasterSt → MasterSt) : (d.onSpi f).out = d.out := (rfl)
@[simp] theorem onSpi_free (f : MasterSt → MasterSt) : (d.onSpi f).free = d.free := (rfl)
@[simp] theorem onSpi_undoc (f : MasterSt → MasterSt) : (d.onSpi f).undoc = d.undoc := (rfl)

/-! ## onCanM -/

@[simp] theorem onCanM_regs (f : MasterSt → MasterSt) : (d.onCanM f).regs = d.regs := (rfl)
@[simp] theorem onCanM_strs (f : MasterSt → MasterSt) : (d.onCanM f).strs = d.strs := (rfl)
@[simp] theorem onCanM_bankA (f : MasterSt → MasterSt) : (d.onCanM f).bankA = d.bankA := (rfl)
@[simp] theorem onCanM_bankB (f : MasterSt → MasterSt) : (d.onCanM f).bankB = d.bankB := (rfl)
@[simp] theorem onCanM_elapsed (f : MasterSt → MasterSt) : (d.onCanM f).elapsed = d.elapsed := (rfl)
@[simp] theorem onCanM_frames (f : MasterSt → MasterSt) : (d.onCanM f).frames = d.frames := (rfl)
@[simp] theorem onCanM_spi (f : MasterSt → MasterSt) : (d.onCanM f).spi = d.spi := (rfl)
@[simp] theorem onCanM_canM (f : MasterSt → MasterSt) : (d.onCanM f).canM = f d.canM := (rfl)
@[simp] theorem onCanM_mgmt (f : MasterSt → MasterSt) : (d.onCanM f).mgmt = d.mgmt := (rfl)
@[simp] theorem onCanM_can (f : MasterSt → MasterSt) : (d.onCanM f).can = d.can := (rfl)
@[simp] theorem onCanM_prov (f : MasterSt → MasterSt) : (d.onCanM f).prov = d.prov := (rfl)
@[simp] theorem onCanM_mode (f : MasterSt → MasterSt) : (d.onCanM f).mode = d.mode := (rfl)
@[simp] theorem onCanM_clk (f : MasterSt → MasterSt) : (d.onCanM f).clk = d.clk := (rfl)
@[simp] theorem onCanM_coma (f : MasterSt → MasterSt) : (d.onCanM f).coma = d.coma := (rfl)
@[simp] theorem onCanM_pair (f : MasterSt → MasterSt) : (d.onCanM f).pair = d.pair := (rfl)
@[simp] theorem onCanM_cvu (f : MasterSt → MasterSt) : (d.onCanM f).cvu = d.cvu := (rfl)
@[simp] theorem onCanM_sec (f : MasterSt → MasterSt) : (d.onCanM f).sec = d.sec := (rfl)
@[simp] theorem onCanM_jtag (f : MasterSt → MasterSt) : (d.onCanM f).jtag = d.jtag := (rfl)
@[simp] theorem onCanM_align (f : MasterSt → MasterSt) : (d.onCanM f).align = d.align := (rfl)
@[simp] theorem onCanM_line (f : MasterSt → MasterSt) : (d.onCanM f).line = d.line := (rfl)
@[simp] theorem onCanM_oh (f : MasterSt → MasterSt) : (d.onCanM f).oh = d.oh := (rfl)
@[simp] theorem onCanM_pairWait (f : MasterSt → MasterSt) : (d.onCanM f).pairWait = d.pairWait := (rfl)
@[simp] theorem onCanM_ptrRx (f : MasterSt → MasterSt) : (d.onCanM f).ptrRx = d.ptrRx := (rfl)
@[simp] theorem onCanM_ptrTx (f : MasterSt → MasterSt) : (d.onCanM f).ptrTx = d.ptrTx := (rfl)
@[simp] theorem onCanM_poh (f : MasterSt → MasterSt) : (d.onCanM f).poh = d.poh := (rfl)
@[simp] theorem onCanM_captures (f : MasterSt → MasterSt) : (d.onCanM f).captures = d.captures := (rfl)
@[simp] theorem onCanM_rxFrames (f : MasterSt → MasterSt) : (d.onCanM f).rxFrames = d.rxFrames := (rfl)
@[simp] theorem onCanM_pathRx (f : MasterSt → MasterSt) : (d.onCanM f).pathRx = d.pathRx := (rfl)
@[simp] theorem onCanM_pathTx (f : MasterSt → MasterSt) : (d.onCanM f).pathTx = d.pathTx := (rfl)
@[simp] theorem onCanM_acts (f : MasterSt → MasterSt) : (d.onCanM f).acts = d.acts := (rfl)
@[simp] theorem onCanM_reads (f : MasterSt → MasterSt) : (d.onCanM f).reads = d.reads := (rfl)
@[simp] theorem onCanM_ber (f : MasterSt → MasterSt) : (d.onCanM f).ber = d.ber := (rfl)
@[simp] theorem onCanM_pm (f : MasterSt → MasterSt) : (d.onCanM f).pm = d.pm := (rfl)
@[simp] theorem onCanM_cpm (f : MasterSt → MasterSt) : (d.onCanM f).cpm = d.cpm := (rfl)
@[simp] theorem onCanM_pmTime (f : MasterSt → MasterSt) : (d.onCanM f).pmTime = d.pmTime := (rfl)
@[simp] theorem onCanM_prot (f : MasterSt → MasterSt) : (d.onCanM f).prot = d.prot := (rfl)
@[simp] theorem onCanM_latched (f : MasterSt → MasterSt) : (d.onCanM f).latched = d.latched := (rfl)
@[simp] theorem onCanM_clients (f : MasterSt → MasterSt) : (d.onCanM f).clients = d.clients := (rfl)
@[simp] theorem onCanM_tfi (f : MasterSt → MasterSt) : (d.onCanM f).tfi = d.tfi := (rfl)
@[simp] theorem onCanM_tfiCh (f : MasterSt → MasterSt) : (d.onCanM f).tfiCh = d.tfiCh := (rfl)
@[simp] theorem onCanM_mateLanes (f : MasterSt → MasterSt) : (d.onCanM f).mateLanes = d.mateLanes := (rfl)
@[simp] theorem onCanM_pins (f : MasterSt → MasterSt) : (d.onCanM f).pins = d.pins := (rfl)
@[simp] theorem onCanM_mem (f : MasterSt → MasterSt) : (d.onCanM f).mem = d.mem := (rfl)
@[simp] theorem onCanM_out (f : MasterSt → MasterSt) : (d.onCanM f).out = d.out := (rfl)
@[simp] theorem onCanM_free (f : MasterSt → MasterSt) : (d.onCanM f).free = d.free := (rfl)
@[simp] theorem onCanM_undoc (f : MasterSt → MasterSt) : (d.onCanM f).undoc = d.undoc := (rfl)

/-! ## onMgmt -/

@[simp] theorem onMgmt_regs (f : MasterSt → MasterSt) : (d.onMgmt f).regs = d.regs := (rfl)
@[simp] theorem onMgmt_strs (f : MasterSt → MasterSt) : (d.onMgmt f).strs = d.strs := (rfl)
@[simp] theorem onMgmt_bankA (f : MasterSt → MasterSt) : (d.onMgmt f).bankA = d.bankA := (rfl)
@[simp] theorem onMgmt_bankB (f : MasterSt → MasterSt) : (d.onMgmt f).bankB = d.bankB := (rfl)
@[simp] theorem onMgmt_elapsed (f : MasterSt → MasterSt) : (d.onMgmt f).elapsed = d.elapsed := (rfl)
@[simp] theorem onMgmt_frames (f : MasterSt → MasterSt) : (d.onMgmt f).frames = d.frames := (rfl)
@[simp] theorem onMgmt_spi (f : MasterSt → MasterSt) : (d.onMgmt f).spi = d.spi := (rfl)
@[simp] theorem onMgmt_canM (f : MasterSt → MasterSt) : (d.onMgmt f).canM = d.canM := (rfl)
@[simp] theorem onMgmt_mgmt (f : MasterSt → MasterSt) : (d.onMgmt f).mgmt = f d.mgmt := (rfl)
@[simp] theorem onMgmt_can (f : MasterSt → MasterSt) : (d.onMgmt f).can = d.can := (rfl)
@[simp] theorem onMgmt_prov (f : MasterSt → MasterSt) : (d.onMgmt f).prov = d.prov := (rfl)
@[simp] theorem onMgmt_mode (f : MasterSt → MasterSt) : (d.onMgmt f).mode = d.mode := (rfl)
@[simp] theorem onMgmt_clk (f : MasterSt → MasterSt) : (d.onMgmt f).clk = d.clk := (rfl)
@[simp] theorem onMgmt_coma (f : MasterSt → MasterSt) : (d.onMgmt f).coma = d.coma := (rfl)
@[simp] theorem onMgmt_pair (f : MasterSt → MasterSt) : (d.onMgmt f).pair = d.pair := (rfl)
@[simp] theorem onMgmt_cvu (f : MasterSt → MasterSt) : (d.onMgmt f).cvu = d.cvu := (rfl)
@[simp] theorem onMgmt_sec (f : MasterSt → MasterSt) : (d.onMgmt f).sec = d.sec := (rfl)
@[simp] theorem onMgmt_jtag (f : MasterSt → MasterSt) : (d.onMgmt f).jtag = d.jtag := (rfl)
@[simp] theorem onMgmt_align (f : MasterSt → MasterSt) : (d.onMgmt f).align = d.align := (rfl)
@[simp] theorem onMgmt_line (f : MasterSt → MasterSt) : (d.onMgmt f).line = d.line := (rfl)
@[simp] theorem onMgmt_oh (f : MasterSt → MasterSt) : (d.onMgmt f).oh = d.oh := (rfl)
@[simp] theorem onMgmt_pairWait (f : MasterSt → MasterSt) : (d.onMgmt f).pairWait = d.pairWait := (rfl)
@[simp] theorem onMgmt_ptrRx (f : MasterSt → MasterSt) : (d.onMgmt f).ptrRx = d.ptrRx := (rfl)
@[simp] theorem onMgmt_ptrTx (f : MasterSt → MasterSt) : (d.onMgmt f).ptrTx = d.ptrTx := (rfl)
@[simp] theorem onMgmt_poh (f : MasterSt → MasterSt) : (d.onMgmt f).poh = d.poh := (rfl)
@[simp] theorem onMgmt_captures (f : MasterSt → MasterSt) : (d.onMgmt f).captures = d.captures := (rfl)
@[simp] theorem onMgmt_rxFrames (f : MasterSt → MasterSt) : (d.onMgmt f).rxFrames = d.rxFrames := (rfl)
@[simp] theorem onMgmt_pathRx (f : MasterSt → MasterSt) : (d.onMgmt f).pathRx = d.pathRx := (rfl)
@[simp] theorem onMgmt_pathTx (f : MasterSt → MasterSt) : (d.onMgmt f).pathTx = d.pathTx := (rfl)
@[simp] theorem onMgmt_acts (f : MasterSt → MasterSt) : (d.onMgmt f).acts = d.acts := (rfl)
@[simp] theorem onMgmt_reads (f : MasterSt → MasterSt) : (d.onMgmt f).reads = d.reads := (rfl)
@[simp] theorem onMgmt_ber (f : MasterSt → MasterSt) : (d.onMgmt f).ber = d.ber := (rfl)
@[simp] theorem onMgmt_pm (f : MasterSt → MasterSt) : (d.onMgmt f).pm = d.pm := (rfl)
@[simp] theorem onMgmt_cpm (f : MasterSt → MasterSt) : (d.onMgmt f).cpm = d.cpm := (rfl)
@[simp] theorem onMgmt_pmTime (f : MasterSt → MasterSt) : (d.onMgmt f).pmTime = d.pmTime := (rfl)
@[simp] theorem onMgmt_prot (f : MasterSt → MasterSt) : (d.onMgmt f).prot = d.prot := (rfl)
@[simp] theorem onMgmt_latched (f : MasterSt → MasterSt) : (d.onMgmt f).latched = d.latched := (rfl)
@[simp] theorem onMgmt_clients (f : MasterSt → MasterSt) : (d.onMgmt f).clients = d.clients := (rfl)
@[simp] theorem onMgmt_tfi (f : MasterSt → MasterSt) : (d.onMgmt f).tfi = d.tfi := (rfl)
@[simp] theorem onMgmt_tfiCh (f : MasterSt → MasterSt) : (d.onMgmt f).tfiCh = d.tfiCh := (rfl)
@[simp] theorem onMgmt_mateLanes (f : MasterSt → MasterSt) : (d.onMgmt f).mateLanes = d.mateLanes := (rfl)
@[simp] theorem onMgmt_pins (f : MasterSt → MasterSt) : (d.onMgmt f).pins = d.pins := (rfl)
@[simp] theorem onMgmt_mem (f : MasterSt → MasterSt) : (d.onMgmt f).mem = d.mem := (rfl)
@[simp] theorem onMgmt_out (f : MasterSt → MasterSt) : (d.onMgmt f).out = d.out := (rfl)
@[simp] theorem onMgmt_free (f : MasterSt → MasterSt) : (d.onMgmt f).free = d.free := (rfl)
@[simp] theorem onMgmt_undoc (f : MasterSt → MasterSt) : (d.onMgmt f).undoc = d.undoc := (rfl)

/-! ## onCan -/

@[simp] theorem onCan_regs (f : Can → Can) : (d.onCan f).regs = d.regs := (rfl)
@[simp] theorem onCan_strs (f : Can → Can) : (d.onCan f).strs = d.strs := (rfl)
@[simp] theorem onCan_bankA (f : Can → Can) : (d.onCan f).bankA = d.bankA := (rfl)
@[simp] theorem onCan_bankB (f : Can → Can) : (d.onCan f).bankB = d.bankB := (rfl)
@[simp] theorem onCan_elapsed (f : Can → Can) : (d.onCan f).elapsed = d.elapsed := (rfl)
@[simp] theorem onCan_frames (f : Can → Can) : (d.onCan f).frames = d.frames := (rfl)
@[simp] theorem onCan_spi (f : Can → Can) : (d.onCan f).spi = d.spi := (rfl)
@[simp] theorem onCan_canM (f : Can → Can) : (d.onCan f).canM = d.canM := (rfl)
@[simp] theorem onCan_mgmt (f : Can → Can) : (d.onCan f).mgmt = d.mgmt := (rfl)
@[simp] theorem onCan_can (f : Can → Can) : (d.onCan f).can = f d.can := (rfl)
@[simp] theorem onCan_prov (f : Can → Can) : (d.onCan f).prov = d.prov := (rfl)
@[simp] theorem onCan_mode (f : Can → Can) : (d.onCan f).mode = d.mode := (rfl)
@[simp] theorem onCan_clk (f : Can → Can) : (d.onCan f).clk = d.clk := (rfl)
@[simp] theorem onCan_coma (f : Can → Can) : (d.onCan f).coma = d.coma := (rfl)
@[simp] theorem onCan_pair (f : Can → Can) : (d.onCan f).pair = d.pair := (rfl)
@[simp] theorem onCan_cvu (f : Can → Can) : (d.onCan f).cvu = d.cvu := (rfl)
@[simp] theorem onCan_sec (f : Can → Can) : (d.onCan f).sec = d.sec := (rfl)
@[simp] theorem onCan_jtag (f : Can → Can) : (d.onCan f).jtag = d.jtag := (rfl)
@[simp] theorem onCan_align (f : Can → Can) : (d.onCan f).align = d.align := (rfl)
@[simp] theorem onCan_line (f : Can → Can) : (d.onCan f).line = d.line := (rfl)
@[simp] theorem onCan_oh (f : Can → Can) : (d.onCan f).oh = d.oh := (rfl)
@[simp] theorem onCan_pairWait (f : Can → Can) : (d.onCan f).pairWait = d.pairWait := (rfl)
@[simp] theorem onCan_ptrRx (f : Can → Can) : (d.onCan f).ptrRx = d.ptrRx := (rfl)
@[simp] theorem onCan_ptrTx (f : Can → Can) : (d.onCan f).ptrTx = d.ptrTx := (rfl)
@[simp] theorem onCan_poh (f : Can → Can) : (d.onCan f).poh = d.poh := (rfl)
@[simp] theorem onCan_captures (f : Can → Can) : (d.onCan f).captures = d.captures := (rfl)
@[simp] theorem onCan_rxFrames (f : Can → Can) : (d.onCan f).rxFrames = d.rxFrames := (rfl)
@[simp] theorem onCan_pathRx (f : Can → Can) : (d.onCan f).pathRx = d.pathRx := (rfl)
@[simp] theorem onCan_pathTx (f : Can → Can) : (d.onCan f).pathTx = d.pathTx := (rfl)
@[simp] theorem onCan_acts (f : Can → Can) : (d.onCan f).acts = d.acts := (rfl)
@[simp] theorem onCan_reads (f : Can → Can) : (d.onCan f).reads = d.reads := (rfl)
@[simp] theorem onCan_ber (f : Can → Can) : (d.onCan f).ber = d.ber := (rfl)
@[simp] theorem onCan_pm (f : Can → Can) : (d.onCan f).pm = d.pm := (rfl)
@[simp] theorem onCan_cpm (f : Can → Can) : (d.onCan f).cpm = d.cpm := (rfl)
@[simp] theorem onCan_pmTime (f : Can → Can) : (d.onCan f).pmTime = d.pmTime := (rfl)
@[simp] theorem onCan_prot (f : Can → Can) : (d.onCan f).prot = d.prot := (rfl)
@[simp] theorem onCan_latched (f : Can → Can) : (d.onCan f).latched = d.latched := (rfl)
@[simp] theorem onCan_clients (f : Can → Can) : (d.onCan f).clients = d.clients := (rfl)
@[simp] theorem onCan_tfi (f : Can → Can) : (d.onCan f).tfi = d.tfi := (rfl)
@[simp] theorem onCan_tfiCh (f : Can → Can) : (d.onCan f).tfiCh = d.tfiCh := (rfl)
@[simp] theorem onCan_mateLanes (f : Can → Can) : (d.onCan f).mateLanes = d.mateLanes := (rfl)
@[simp] theorem onCan_pins (f : Can → Can) : (d.onCan f).pins = d.pins := (rfl)
@[simp] theorem onCan_mem (f : Can → Can) : (d.onCan f).mem = d.mem := (rfl)
@[simp] theorem onCan_out (f : Can → Can) : (d.onCan f).out = d.out := (rfl)
@[simp] theorem onCan_free (f : Can → Can) : (d.onCan f).free = d.free := (rfl)
@[simp] theorem onCan_undoc (f : Can → Can) : (d.onCan f).undoc = d.undoc := (rfl)

/-! ## onProv -/

@[simp] theorem onProv_regs (f : Prov → Prov) : (d.onProv f).regs = d.regs := (rfl)
@[simp] theorem onProv_strs (f : Prov → Prov) : (d.onProv f).strs = d.strs := (rfl)
@[simp] theorem onProv_bankA (f : Prov → Prov) : (d.onProv f).bankA = d.bankA := (rfl)
@[simp] theorem onProv_bankB (f : Prov → Prov) : (d.onProv f).bankB = d.bankB := (rfl)
@[simp] theorem onProv_elapsed (f : Prov → Prov) : (d.onProv f).elapsed = d.elapsed := (rfl)
@[simp] theorem onProv_frames (f : Prov → Prov) : (d.onProv f).frames = d.frames := (rfl)
@[simp] theorem onProv_spi (f : Prov → Prov) : (d.onProv f).spi = d.spi := (rfl)
@[simp] theorem onProv_canM (f : Prov → Prov) : (d.onProv f).canM = d.canM := (rfl)
@[simp] theorem onProv_mgmt (f : Prov → Prov) : (d.onProv f).mgmt = d.mgmt := (rfl)
@[simp] theorem onProv_can (f : Prov → Prov) : (d.onProv f).can = d.can := (rfl)
@[simp] theorem onProv_prov (f : Prov → Prov) : (d.onProv f).prov = f d.prov := (rfl)
@[simp] theorem onProv_mode (f : Prov → Prov) : (d.onProv f).mode = d.mode := (rfl)
@[simp] theorem onProv_clk (f : Prov → Prov) : (d.onProv f).clk = d.clk := (rfl)
@[simp] theorem onProv_coma (f : Prov → Prov) : (d.onProv f).coma = d.coma := (rfl)
@[simp] theorem onProv_pair (f : Prov → Prov) : (d.onProv f).pair = d.pair := (rfl)
@[simp] theorem onProv_cvu (f : Prov → Prov) : (d.onProv f).cvu = d.cvu := (rfl)
@[simp] theorem onProv_sec (f : Prov → Prov) : (d.onProv f).sec = d.sec := (rfl)
@[simp] theorem onProv_jtag (f : Prov → Prov) : (d.onProv f).jtag = d.jtag := (rfl)
@[simp] theorem onProv_align (f : Prov → Prov) : (d.onProv f).align = d.align := (rfl)
@[simp] theorem onProv_line (f : Prov → Prov) : (d.onProv f).line = d.line := (rfl)
@[simp] theorem onProv_oh (f : Prov → Prov) : (d.onProv f).oh = d.oh := (rfl)
@[simp] theorem onProv_pairWait (f : Prov → Prov) : (d.onProv f).pairWait = d.pairWait := (rfl)
@[simp] theorem onProv_ptrRx (f : Prov → Prov) : (d.onProv f).ptrRx = d.ptrRx := (rfl)
@[simp] theorem onProv_ptrTx (f : Prov → Prov) : (d.onProv f).ptrTx = d.ptrTx := (rfl)
@[simp] theorem onProv_poh (f : Prov → Prov) : (d.onProv f).poh = d.poh := (rfl)
@[simp] theorem onProv_captures (f : Prov → Prov) : (d.onProv f).captures = d.captures := (rfl)
@[simp] theorem onProv_rxFrames (f : Prov → Prov) : (d.onProv f).rxFrames = d.rxFrames := (rfl)
@[simp] theorem onProv_pathRx (f : Prov → Prov) : (d.onProv f).pathRx = d.pathRx := (rfl)
@[simp] theorem onProv_pathTx (f : Prov → Prov) : (d.onProv f).pathTx = d.pathTx := (rfl)
@[simp] theorem onProv_acts (f : Prov → Prov) : (d.onProv f).acts = d.acts := (rfl)
@[simp] theorem onProv_reads (f : Prov → Prov) : (d.onProv f).reads = d.reads := (rfl)
@[simp] theorem onProv_ber (f : Prov → Prov) : (d.onProv f).ber = d.ber := (rfl)
@[simp] theorem onProv_pm (f : Prov → Prov) : (d.onProv f).pm = d.pm := (rfl)
@[simp] theorem onProv_cpm (f : Prov → Prov) : (d.onProv f).cpm = d.cpm := (rfl)
@[simp] theorem onProv_pmTime (f : Prov → Prov) : (d.onProv f).pmTime = d.pmTime := (rfl)
@[simp] theorem onProv_prot (f : Prov → Prov) : (d.onProv f).prot = d.prot := (rfl)
@[simp] theorem onProv_latched (f : Prov → Prov) : (d.onProv f).latched = d.latched := (rfl)
@[simp] theorem onProv_clients (f : Prov → Prov) : (d.onProv f).clients = d.clients := (rfl)
@[simp] theorem onProv_tfi (f : Prov → Prov) : (d.onProv f).tfi = d.tfi := (rfl)
@[simp] theorem onProv_tfiCh (f : Prov → Prov) : (d.onProv f).tfiCh = d.tfiCh := (rfl)
@[simp] theorem onProv_mateLanes (f : Prov → Prov) : (d.onProv f).mateLanes = d.mateLanes := (rfl)
@[simp] theorem onProv_pins (f : Prov → Prov) : (d.onProv f).pins = d.pins := (rfl)
@[simp] theorem onProv_mem (f : Prov → Prov) : (d.onProv f).mem = d.mem := (rfl)
@[simp] theorem onProv_out (f : Prov → Prov) : (d.onProv f).out = d.out := (rfl)
@[simp] theorem onProv_free (f : Prov → Prov) : (d.onProv f).free = d.free := (rfl)
@[simp] theorem onProv_undoc (f : Prov → Prov) : (d.onProv f).undoc = d.undoc := (rfl)

/-! ## onMode -/

@[simp] theorem onMode_regs (f : ModeSt → ModeSt) : (d.onMode f).regs = d.regs := (rfl)
@[simp] theorem onMode_strs (f : ModeSt → ModeSt) : (d.onMode f).strs = d.strs := (rfl)
@[simp] theorem onMode_bankA (f : ModeSt → ModeSt) : (d.onMode f).bankA = d.bankA := (rfl)
@[simp] theorem onMode_bankB (f : ModeSt → ModeSt) : (d.onMode f).bankB = d.bankB := (rfl)
@[simp] theorem onMode_elapsed (f : ModeSt → ModeSt) : (d.onMode f).elapsed = d.elapsed := (rfl)
@[simp] theorem onMode_frames (f : ModeSt → ModeSt) : (d.onMode f).frames = d.frames := (rfl)
@[simp] theorem onMode_spi (f : ModeSt → ModeSt) : (d.onMode f).spi = d.spi := (rfl)
@[simp] theorem onMode_canM (f : ModeSt → ModeSt) : (d.onMode f).canM = d.canM := (rfl)
@[simp] theorem onMode_mgmt (f : ModeSt → ModeSt) : (d.onMode f).mgmt = d.mgmt := (rfl)
@[simp] theorem onMode_can (f : ModeSt → ModeSt) : (d.onMode f).can = d.can := (rfl)
@[simp] theorem onMode_prov (f : ModeSt → ModeSt) : (d.onMode f).prov = d.prov := (rfl)
@[simp] theorem onMode_mode (f : ModeSt → ModeSt) : (d.onMode f).mode = f d.mode := (rfl)
@[simp] theorem onMode_clk (f : ModeSt → ModeSt) : (d.onMode f).clk = d.clk := (rfl)
@[simp] theorem onMode_coma (f : ModeSt → ModeSt) : (d.onMode f).coma = d.coma := (rfl)
@[simp] theorem onMode_pair (f : ModeSt → ModeSt) : (d.onMode f).pair = d.pair := (rfl)
@[simp] theorem onMode_cvu (f : ModeSt → ModeSt) : (d.onMode f).cvu = d.cvu := (rfl)
@[simp] theorem onMode_sec (f : ModeSt → ModeSt) : (d.onMode f).sec = d.sec := (rfl)
@[simp] theorem onMode_jtag (f : ModeSt → ModeSt) : (d.onMode f).jtag = d.jtag := (rfl)
@[simp] theorem onMode_align (f : ModeSt → ModeSt) : (d.onMode f).align = d.align := (rfl)
@[simp] theorem onMode_line (f : ModeSt → ModeSt) : (d.onMode f).line = d.line := (rfl)
@[simp] theorem onMode_oh (f : ModeSt → ModeSt) : (d.onMode f).oh = d.oh := (rfl)
@[simp] theorem onMode_pairWait (f : ModeSt → ModeSt) : (d.onMode f).pairWait = d.pairWait := (rfl)
@[simp] theorem onMode_ptrRx (f : ModeSt → ModeSt) : (d.onMode f).ptrRx = d.ptrRx := (rfl)
@[simp] theorem onMode_ptrTx (f : ModeSt → ModeSt) : (d.onMode f).ptrTx = d.ptrTx := (rfl)
@[simp] theorem onMode_poh (f : ModeSt → ModeSt) : (d.onMode f).poh = d.poh := (rfl)
@[simp] theorem onMode_captures (f : ModeSt → ModeSt) : (d.onMode f).captures = d.captures := (rfl)
@[simp] theorem onMode_rxFrames (f : ModeSt → ModeSt) : (d.onMode f).rxFrames = d.rxFrames := (rfl)
@[simp] theorem onMode_pathRx (f : ModeSt → ModeSt) : (d.onMode f).pathRx = d.pathRx := (rfl)
@[simp] theorem onMode_pathTx (f : ModeSt → ModeSt) : (d.onMode f).pathTx = d.pathTx := (rfl)
@[simp] theorem onMode_acts (f : ModeSt → ModeSt) : (d.onMode f).acts = d.acts := (rfl)
@[simp] theorem onMode_reads (f : ModeSt → ModeSt) : (d.onMode f).reads = d.reads := (rfl)
@[simp] theorem onMode_ber (f : ModeSt → ModeSt) : (d.onMode f).ber = d.ber := (rfl)
@[simp] theorem onMode_pm (f : ModeSt → ModeSt) : (d.onMode f).pm = d.pm := (rfl)
@[simp] theorem onMode_cpm (f : ModeSt → ModeSt) : (d.onMode f).cpm = d.cpm := (rfl)
@[simp] theorem onMode_pmTime (f : ModeSt → ModeSt) : (d.onMode f).pmTime = d.pmTime := (rfl)
@[simp] theorem onMode_prot (f : ModeSt → ModeSt) : (d.onMode f).prot = d.prot := (rfl)
@[simp] theorem onMode_latched (f : ModeSt → ModeSt) : (d.onMode f).latched = d.latched := (rfl)
@[simp] theorem onMode_clients (f : ModeSt → ModeSt) : (d.onMode f).clients = d.clients := (rfl)
@[simp] theorem onMode_tfi (f : ModeSt → ModeSt) : (d.onMode f).tfi = d.tfi := (rfl)
@[simp] theorem onMode_tfiCh (f : ModeSt → ModeSt) : (d.onMode f).tfiCh = d.tfiCh := (rfl)
@[simp] theorem onMode_mateLanes (f : ModeSt → ModeSt) : (d.onMode f).mateLanes = d.mateLanes := (rfl)
@[simp] theorem onMode_pins (f : ModeSt → ModeSt) : (d.onMode f).pins = d.pins := (rfl)
@[simp] theorem onMode_mem (f : ModeSt → ModeSt) : (d.onMode f).mem = d.mem := (rfl)
@[simp] theorem onMode_out (f : ModeSt → ModeSt) : (d.onMode f).out = d.out := (rfl)
@[simp] theorem onMode_free (f : ModeSt → ModeSt) : (d.onMode f).free = d.free := (rfl)
@[simp] theorem onMode_undoc (f : ModeSt → ModeSt) : (d.onMode f).undoc = d.undoc := (rfl)

/-! ## onClk -/

@[simp] theorem onClk_regs (f : Clk → Clk) : (d.onClk f).regs = d.regs := (rfl)
@[simp] theorem onClk_strs (f : Clk → Clk) : (d.onClk f).strs = d.strs := (rfl)
@[simp] theorem onClk_bankA (f : Clk → Clk) : (d.onClk f).bankA = d.bankA := (rfl)
@[simp] theorem onClk_bankB (f : Clk → Clk) : (d.onClk f).bankB = d.bankB := (rfl)
@[simp] theorem onClk_elapsed (f : Clk → Clk) : (d.onClk f).elapsed = d.elapsed := (rfl)
@[simp] theorem onClk_frames (f : Clk → Clk) : (d.onClk f).frames = d.frames := (rfl)
@[simp] theorem onClk_spi (f : Clk → Clk) : (d.onClk f).spi = d.spi := (rfl)
@[simp] theorem onClk_canM (f : Clk → Clk) : (d.onClk f).canM = d.canM := (rfl)
@[simp] theorem onClk_mgmt (f : Clk → Clk) : (d.onClk f).mgmt = d.mgmt := (rfl)
@[simp] theorem onClk_can (f : Clk → Clk) : (d.onClk f).can = d.can := (rfl)
@[simp] theorem onClk_prov (f : Clk → Clk) : (d.onClk f).prov = d.prov := (rfl)
@[simp] theorem onClk_mode (f : Clk → Clk) : (d.onClk f).mode = d.mode := (rfl)
@[simp] theorem onClk_clk (f : Clk → Clk) : (d.onClk f).clk = f d.clk := (rfl)
@[simp] theorem onClk_coma (f : Clk → Clk) : (d.onClk f).coma = d.coma := (rfl)
@[simp] theorem onClk_pair (f : Clk → Clk) : (d.onClk f).pair = d.pair := (rfl)
@[simp] theorem onClk_cvu (f : Clk → Clk) : (d.onClk f).cvu = d.cvu := (rfl)
@[simp] theorem onClk_sec (f : Clk → Clk) : (d.onClk f).sec = d.sec := (rfl)
@[simp] theorem onClk_jtag (f : Clk → Clk) : (d.onClk f).jtag = d.jtag := (rfl)
@[simp] theorem onClk_align (f : Clk → Clk) : (d.onClk f).align = d.align := (rfl)
@[simp] theorem onClk_line (f : Clk → Clk) : (d.onClk f).line = d.line := (rfl)
@[simp] theorem onClk_oh (f : Clk → Clk) : (d.onClk f).oh = d.oh := (rfl)
@[simp] theorem onClk_pairWait (f : Clk → Clk) : (d.onClk f).pairWait = d.pairWait := (rfl)
@[simp] theorem onClk_ptrRx (f : Clk → Clk) : (d.onClk f).ptrRx = d.ptrRx := (rfl)
@[simp] theorem onClk_ptrTx (f : Clk → Clk) : (d.onClk f).ptrTx = d.ptrTx := (rfl)
@[simp] theorem onClk_poh (f : Clk → Clk) : (d.onClk f).poh = d.poh := (rfl)
@[simp] theorem onClk_captures (f : Clk → Clk) : (d.onClk f).captures = d.captures := (rfl)
@[simp] theorem onClk_rxFrames (f : Clk → Clk) : (d.onClk f).rxFrames = d.rxFrames := (rfl)
@[simp] theorem onClk_pathRx (f : Clk → Clk) : (d.onClk f).pathRx = d.pathRx := (rfl)
@[simp] theorem onClk_pathTx (f : Clk → Clk) : (d.onClk f).pathTx = d.pathTx := (rfl)
@[simp] theorem onClk_acts (f : Clk → Clk) : (d.onClk f).acts = d.acts := (rfl)
@[simp] theorem onClk_reads (f : Clk → Clk) : (d.onClk f).reads = d.reads := (rfl)
@[simp] theorem onClk_ber (f : Clk → Clk) : (d.onClk f).ber = d.ber := (rfl)
@[simp] theorem onClk_pm (f : Clk → Clk) : (d.onClk f).pm = d.pm := (rfl)
@[simp] theorem onClk_cpm (f : Clk → Clk) : (d.onClk f).cpm = d.cpm := (rfl)
@[simp] theorem onClk_pmTime (f : Clk → Clk) : (d.onClk f).pmTime = d.pmTime := (rfl)
@[simp] theorem onClk_prot (f : Clk → Clk) : (d.onClk f).prot = d.prot := (rfl)
@[simp] theorem onClk_latched (f : Clk → Clk) : (d.onClk f).latched = d.latched := (rfl)
@[simp] theorem onClk_clients (f : Clk → Clk) : (d.onClk f).clients = d.clients := (rfl)
@[simp] theorem onClk_tfi (f : Clk → Clk) : (d.onClk f).tfi = d.tfi := (rfl)
@[simp] theorem onClk_tfiCh (f : Clk → Clk) : (d.onClk f).tfiCh = d.tfiCh := (rfl)
@[simp] theorem onClk_mateLanes (f : Clk → Clk) : (d.onClk f).mateLanes = d.mateLanes := (rfl)
@[simp] theorem onClk_pins (f : Clk → Clk) : (d.onClk f).pins = d.pins := (rfl)
@[simp] theorem onClk_mem (f : Clk → Clk) : (d.onClk f).mem = d.mem := (rfl)
@[simp] theorem onClk_out (f : Clk → Clk) : (d.onClk f).out = d.out := (rfl)
@[simp] theorem onClk_free (f : Clk → Clk) : (d.onClk f).free = d.free := (rfl)
@[simp] theorem onClk_undoc (f : Clk → Clk) : (d.onClk f).undoc = d.undoc := (rfl)

/-! ## onComa -/

@[simp] theorem onComa_regs (f : Coma → Coma) : (d.onComa f).regs = d.regs := (rfl)
@[simp] theorem onComa_strs (f : Coma → Coma) : (d.onComa f).strs = d.strs := (rfl)
@[simp] theorem onComa_bankA (f : Coma → Coma) : (d.onComa f).bankA = d.bankA := (rfl)
@[simp] theorem onComa_bankB (f : Coma → Coma) : (d.onComa f).bankB = d.bankB := (rfl)
@[simp] theorem onComa_elapsed (f : Coma → Coma) : (d.onComa f).elapsed = d.elapsed := (rfl)
@[simp] theorem onComa_frames (f : Coma → Coma) : (d.onComa f).frames = d.frames := (rfl)
@[simp] theorem onComa_spi (f : Coma → Coma) : (d.onComa f).spi = d.spi := (rfl)
@[simp] theorem onComa_canM (f : Coma → Coma) : (d.onComa f).canM = d.canM := (rfl)
@[simp] theorem onComa_mgmt (f : Coma → Coma) : (d.onComa f).mgmt = d.mgmt := (rfl)
@[simp] theorem onComa_can (f : Coma → Coma) : (d.onComa f).can = d.can := (rfl)
@[simp] theorem onComa_prov (f : Coma → Coma) : (d.onComa f).prov = d.prov := (rfl)
@[simp] theorem onComa_mode (f : Coma → Coma) : (d.onComa f).mode = d.mode := (rfl)
@[simp] theorem onComa_clk (f : Coma → Coma) : (d.onComa f).clk = d.clk := (rfl)
@[simp] theorem onComa_coma (f : Coma → Coma) : (d.onComa f).coma = f d.coma := (rfl)
@[simp] theorem onComa_pair (f : Coma → Coma) : (d.onComa f).pair = d.pair := (rfl)
@[simp] theorem onComa_cvu (f : Coma → Coma) : (d.onComa f).cvu = d.cvu := (rfl)
@[simp] theorem onComa_sec (f : Coma → Coma) : (d.onComa f).sec = d.sec := (rfl)
@[simp] theorem onComa_jtag (f : Coma → Coma) : (d.onComa f).jtag = d.jtag := (rfl)
@[simp] theorem onComa_align (f : Coma → Coma) : (d.onComa f).align = d.align := (rfl)
@[simp] theorem onComa_line (f : Coma → Coma) : (d.onComa f).line = d.line := (rfl)
@[simp] theorem onComa_oh (f : Coma → Coma) : (d.onComa f).oh = d.oh := (rfl)
@[simp] theorem onComa_pairWait (f : Coma → Coma) : (d.onComa f).pairWait = d.pairWait := (rfl)
@[simp] theorem onComa_ptrRx (f : Coma → Coma) : (d.onComa f).ptrRx = d.ptrRx := (rfl)
@[simp] theorem onComa_ptrTx (f : Coma → Coma) : (d.onComa f).ptrTx = d.ptrTx := (rfl)
@[simp] theorem onComa_poh (f : Coma → Coma) : (d.onComa f).poh = d.poh := (rfl)
@[simp] theorem onComa_captures (f : Coma → Coma) : (d.onComa f).captures = d.captures := (rfl)
@[simp] theorem onComa_rxFrames (f : Coma → Coma) : (d.onComa f).rxFrames = d.rxFrames := (rfl)
@[simp] theorem onComa_pathRx (f : Coma → Coma) : (d.onComa f).pathRx = d.pathRx := (rfl)
@[simp] theorem onComa_pathTx (f : Coma → Coma) : (d.onComa f).pathTx = d.pathTx := (rfl)
@[simp] theorem onComa_acts (f : Coma → Coma) : (d.onComa f).acts = d.acts := (rfl)
@[simp] theorem onComa_reads (f : Coma → Coma) : (d.onComa f).reads = d.reads := (rfl)
@[simp] theorem onComa_ber (f : Coma → Coma) : (d.onComa f).ber = d.ber := (rfl)
@[simp] theorem onComa_pm (f : Coma → Coma) : (d.onComa f).pm = d.pm := (rfl)
@[simp] theorem onComa_cpm (f : Coma → Coma) : (d.onComa f).cpm = d.cpm := (rfl)
@[simp] theorem onComa_pmTime (f : Coma → Coma) : (d.onComa f).pmTime = d.pmTime := (rfl)
@[simp] theorem onComa_prot (f : Coma → Coma) : (d.onComa f).prot = d.prot := (rfl)
@[simp] theorem onComa_latched (f : Coma → Coma) : (d.onComa f).latched = d.latched := (rfl)
@[simp] theorem onComa_clients (f : Coma → Coma) : (d.onComa f).clients = d.clients := (rfl)
@[simp] theorem onComa_tfi (f : Coma → Coma) : (d.onComa f).tfi = d.tfi := (rfl)
@[simp] theorem onComa_tfiCh (f : Coma → Coma) : (d.onComa f).tfiCh = d.tfiCh := (rfl)
@[simp] theorem onComa_mateLanes (f : Coma → Coma) : (d.onComa f).mateLanes = d.mateLanes := (rfl)
@[simp] theorem onComa_pins (f : Coma → Coma) : (d.onComa f).pins = d.pins := (rfl)
@[simp] theorem onComa_mem (f : Coma → Coma) : (d.onComa f).mem = d.mem := (rfl)
@[simp] theorem onComa_out (f : Coma → Coma) : (d.onComa f).out = d.out := (rfl)
@[simp] theorem onComa_free (f : Coma → Coma) : (d.onComa f).free = d.free := (rfl)
@[simp] theorem onComa_undoc (f : Coma → Coma) : (d.onComa f).undoc = d.undoc := (rfl)

/-! ## onPair -/

@[simp] theorem onPair_regs (f : PairSt → PairSt) : (d.onPair f).regs = d.regs := (rfl)
@[simp] theorem onPair_strs (f : PairSt → PairSt) : (d.onPair f).strs = d.strs := (rfl)
@[simp] theorem onPair_bankA (f : PairSt → PairSt) : (d.onPair f).bankA = d.bankA := (rfl)
@[simp] theorem onPair_bankB (f : PairSt → PairSt) : (d.onPair f).bankB = d.bankB := (rfl)
@[simp] theorem onPair_elapsed (f : PairSt → PairSt) : (d.onPair f).elapsed = d.elapsed := (rfl)
@[simp] theorem onPair_frames (f : PairSt → PairSt) : (d.onPair f).frames = d.frames := (rfl)
@[simp] theorem onPair_spi (f : PairSt → PairSt) : (d.onPair f).spi = d.spi := (rfl)
@[simp] theorem onPair_canM (f : PairSt → PairSt) : (d.onPair f).canM = d.canM := (rfl)
@[simp] theorem onPair_mgmt (f : PairSt → PairSt) : (d.onPair f).mgmt = d.mgmt := (rfl)
@[simp] theorem onPair_can (f : PairSt → PairSt) : (d.onPair f).can = d.can := (rfl)
@[simp] theorem onPair_prov (f : PairSt → PairSt) : (d.onPair f).prov = d.prov := (rfl)
@[simp] theorem onPair_mode (f : PairSt → PairSt) : (d.onPair f).mode = d.mode := (rfl)
@[simp] theorem onPair_clk (f : PairSt → PairSt) : (d.onPair f).clk = d.clk := (rfl)
@[simp] theorem onPair_coma (f : PairSt → PairSt) : (d.onPair f).coma = d.coma := (rfl)
@[simp] theorem onPair_pair (f : PairSt → PairSt) : (d.onPair f).pair = f d.pair := (rfl)
@[simp] theorem onPair_cvu (f : PairSt → PairSt) : (d.onPair f).cvu = d.cvu := (rfl)
@[simp] theorem onPair_sec (f : PairSt → PairSt) : (d.onPair f).sec = d.sec := (rfl)
@[simp] theorem onPair_jtag (f : PairSt → PairSt) : (d.onPair f).jtag = d.jtag := (rfl)
@[simp] theorem onPair_align (f : PairSt → PairSt) : (d.onPair f).align = d.align := (rfl)
@[simp] theorem onPair_line (f : PairSt → PairSt) : (d.onPair f).line = d.line := (rfl)
@[simp] theorem onPair_oh (f : PairSt → PairSt) : (d.onPair f).oh = d.oh := (rfl)
@[simp] theorem onPair_pairWait (f : PairSt → PairSt) : (d.onPair f).pairWait = d.pairWait := (rfl)
@[simp] theorem onPair_ptrRx (f : PairSt → PairSt) : (d.onPair f).ptrRx = d.ptrRx := (rfl)
@[simp] theorem onPair_ptrTx (f : PairSt → PairSt) : (d.onPair f).ptrTx = d.ptrTx := (rfl)
@[simp] theorem onPair_poh (f : PairSt → PairSt) : (d.onPair f).poh = d.poh := (rfl)
@[simp] theorem onPair_captures (f : PairSt → PairSt) : (d.onPair f).captures = d.captures := (rfl)
@[simp] theorem onPair_rxFrames (f : PairSt → PairSt) : (d.onPair f).rxFrames = d.rxFrames := (rfl)
@[simp] theorem onPair_pathRx (f : PairSt → PairSt) : (d.onPair f).pathRx = d.pathRx := (rfl)
@[simp] theorem onPair_pathTx (f : PairSt → PairSt) : (d.onPair f).pathTx = d.pathTx := (rfl)
@[simp] theorem onPair_acts (f : PairSt → PairSt) : (d.onPair f).acts = d.acts := (rfl)
@[simp] theorem onPair_reads (f : PairSt → PairSt) : (d.onPair f).reads = d.reads := (rfl)
@[simp] theorem onPair_ber (f : PairSt → PairSt) : (d.onPair f).ber = d.ber := (rfl)
@[simp] theorem onPair_pm (f : PairSt → PairSt) : (d.onPair f).pm = d.pm := (rfl)
@[simp] theorem onPair_cpm (f : PairSt → PairSt) : (d.onPair f).cpm = d.cpm := (rfl)
@[simp] theorem onPair_pmTime (f : PairSt → PairSt) : (d.onPair f).pmTime = d.pmTime := (rfl)
@[simp] theorem onPair_prot (f : PairSt → PairSt) : (d.onPair f).prot = d.prot := (rfl)
@[simp] theorem onPair_latched (f : PairSt → PairSt) : (d.onPair f).latched = d.latched := (rfl)
@[simp] theorem onPair_clients (f : PairSt → PairSt) : (d.onPair f).clients = d.clients := (rfl)
@[simp] theorem onPair_tfi (f : PairSt → PairSt) : (d.onPair f).tfi = d.tfi := (rfl)
@[simp] theorem onPair_tfiCh (f : PairSt → PairSt) : (d.onPair f).tfiCh = d.tfiCh := (rfl)
@[simp] theorem onPair_mateLanes (f : PairSt → PairSt) : (d.onPair f).mateLanes = d.mateLanes := (rfl)
@[simp] theorem onPair_pins (f : PairSt → PairSt) : (d.onPair f).pins = d.pins := (rfl)
@[simp] theorem onPair_mem (f : PairSt → PairSt) : (d.onPair f).mem = d.mem := (rfl)
@[simp] theorem onPair_out (f : PairSt → PairSt) : (d.onPair f).out = d.out := (rfl)
@[simp] theorem onPair_free (f : PairSt → PairSt) : (d.onPair f).free = d.free := (rfl)
@[simp] theorem onPair_undoc (f : PairSt → PairSt) : (d.onPair f).undoc = d.undoc := (rfl)

/-! ## onCvu -/

@[simp] theorem onCvu_regs (f : Cvu → Cvu) : (d.onCvu f).regs = d.regs := (rfl)
@[simp] theorem onCvu_strs (f : Cvu → Cvu) : (d.onCvu f).strs = d.strs := (rfl)
@[simp] theorem onCvu_bankA (f : Cvu → Cvu) : (d.onCvu f).bankA = d.bankA := (rfl)
@[simp] theorem onCvu_bankB (f : Cvu → Cvu) : (d.onCvu f).bankB = d.bankB := (rfl)
@[simp] theorem onCvu_elapsed (f : Cvu → Cvu) : (d.onCvu f).elapsed = d.elapsed := (rfl)
@[simp] theorem onCvu_frames (f : Cvu → Cvu) : (d.onCvu f).frames = d.frames := (rfl)
@[simp] theorem onCvu_spi (f : Cvu → Cvu) : (d.onCvu f).spi = d.spi := (rfl)
@[simp] theorem onCvu_canM (f : Cvu → Cvu) : (d.onCvu f).canM = d.canM := (rfl)
@[simp] theorem onCvu_mgmt (f : Cvu → Cvu) : (d.onCvu f).mgmt = d.mgmt := (rfl)
@[simp] theorem onCvu_can (f : Cvu → Cvu) : (d.onCvu f).can = d.can := (rfl)
@[simp] theorem onCvu_prov (f : Cvu → Cvu) : (d.onCvu f).prov = d.prov := (rfl)
@[simp] theorem onCvu_mode (f : Cvu → Cvu) : (d.onCvu f).mode = d.mode := (rfl)
@[simp] theorem onCvu_clk (f : Cvu → Cvu) : (d.onCvu f).clk = d.clk := (rfl)
@[simp] theorem onCvu_coma (f : Cvu → Cvu) : (d.onCvu f).coma = d.coma := (rfl)
@[simp] theorem onCvu_pair (f : Cvu → Cvu) : (d.onCvu f).pair = d.pair := (rfl)
@[simp] theorem onCvu_cvu (f : Cvu → Cvu) : (d.onCvu f).cvu = f d.cvu := (rfl)
@[simp] theorem onCvu_sec (f : Cvu → Cvu) : (d.onCvu f).sec = d.sec := (rfl)
@[simp] theorem onCvu_jtag (f : Cvu → Cvu) : (d.onCvu f).jtag = d.jtag := (rfl)
@[simp] theorem onCvu_align (f : Cvu → Cvu) : (d.onCvu f).align = d.align := (rfl)
@[simp] theorem onCvu_line (f : Cvu → Cvu) : (d.onCvu f).line = d.line := (rfl)
@[simp] theorem onCvu_oh (f : Cvu → Cvu) : (d.onCvu f).oh = d.oh := (rfl)
@[simp] theorem onCvu_pairWait (f : Cvu → Cvu) : (d.onCvu f).pairWait = d.pairWait := (rfl)
@[simp] theorem onCvu_ptrRx (f : Cvu → Cvu) : (d.onCvu f).ptrRx = d.ptrRx := (rfl)
@[simp] theorem onCvu_ptrTx (f : Cvu → Cvu) : (d.onCvu f).ptrTx = d.ptrTx := (rfl)
@[simp] theorem onCvu_poh (f : Cvu → Cvu) : (d.onCvu f).poh = d.poh := (rfl)
@[simp] theorem onCvu_captures (f : Cvu → Cvu) : (d.onCvu f).captures = d.captures := (rfl)
@[simp] theorem onCvu_rxFrames (f : Cvu → Cvu) : (d.onCvu f).rxFrames = d.rxFrames := (rfl)
@[simp] theorem onCvu_pathRx (f : Cvu → Cvu) : (d.onCvu f).pathRx = d.pathRx := (rfl)
@[simp] theorem onCvu_pathTx (f : Cvu → Cvu) : (d.onCvu f).pathTx = d.pathTx := (rfl)
@[simp] theorem onCvu_acts (f : Cvu → Cvu) : (d.onCvu f).acts = d.acts := (rfl)
@[simp] theorem onCvu_reads (f : Cvu → Cvu) : (d.onCvu f).reads = d.reads := (rfl)
@[simp] theorem onCvu_ber (f : Cvu → Cvu) : (d.onCvu f).ber = d.ber := (rfl)
@[simp] theorem onCvu_pm (f : Cvu → Cvu) : (d.onCvu f).pm = d.pm := (rfl)
@[simp] theorem onCvu_cpm (f : Cvu → Cvu) : (d.onCvu f).cpm = d.cpm := (rfl)
@[simp] theorem onCvu_pmTime (f : Cvu → Cvu) : (d.onCvu f).pmTime = d.pmTime := (rfl)
@[simp] theorem onCvu_prot (f : Cvu → Cvu) : (d.onCvu f).prot = d.prot := (rfl)
@[simp] theorem onCvu_latched (f : Cvu → Cvu) : (d.onCvu f).latched = d.latched := (rfl)
@[simp] theorem onCvu_clients (f : Cvu → Cvu) : (d.onCvu f).clients = d.clients := (rfl)
@[simp] theorem onCvu_tfi (f : Cvu → Cvu) : (d.onCvu f).tfi = d.tfi := (rfl)
@[simp] theorem onCvu_tfiCh (f : Cvu → Cvu) : (d.onCvu f).tfiCh = d.tfiCh := (rfl)
@[simp] theorem onCvu_mateLanes (f : Cvu → Cvu) : (d.onCvu f).mateLanes = d.mateLanes := (rfl)
@[simp] theorem onCvu_pins (f : Cvu → Cvu) : (d.onCvu f).pins = d.pins := (rfl)
@[simp] theorem onCvu_mem (f : Cvu → Cvu) : (d.onCvu f).mem = d.mem := (rfl)
@[simp] theorem onCvu_out (f : Cvu → Cvu) : (d.onCvu f).out = d.out := (rfl)
@[simp] theorem onCvu_free (f : Cvu → Cvu) : (d.onCvu f).free = d.free := (rfl)
@[simp] theorem onCvu_undoc (f : Cvu → Cvu) : (d.onCvu f).undoc = d.undoc := (rfl)

/-! ## onSec -/

@[simp] theorem onSec_regs (f : Sec → Sec) : (d.onSec f).regs = d.regs := (rfl)
@[simp] theorem onSec_strs (f : Sec → Sec) : (d.onSec f).strs = d.strs := (rfl)
@[simp] theorem onSec_bankA (f : Sec → Sec) : (d.onSec f).bankA = d.bankA := (rfl)
@[simp] theorem onSec_bankB (f : Sec → Sec) : (d.onSec f).bankB = d.bankB := (rfl)
@[simp] theorem onSec_elapsed (f : Sec → Sec) : (d.onSec f).elapsed = d.elapsed := (rfl)
@[simp] theorem onSec_frames (f : Sec → Sec) : (d.onSec f).frames = d.frames := (rfl)
@[simp] theorem onSec_spi (f : Sec → Sec) : (d.onSec f).spi = d.spi := (rfl)
@[simp] theorem onSec_canM (f : Sec → Sec) : (d.onSec f).canM = d.canM := (rfl)
@[simp] theorem onSec_mgmt (f : Sec → Sec) : (d.onSec f).mgmt = d.mgmt := (rfl)
@[simp] theorem onSec_can (f : Sec → Sec) : (d.onSec f).can = d.can := (rfl)
@[simp] theorem onSec_prov (f : Sec → Sec) : (d.onSec f).prov = d.prov := (rfl)
@[simp] theorem onSec_mode (f : Sec → Sec) : (d.onSec f).mode = d.mode := (rfl)
@[simp] theorem onSec_clk (f : Sec → Sec) : (d.onSec f).clk = d.clk := (rfl)
@[simp] theorem onSec_coma (f : Sec → Sec) : (d.onSec f).coma = d.coma := (rfl)
@[simp] theorem onSec_pair (f : Sec → Sec) : (d.onSec f).pair = d.pair := (rfl)
@[simp] theorem onSec_cvu (f : Sec → Sec) : (d.onSec f).cvu = d.cvu := (rfl)
@[simp] theorem onSec_sec (f : Sec → Sec) : (d.onSec f).sec = f d.sec := (rfl)
@[simp] theorem onSec_jtag (f : Sec → Sec) : (d.onSec f).jtag = d.jtag := (rfl)
@[simp] theorem onSec_align (f : Sec → Sec) : (d.onSec f).align = d.align := (rfl)
@[simp] theorem onSec_line (f : Sec → Sec) : (d.onSec f).line = d.line := (rfl)
@[simp] theorem onSec_oh (f : Sec → Sec) : (d.onSec f).oh = d.oh := (rfl)
@[simp] theorem onSec_pairWait (f : Sec → Sec) : (d.onSec f).pairWait = d.pairWait := (rfl)
@[simp] theorem onSec_ptrRx (f : Sec → Sec) : (d.onSec f).ptrRx = d.ptrRx := (rfl)
@[simp] theorem onSec_ptrTx (f : Sec → Sec) : (d.onSec f).ptrTx = d.ptrTx := (rfl)
@[simp] theorem onSec_poh (f : Sec → Sec) : (d.onSec f).poh = d.poh := (rfl)
@[simp] theorem onSec_captures (f : Sec → Sec) : (d.onSec f).captures = d.captures := (rfl)
@[simp] theorem onSec_rxFrames (f : Sec → Sec) : (d.onSec f).rxFrames = d.rxFrames := (rfl)
@[simp] theorem onSec_pathRx (f : Sec → Sec) : (d.onSec f).pathRx = d.pathRx := (rfl)
@[simp] theorem onSec_pathTx (f : Sec → Sec) : (d.onSec f).pathTx = d.pathTx := (rfl)
@[simp] theorem onSec_acts (f : Sec → Sec) : (d.onSec f).acts = d.acts := (rfl)
@[simp] theorem onSec_reads (f : Sec → Sec) : (d.onSec f).reads = d.reads := (rfl)
@[simp] theorem onSec_ber (f : Sec → Sec) : (d.onSec f).ber = d.ber := (rfl)
@[simp] theorem onSec_pm (f : Sec → Sec) : (d.onSec f).pm = d.pm := (rfl)
@[simp] theorem onSec_cpm (f : Sec → Sec) : (d.onSec f).cpm = d.cpm := (rfl)
@[simp] theorem onSec_pmTime (f : Sec → Sec) : (d.onSec f).pmTime = d.pmTime := (rfl)
@[simp] theorem onSec_prot (f : Sec → Sec) : (d.onSec f).prot = d.prot := (rfl)
@[simp] theorem onSec_latched (f : Sec → Sec) : (d.onSec f).latched = d.latched := (rfl)
@[simp] theorem onSec_clients (f : Sec → Sec) : (d.onSec f).clients = d.clients := (rfl)
@[simp] theorem onSec_tfi (f : Sec → Sec) : (d.onSec f).tfi = d.tfi := (rfl)
@[simp] theorem onSec_tfiCh (f : Sec → Sec) : (d.onSec f).tfiCh = d.tfiCh := (rfl)
@[simp] theorem onSec_mateLanes (f : Sec → Sec) : (d.onSec f).mateLanes = d.mateLanes := (rfl)
@[simp] theorem onSec_pins (f : Sec → Sec) : (d.onSec f).pins = d.pins := (rfl)
@[simp] theorem onSec_mem (f : Sec → Sec) : (d.onSec f).mem = d.mem := (rfl)
@[simp] theorem onSec_out (f : Sec → Sec) : (d.onSec f).out = d.out := (rfl)
@[simp] theorem onSec_free (f : Sec → Sec) : (d.onSec f).free = d.free := (rfl)
@[simp] theorem onSec_undoc (f : Sec → Sec) : (d.onSec f).undoc = d.undoc := (rfl)

/-! ## onJtag -/

@[simp] theorem onJtag_regs (f : Jtag → Jtag) : (d.onJtag f).regs = d.regs := (rfl)
@[simp] theorem onJtag_strs (f : Jtag → Jtag) : (d.onJtag f).strs = d.strs := (rfl)
@[simp] theorem onJtag_bankA (f : Jtag → Jtag) : (d.onJtag f).bankA = d.bankA := (rfl)
@[simp] theorem onJtag_bankB (f : Jtag → Jtag) : (d.onJtag f).bankB = d.bankB := (rfl)
@[simp] theorem onJtag_elapsed (f : Jtag → Jtag) : (d.onJtag f).elapsed = d.elapsed := (rfl)
@[simp] theorem onJtag_frames (f : Jtag → Jtag) : (d.onJtag f).frames = d.frames := (rfl)
@[simp] theorem onJtag_spi (f : Jtag → Jtag) : (d.onJtag f).spi = d.spi := (rfl)
@[simp] theorem onJtag_canM (f : Jtag → Jtag) : (d.onJtag f).canM = d.canM := (rfl)
@[simp] theorem onJtag_mgmt (f : Jtag → Jtag) : (d.onJtag f).mgmt = d.mgmt := (rfl)
@[simp] theorem onJtag_can (f : Jtag → Jtag) : (d.onJtag f).can = d.can := (rfl)
@[simp] theorem onJtag_prov (f : Jtag → Jtag) : (d.onJtag f).prov = d.prov := (rfl)
@[simp] theorem onJtag_mode (f : Jtag → Jtag) : (d.onJtag f).mode = d.mode := (rfl)
@[simp] theorem onJtag_clk (f : Jtag → Jtag) : (d.onJtag f).clk = d.clk := (rfl)
@[simp] theorem onJtag_coma (f : Jtag → Jtag) : (d.onJtag f).coma = d.coma := (rfl)
@[simp] theorem onJtag_pair (f : Jtag → Jtag) : (d.onJtag f).pair = d.pair := (rfl)
@[simp] theorem onJtag_cvu (f : Jtag → Jtag) : (d.onJtag f).cvu = d.cvu := (rfl)
@[simp] theorem onJtag_sec (f : Jtag → Jtag) : (d.onJtag f).sec = d.sec := (rfl)
@[simp] theorem onJtag_jtag (f : Jtag → Jtag) : (d.onJtag f).jtag = f d.jtag := (rfl)
@[simp] theorem onJtag_align (f : Jtag → Jtag) : (d.onJtag f).align = d.align := (rfl)
@[simp] theorem onJtag_line (f : Jtag → Jtag) : (d.onJtag f).line = d.line := (rfl)
@[simp] theorem onJtag_oh (f : Jtag → Jtag) : (d.onJtag f).oh = d.oh := (rfl)
@[simp] theorem onJtag_pairWait (f : Jtag → Jtag) : (d.onJtag f).pairWait = d.pairWait := (rfl)
@[simp] theorem onJtag_ptrRx (f : Jtag → Jtag) : (d.onJtag f).ptrRx = d.ptrRx := (rfl)
@[simp] theorem onJtag_ptrTx (f : Jtag → Jtag) : (d.onJtag f).ptrTx = d.ptrTx := (rfl)
@[simp] theorem onJtag_poh (f : Jtag → Jtag) : (d.onJtag f).poh = d.poh := (rfl)
@[simp] theorem onJtag_captures (f : Jtag → Jtag) : (d.onJtag f).captures = d.captures := (rfl)
@[simp] theorem onJtag_rxFrames (f : Jtag → Jtag) : (d.onJtag f).rxFrames = d.rxFrames := (rfl)
@[simp] theorem onJtag_pathRx (f : Jtag → Jtag) : (d.onJtag f).pathRx = d.pathRx := (rfl)
@[simp] theorem onJtag_pathTx (f : Jtag → Jtag) : (d.onJtag f).pathTx = d.pathTx := (rfl)
@[simp] theorem onJtag_acts (f : Jtag → Jtag) : (d.onJtag f).acts = d.acts := (rfl)
@[simp] theorem onJtag_reads (f : Jtag → Jtag) : (d.onJtag f).reads = d.reads := (rfl)
@[simp] theorem onJtag_ber (f : Jtag → Jtag) : (d.onJtag f).ber = d.ber := (rfl)
@[simp] theorem onJtag_pm (f : Jtag → Jtag) : (d.onJtag f).pm = d.pm := (rfl)
@[simp] theorem onJtag_cpm (f : Jtag → Jtag) : (d.onJtag f).cpm = d.cpm := (rfl)
@[simp] theorem onJtag_pmTime (f : Jtag → Jtag) : (d.onJtag f).pmTime = d.pmTime := (rfl)
@[simp] theorem onJtag_prot (f : Jtag → Jtag) : (d.onJtag f).prot = d.prot := (rfl)
@[simp] theorem onJtag_latched (f : Jtag → Jtag) : (d.onJtag f).latched = d.latched := (rfl)
@[simp] theorem onJtag_clients (f : Jtag → Jtag) : (d.onJtag f).clients = d.clients := (rfl)
@[simp] theorem onJtag_tfi (f : Jtag → Jtag) : (d.onJtag f).tfi = d.tfi := (rfl)
@[simp] theorem onJtag_tfiCh (f : Jtag → Jtag) : (d.onJtag f).tfiCh = d.tfiCh := (rfl)
@[simp] theorem onJtag_mateLanes (f : Jtag → Jtag) : (d.onJtag f).mateLanes = d.mateLanes := (rfl)
@[simp] theorem onJtag_pins (f : Jtag → Jtag) : (d.onJtag f).pins = d.pins := (rfl)
@[simp] theorem onJtag_mem (f : Jtag → Jtag) : (d.onJtag f).mem = d.mem := (rfl)
@[simp] theorem onJtag_out (f : Jtag → Jtag) : (d.onJtag f).out = d.out := (rfl)
@[simp] theorem onJtag_free (f : Jtag → Jtag) : (d.onJtag f).free = d.free := (rfl)
@[simp] theorem onJtag_undoc (f : Jtag → Jtag) : (d.onJtag f).undoc = d.undoc := (rfl)

/-! ## onAlign -/

@[simp] theorem onAlign_regs (f : AlignSt → AlignSt) : (d.onAlign f).regs = d.regs := (rfl)
@[simp] theorem onAlign_strs (f : AlignSt → AlignSt) : (d.onAlign f).strs = d.strs := (rfl)
@[simp] theorem onAlign_bankA (f : AlignSt → AlignSt) : (d.onAlign f).bankA = d.bankA := (rfl)
@[simp] theorem onAlign_bankB (f : AlignSt → AlignSt) : (d.onAlign f).bankB = d.bankB := (rfl)
@[simp] theorem onAlign_elapsed (f : AlignSt → AlignSt) : (d.onAlign f).elapsed = d.elapsed := (rfl)
@[simp] theorem onAlign_frames (f : AlignSt → AlignSt) : (d.onAlign f).frames = d.frames := (rfl)
@[simp] theorem onAlign_spi (f : AlignSt → AlignSt) : (d.onAlign f).spi = d.spi := (rfl)
@[simp] theorem onAlign_canM (f : AlignSt → AlignSt) : (d.onAlign f).canM = d.canM := (rfl)
@[simp] theorem onAlign_mgmt (f : AlignSt → AlignSt) : (d.onAlign f).mgmt = d.mgmt := (rfl)
@[simp] theorem onAlign_can (f : AlignSt → AlignSt) : (d.onAlign f).can = d.can := (rfl)
@[simp] theorem onAlign_prov (f : AlignSt → AlignSt) : (d.onAlign f).prov = d.prov := (rfl)
@[simp] theorem onAlign_mode (f : AlignSt → AlignSt) : (d.onAlign f).mode = d.mode := (rfl)
@[simp] theorem onAlign_clk (f : AlignSt → AlignSt) : (d.onAlign f).clk = d.clk := (rfl)
@[simp] theorem onAlign_coma (f : AlignSt → AlignSt) : (d.onAlign f).coma = d.coma := (rfl)
@[simp] theorem onAlign_pair (f : AlignSt → AlignSt) : (d.onAlign f).pair = d.pair := (rfl)
@[simp] theorem onAlign_cvu (f : AlignSt → AlignSt) : (d.onAlign f).cvu = d.cvu := (rfl)
@[simp] theorem onAlign_sec (f : AlignSt → AlignSt) : (d.onAlign f).sec = d.sec := (rfl)
@[simp] theorem onAlign_jtag (f : AlignSt → AlignSt) : (d.onAlign f).jtag = d.jtag := (rfl)
@[simp] theorem onAlign_align (f : AlignSt → AlignSt) : (d.onAlign f).align = f d.align := (rfl)
@[simp] theorem onAlign_line (f : AlignSt → AlignSt) : (d.onAlign f).line = d.line := (rfl)
@[simp] theorem onAlign_oh (f : AlignSt → AlignSt) : (d.onAlign f).oh = d.oh := (rfl)
@[simp] theorem onAlign_pairWait (f : AlignSt → AlignSt) : (d.onAlign f).pairWait = d.pairWait := (rfl)
@[simp] theorem onAlign_ptrRx (f : AlignSt → AlignSt) : (d.onAlign f).ptrRx = d.ptrRx := (rfl)
@[simp] theorem onAlign_ptrTx (f : AlignSt → AlignSt) : (d.onAlign f).ptrTx = d.ptrTx := (rfl)
@[simp] theorem onAlign_poh (f : AlignSt → AlignSt) : (d.onAlign f).poh = d.poh := (rfl)
@[simp] theorem onAlign_captures (f : AlignSt → AlignSt) : (d.onAlign f).captures = d.captures := (rfl)
@[simp] theorem onAlign_rxFrames (f : AlignSt → AlignSt) : (d.onAlign f).rxFrames = d.rxFrames := (rfl)
@[simp] theorem onAlign_pathRx (f : AlignSt → AlignSt) : (d.onAlign f).pathRx = d.pathRx := (rfl)
@[simp] theorem onAlign_pathTx (f : AlignSt → AlignSt) : (d.onAlign f).pathTx = d.pathTx := (rfl)
@[simp] theorem onAlign_acts (f : AlignSt → AlignSt) : (d.onAlign f).acts = d.acts := (rfl)
@[simp] theorem onAlign_reads (f : AlignSt → AlignSt) : (d.onAlign f).reads = d.reads := (rfl)
@[simp] theorem onAlign_ber (f : AlignSt → AlignSt) : (d.onAlign f).ber = d.ber := (rfl)
@[simp] theorem onAlign_pm (f : AlignSt → AlignSt) : (d.onAlign f).pm = d.pm := (rfl)
@[simp] theorem onAlign_cpm (f : AlignSt → AlignSt) : (d.onAlign f).cpm = d.cpm := (rfl)
@[simp] theorem onAlign_pmTime (f : AlignSt → AlignSt) : (d.onAlign f).pmTime = d.pmTime := (rfl)
@[simp] theorem onAlign_prot (f : AlignSt → AlignSt) : (d.onAlign f).prot = d.prot := (rfl)
@[simp] theorem onAlign_latched (f : AlignSt → AlignSt) : (d.onAlign f).latched = d.latched := (rfl)
@[simp] theorem onAlign_clients (f : AlignSt → AlignSt) : (d.onAlign f).clients = d.clients := (rfl)
@[simp] theorem onAlign_tfi (f : AlignSt → AlignSt) : (d.onAlign f).tfi = d.tfi := (rfl)
@[simp] theorem onAlign_tfiCh (f : AlignSt → AlignSt) : (d.onAlign f).tfiCh = d.tfiCh := (rfl)
@[simp] theorem onAlign_mateLanes (f : AlignSt → AlignSt) : (d.onAlign f).mateLanes = d.mateLanes := (rfl)
@[simp] theorem onAlign_pins (f : AlignSt → AlignSt) : (d.onAlign f).pins = d.pins := (rfl)
@[simp] theorem onAlign_mem (f : AlignSt → AlignSt) : (d.onAlign f).mem = d.mem := (rfl)
@[simp] theorem onAlign_out (f : AlignSt → AlignSt) : (d.onAlign f).out = d.out := (rfl)
@[simp] theorem onAlign_free (f : AlignSt → AlignSt) : (d.onAlign f).free = d.free := (rfl)
@[simp] theorem onAlign_undoc (f : AlignSt → AlignSt) : (d.onAlign f).undoc = d.undoc := (rfl)

/-! ## onLine -/

@[simp] theorem onLine_regs (f : LineSt → LineSt) : (d.onLine f).regs = d.regs := (rfl)
@[simp] theorem onLine_strs (f : LineSt → LineSt) : (d.onLine f).strs = d.strs := (rfl)
@[simp] theorem onLine_bankA (f : LineSt → LineSt) : (d.onLine f).bankA = d.bankA := (rfl)
@[simp] theorem onLine_bankB (f : LineSt → LineSt) : (d.onLine f).bankB = d.bankB := (rfl)
@[simp] theorem onLine_elapsed (f : LineSt → LineSt) : (d.onLine f).elapsed = d.elapsed := (rfl)
@[simp] theorem onLine_frames (f : LineSt → LineSt) : (d.onLine f).frames = d.frames := (rfl)
@[simp] theorem onLine_spi (f : LineSt → LineSt) : (d.onLine f).spi = d.spi := (rfl)
@[simp] theorem onLine_canM (f : LineSt → LineSt) : (d.onLine f).canM = d.canM := (rfl)
@[simp] theorem onLine_mgmt (f : LineSt → LineSt) : (d.onLine f).mgmt = d.mgmt := (rfl)
@[simp] theorem onLine_can (f : LineSt → LineSt) : (d.onLine f).can = d.can := (rfl)
@[simp] theorem onLine_prov (f : LineSt → LineSt) : (d.onLine f).prov = d.prov := (rfl)
@[simp] theorem onLine_mode (f : LineSt → LineSt) : (d.onLine f).mode = d.mode := (rfl)
@[simp] theorem onLine_clk (f : LineSt → LineSt) : (d.onLine f).clk = d.clk := (rfl)
@[simp] theorem onLine_coma (f : LineSt → LineSt) : (d.onLine f).coma = d.coma := (rfl)
@[simp] theorem onLine_pair (f : LineSt → LineSt) : (d.onLine f).pair = d.pair := (rfl)
@[simp] theorem onLine_cvu (f : LineSt → LineSt) : (d.onLine f).cvu = d.cvu := (rfl)
@[simp] theorem onLine_sec (f : LineSt → LineSt) : (d.onLine f).sec = d.sec := (rfl)
@[simp] theorem onLine_jtag (f : LineSt → LineSt) : (d.onLine f).jtag = d.jtag := (rfl)
@[simp] theorem onLine_align (f : LineSt → LineSt) : (d.onLine f).align = d.align := (rfl)
@[simp] theorem onLine_line (f : LineSt → LineSt) : (d.onLine f).line = f d.line := (rfl)
@[simp] theorem onLine_oh (f : LineSt → LineSt) : (d.onLine f).oh = d.oh := (rfl)
@[simp] theorem onLine_pairWait (f : LineSt → LineSt) : (d.onLine f).pairWait = d.pairWait := (rfl)
@[simp] theorem onLine_ptrRx (f : LineSt → LineSt) : (d.onLine f).ptrRx = d.ptrRx := (rfl)
@[simp] theorem onLine_ptrTx (f : LineSt → LineSt) : (d.onLine f).ptrTx = d.ptrTx := (rfl)
@[simp] theorem onLine_poh (f : LineSt → LineSt) : (d.onLine f).poh = d.poh := (rfl)
@[simp] theorem onLine_captures (f : LineSt → LineSt) : (d.onLine f).captures = d.captures := (rfl)
@[simp] theorem onLine_rxFrames (f : LineSt → LineSt) : (d.onLine f).rxFrames = d.rxFrames := (rfl)
@[simp] theorem onLine_pathRx (f : LineSt → LineSt) : (d.onLine f).pathRx = d.pathRx := (rfl)
@[simp] theorem onLine_pathTx (f : LineSt → LineSt) : (d.onLine f).pathTx = d.pathTx := (rfl)
@[simp] theorem onLine_acts (f : LineSt → LineSt) : (d.onLine f).acts = d.acts := (rfl)
@[simp] theorem onLine_reads (f : LineSt → LineSt) : (d.onLine f).reads = d.reads := (rfl)
@[simp] theorem onLine_ber (f : LineSt → LineSt) : (d.onLine f).ber = d.ber := (rfl)
@[simp] theorem onLine_pm (f : LineSt → LineSt) : (d.onLine f).pm = d.pm := (rfl)
@[simp] theorem onLine_cpm (f : LineSt → LineSt) : (d.onLine f).cpm = d.cpm := (rfl)
@[simp] theorem onLine_pmTime (f : LineSt → LineSt) : (d.onLine f).pmTime = d.pmTime := (rfl)
@[simp] theorem onLine_prot (f : LineSt → LineSt) : (d.onLine f).prot = d.prot := (rfl)
@[simp] theorem onLine_latched (f : LineSt → LineSt) : (d.onLine f).latched = d.latched := (rfl)
@[simp] theorem onLine_clients (f : LineSt → LineSt) : (d.onLine f).clients = d.clients := (rfl)
@[simp] theorem onLine_tfi (f : LineSt → LineSt) : (d.onLine f).tfi = d.tfi := (rfl)
@[simp] theorem onLine_tfiCh (f : LineSt → LineSt) : (d.onLine f).tfiCh = d.tfiCh := (rfl)
@[simp] theorem onLine_mateLanes (f : LineSt → LineSt) : (d.onLine f).mateLanes = d.mateLanes := (rfl)
@[simp] theorem onLine_pins (f : LineSt → LineSt) : (d.onLine f).pins = d.pins := (rfl)
@[simp] theorem onLine_mem (f : LineSt → LineSt) : (d.onLine f).mem = d.mem := (rfl)
@[simp] theorem onLine_out (f : LineSt → LineSt) : (d.onLine f).out = d.out := (rfl)
@[simp] theorem onLine_free (f : LineSt → LineSt) : (d.onLine f).free = d.free := (rfl)
@[simp] theorem onLine_undoc (f : LineSt → LineSt) : (d.onLine f).undoc = d.undoc := (rfl)

/-! ## onOh -/

@[simp] theorem onOh_regs (f : SecOh → SecOh) : (d.onOh f).regs = d.regs := (rfl)
@[simp] theorem onOh_strs (f : SecOh → SecOh) : (d.onOh f).strs = d.strs := (rfl)
@[simp] theorem onOh_bankA (f : SecOh → SecOh) : (d.onOh f).bankA = d.bankA := (rfl)
@[simp] theorem onOh_bankB (f : SecOh → SecOh) : (d.onOh f).bankB = d.bankB := (rfl)
@[simp] theorem onOh_elapsed (f : SecOh → SecOh) : (d.onOh f).elapsed = d.elapsed := (rfl)
@[simp] theorem onOh_frames (f : SecOh → SecOh) : (d.onOh f).frames = d.frames := (rfl)
@[simp] theorem onOh_spi (f : SecOh → SecOh) : (d.onOh f).spi = d.spi := (rfl)
@[simp] theorem onOh_canM (f : SecOh → SecOh) : (d.onOh f).canM = d.canM := (rfl)
@[simp] theorem onOh_mgmt (f : SecOh → SecOh) : (d.onOh f).mgmt = d.mgmt := (rfl)
@[simp] theorem onOh_can (f : SecOh → SecOh) : (d.onOh f).can = d.can := (rfl)
@[simp] theorem onOh_prov (f : SecOh → SecOh) : (d.onOh f).prov = d.prov := (rfl)
@[simp] theorem onOh_mode (f : SecOh → SecOh) : (d.onOh f).mode = d.mode := (rfl)
@[simp] theorem onOh_clk (f : SecOh → SecOh) : (d.onOh f).clk = d.clk := (rfl)
@[simp] theorem onOh_coma (f : SecOh → SecOh) : (d.onOh f).coma = d.coma := (rfl)
@[simp] theorem onOh_pair (f : SecOh → SecOh) : (d.onOh f).pair = d.pair := (rfl)
@[simp] theorem onOh_cvu (f : SecOh → SecOh) : (d.onOh f).cvu = d.cvu := (rfl)
@[simp] theorem onOh_sec (f : SecOh → SecOh) : (d.onOh f).sec = d.sec := (rfl)
@[simp] theorem onOh_jtag (f : SecOh → SecOh) : (d.onOh f).jtag = d.jtag := (rfl)
@[simp] theorem onOh_align (f : SecOh → SecOh) : (d.onOh f).align = d.align := (rfl)
@[simp] theorem onOh_line (f : SecOh → SecOh) : (d.onOh f).line = d.line := (rfl)
@[simp] theorem onOh_oh (f : SecOh → SecOh) : (d.onOh f).oh = f d.oh := (rfl)
@[simp] theorem onOh_pairWait (f : SecOh → SecOh) : (d.onOh f).pairWait = d.pairWait := (rfl)
@[simp] theorem onOh_ptrRx (f : SecOh → SecOh) : (d.onOh f).ptrRx = d.ptrRx := (rfl)
@[simp] theorem onOh_ptrTx (f : SecOh → SecOh) : (d.onOh f).ptrTx = d.ptrTx := (rfl)
@[simp] theorem onOh_poh (f : SecOh → SecOh) : (d.onOh f).poh = d.poh := (rfl)
@[simp] theorem onOh_captures (f : SecOh → SecOh) : (d.onOh f).captures = d.captures := (rfl)
@[simp] theorem onOh_rxFrames (f : SecOh → SecOh) : (d.onOh f).rxFrames = d.rxFrames := (rfl)
@[simp] theorem onOh_pathRx (f : SecOh → SecOh) : (d.onOh f).pathRx = d.pathRx := (rfl)
@[simp] theorem onOh_pathTx (f : SecOh → SecOh) : (d.onOh f).pathTx = d.pathTx := (rfl)
@[simp] theorem onOh_acts (f : SecOh → SecOh) : (d.onOh f).acts = d.acts := (rfl)
@[simp] theorem onOh_reads (f : SecOh → SecOh) : (d.onOh f).reads = d.reads := (rfl)
@[simp] theorem onOh_ber (f : SecOh → SecOh) : (d.onOh f).ber = d.ber := (rfl)
@[simp] theorem onOh_pm (f : SecOh → SecOh) : (d.onOh f).pm = d.pm := (rfl)
@[simp] theorem onOh_cpm (f : SecOh → SecOh) : (d.onOh f).cpm = d.cpm := (rfl)
@[simp] theorem onOh_pmTime (f : SecOh → SecOh) : (d.onOh f).pmTime = d.pmTime := (rfl)
@[simp] theorem onOh_prot (f : SecOh → SecOh) : (d.onOh f).prot = d.prot := (rfl)
@[simp] theorem onOh_latched (f : SecOh → SecOh) : (d.onOh f).latched = d.latched := (rfl)
@[simp] theorem onOh_clients (f : SecOh → SecOh) : (d.onOh f).clients = d.clients := (rfl)
@[simp] theorem onOh_tfi (f : SecOh → SecOh) : (d.onOh f).tfi = d.tfi := (rfl)
@[simp] theorem onOh_tfiCh (f : SecOh → SecOh) : (d.onOh f).tfiCh = d.tfiCh := (rfl)
@[simp] theorem onOh_mateLanes (f : SecOh → SecOh) : (d.onOh f).mateLanes = d.mateLanes := (rfl)
@[simp] theorem onOh_pins (f : SecOh → SecOh) : (d.onOh f).pins = d.pins := (rfl)
@[simp] theorem onOh_mem (f : SecOh → SecOh) : (d.onOh f).mem = d.mem := (rfl)
@[simp] theorem onOh_out (f : SecOh → SecOh) : (d.onOh f).out = d.out := (rfl)
@[simp] theorem onOh_free (f : SecOh → SecOh) : (d.onOh f).free = d.free := (rfl)
@[simp] theorem onOh_undoc (f : SecOh → SecOh) : (d.onOh f).undoc = d.undoc := (rfl)

/-! ## onOut -/

@[simp] theorem onOut_regs (f : Out → Out) : (d.onOut f).regs = d.regs := (rfl)
@[simp] theorem onOut_strs (f : Out → Out) : (d.onOut f).strs = d.strs := (rfl)
@[simp] theorem onOut_bankA (f : Out → Out) : (d.onOut f).bankA = d.bankA := (rfl)
@[simp] theorem onOut_bankB (f : Out → Out) : (d.onOut f).bankB = d.bankB := (rfl)
@[simp] theorem onOut_elapsed (f : Out → Out) : (d.onOut f).elapsed = d.elapsed := (rfl)
@[simp] theorem onOut_frames (f : Out → Out) : (d.onOut f).frames = d.frames := (rfl)
@[simp] theorem onOut_spi (f : Out → Out) : (d.onOut f).spi = d.spi := (rfl)
@[simp] theorem onOut_canM (f : Out → Out) : (d.onOut f).canM = d.canM := (rfl)
@[simp] theorem onOut_mgmt (f : Out → Out) : (d.onOut f).mgmt = d.mgmt := (rfl)
@[simp] theorem onOut_can (f : Out → Out) : (d.onOut f).can = d.can := (rfl)
@[simp] theorem onOut_prov (f : Out → Out) : (d.onOut f).prov = d.prov := (rfl)
@[simp] theorem onOut_mode (f : Out → Out) : (d.onOut f).mode = d.mode := (rfl)
@[simp] theorem onOut_clk (f : Out → Out) : (d.onOut f).clk = d.clk := (rfl)
@[simp] theorem onOut_coma (f : Out → Out) : (d.onOut f).coma = d.coma := (rfl)
@[simp] theorem onOut_pair (f : Out → Out) : (d.onOut f).pair = d.pair := (rfl)
@[simp] theorem onOut_cvu (f : Out → Out) : (d.onOut f).cvu = d.cvu := (rfl)
@[simp] theorem onOut_sec (f : Out → Out) : (d.onOut f).sec = d.sec := (rfl)
@[simp] theorem onOut_jtag (f : Out → Out) : (d.onOut f).jtag = d.jtag := (rfl)
@[simp] theorem onOut_align (f : Out → Out) : (d.onOut f).align = d.align := (rfl)
@[simp] theorem onOut_line (f : Out → Out) : (d.onOut f).line = d.line := (rfl)
@[simp] theorem onOut_oh (f : Out → Out) : (d.onOut f).oh = d.oh := (rfl)
@[simp] theorem onOut_pairWait (f : Out → Out) : (d.onOut f).pairWait = d.pairWait := (rfl)
@[simp] theorem onOut_ptrRx (f : Out → Out) : (d.onOut f).ptrRx = d.ptrRx := (rfl)
@[simp] theorem onOut_ptrTx (f : Out → Out) : (d.onOut f).ptrTx = d.ptrTx := (rfl)
@[simp] theorem onOut_poh (f : Out → Out) : (d.onOut f).poh = d.poh := (rfl)
@[simp] theorem onOut_captures (f : Out → Out) : (d.onOut f).captures = d.captures := (rfl)
@[simp] theorem onOut_rxFrames (f : Out → Out) : (d.onOut f).rxFrames = d.rxFrames := (rfl)
@[simp] theorem onOut_pathRx (f : Out → Out) : (d.onOut f).pathRx = d.pathRx := (rfl)
@[simp] theorem onOut_pathTx (f : Out → Out) : (d.onOut f).pathTx = d.pathTx := (rfl)
@[simp] theorem onOut_acts (f : Out → Out) : (d.onOut f).acts = d.acts := (rfl)
@[simp] theorem onOut_reads (f : Out → Out) : (d.onOut f).reads = d.reads := (rfl)
@[simp] theorem onOut_ber (f : Out → Out) : (d.onOut f).ber = d.ber := (rfl)
@[simp] theorem onOut_pm (f : Out → Out) : (d.onOut f).pm = d.pm := (rfl)
@[simp] theorem onOut_cpm (f : Out → Out) : (d.onOut f).cpm = d.cpm := (rfl)
@[simp] theorem onOut_pmTime (f : Out → Out) : (d.onOut f).pmTime = d.pmTime := (rfl)
@[simp] theorem onOut_prot (f : Out → Out) : (d.onOut f).prot = d.prot := (rfl)
@[simp] theorem onOut_latched (f : Out → Out) : (d.onOut f).latched = d.latched := (rfl)
@[simp] theorem onOut_clients (f : Out → Out) : (d.onOut f).clients = d.clients := (rfl)
@[simp] theorem onOut_tfi (f : Out → Out) : (d.onOut f).tfi = d.tfi := (rfl)
@[simp] theorem onOut_tfiCh (f : Out → Out) : (d.onOut f).tfiCh = d.tfiCh := (rfl)
@[simp] theorem onOut_mateLanes (f : Out → Out) : (d.onOut f).mateLanes = d.mateLanes := (rfl)
@[simp] theorem onOut_pins (f : Out → Out) : (d.onOut f).pins = d.pins := (rfl)
@[simp] theorem onOut_mem (f : Out → Out) : (d.onOut f).mem = d.mem := (rfl)
@[simp] theorem onOut_out (f : Out → Out) : (d.onOut f).out = f d.out := (rfl)
@[simp] theorem onOut_free (f : Out → Out) : (d.onOut f).free = d.free := (rfl)
@[simp] theorem onOut_undoc (f : Out → Out) : (d.onOut f).undoc = d.undoc := (rfl)

/-! ## onPmTime -/

@[simp] theorem onPmTime_regs (f : PmTime → PmTime) : (d.onPmTime f).regs = d.regs := (rfl)
@[simp] theorem onPmTime_strs (f : PmTime → PmTime) : (d.onPmTime f).strs = d.strs := (rfl)
@[simp] theorem onPmTime_bankA (f : PmTime → PmTime) : (d.onPmTime f).bankA = d.bankA := (rfl)
@[simp] theorem onPmTime_bankB (f : PmTime → PmTime) : (d.onPmTime f).bankB = d.bankB := (rfl)
@[simp] theorem onPmTime_elapsed (f : PmTime → PmTime) : (d.onPmTime f).elapsed = d.elapsed := (rfl)
@[simp] theorem onPmTime_frames (f : PmTime → PmTime) : (d.onPmTime f).frames = d.frames := (rfl)
@[simp] theorem onPmTime_spi (f : PmTime → PmTime) : (d.onPmTime f).spi = d.spi := (rfl)
@[simp] theorem onPmTime_canM (f : PmTime → PmTime) : (d.onPmTime f).canM = d.canM := (rfl)
@[simp] theorem onPmTime_mgmt (f : PmTime → PmTime) : (d.onPmTime f).mgmt = d.mgmt := (rfl)
@[simp] theorem onPmTime_can (f : PmTime → PmTime) : (d.onPmTime f).can = d.can := (rfl)
@[simp] theorem onPmTime_prov (f : PmTime → PmTime) : (d.onPmTime f).prov = d.prov := (rfl)
@[simp] theorem onPmTime_mode (f : PmTime → PmTime) : (d.onPmTime f).mode = d.mode := (rfl)
@[simp] theorem onPmTime_clk (f : PmTime → PmTime) : (d.onPmTime f).clk = d.clk := (rfl)
@[simp] theorem onPmTime_coma (f : PmTime → PmTime) : (d.onPmTime f).coma = d.coma := (rfl)
@[simp] theorem onPmTime_pair (f : PmTime → PmTime) : (d.onPmTime f).pair = d.pair := (rfl)
@[simp] theorem onPmTime_cvu (f : PmTime → PmTime) : (d.onPmTime f).cvu = d.cvu := (rfl)
@[simp] theorem onPmTime_sec (f : PmTime → PmTime) : (d.onPmTime f).sec = d.sec := (rfl)
@[simp] theorem onPmTime_jtag (f : PmTime → PmTime) : (d.onPmTime f).jtag = d.jtag := (rfl)
@[simp] theorem onPmTime_align (f : PmTime → PmTime) : (d.onPmTime f).align = d.align := (rfl)
@[simp] theorem onPmTime_line (f : PmTime → PmTime) : (d.onPmTime f).line = d.line := (rfl)
@[simp] theorem onPmTime_oh (f : PmTime → PmTime) : (d.onPmTime f).oh = d.oh := (rfl)
@[simp] theorem onPmTime_pairWait (f : PmTime → PmTime) : (d.onPmTime f).pairWait = d.pairWait := (rfl)
@[simp] theorem onPmTime_ptrRx (f : PmTime → PmTime) : (d.onPmTime f).ptrRx = d.ptrRx := (rfl)
@[simp] theorem onPmTime_ptrTx (f : PmTime → PmTime) : (d.onPmTime f).ptrTx = d.ptrTx := (rfl)
@[simp] theorem onPmTime_poh (f : PmTime → PmTime) : (d.onPmTime f).poh = d.poh := (rfl)
@[simp] theorem onPmTime_captures (f : PmTime → PmTime) : (d.onPmTime f).captures = d.captures := (rfl)
@[simp] theorem onPmTime_rxFrames (f : PmTime → PmTime) : (d.onPmTime f).rxFrames = d.rxFrames := (rfl)
@[simp] theorem onPmTime_pathRx (f : PmTime → PmTime) : (d.onPmTime f).pathRx = d.pathRx := (rfl)
@[simp] theorem onPmTime_pathTx (f : PmTime → PmTime) : (d.onPmTime f).pathTx = d.pathTx := (rfl)
@[simp] theorem onPmTime_acts (f : PmTime → PmTime) : (d.onPmTime f).acts = d.acts := (rfl)
@[simp] theorem onPmTime_reads (f : PmTime → PmTime) : (d.onPmTime f).reads = d.reads := (rfl)
@[simp] theorem onPmTime_ber (f : PmTime → PmTime) : (d.onPmTime f).ber = d.ber := (rfl)
@[simp] theorem onPmTime_pm (f : PmTime → PmTime) : (d.onPmTime f).pm = d.pm := (rfl)
@[simp] theorem onPmTime_cpm (f : PmTime → PmTime) : (d.onPmTime f).cpm = d.cpm := (rfl)
@[simp] theorem onPmTime_pmTime (f : PmTime → PmTime) : (d.onPmTime f).pmTime = f d.pmTime := (rfl)
@[simp] theorem onPmTime_prot (f : PmTime → PmTime) : (d.onPmTime f).prot = d.prot := (rfl)
@[simp] theorem onPmTime_latched (f : PmTime → PmTime) : (d.onPmTime f).latched = d.latched := (rfl)
@[simp] theorem onPmTime_clients (f : PmTime → PmTime) : (d.onPmTime f).clients = d.clients := (rfl)
@[simp] theorem onPmTime_tfi (f : PmTime → PmTime) : (d.onPmTime f).tfi = d.tfi := (rfl)
@[simp] theorem onPmTime_tfiCh (f : PmTime → PmTime) : (d.onPmTime f).tfiCh = d.tfiCh := (rfl)
@[simp] theorem onPmTime_mateLanes (f : PmTime → PmTime) : (d.onPmTime f).mateLanes = d.mateLanes := (rfl)
@[simp] theorem onPmTime_pins (f : PmTime → PmTime) : (d.onPmTime f).pins = d.pins := (rfl)
@[simp] theorem onPmTime_mem (f : PmTime → PmTime) : (d.onPmTime f).mem = d.mem := (rfl)
@[simp] theorem onPmTime_out (f : PmTime → PmTime) : (d.onPmTime f).out = d.out := (rfl)
@[simp] theorem onPmTime_free (f : PmTime → PmTime) : (d.onPmTime f).free = d.free := (rfl)
@[simp] theorem onPmTime_undoc (f : PmTime → PmTime) : (d.onPmTime f).undoc = d.undoc := (rfl)

end Sys2Proof.Machine
end

