-- ==== Sys2Proof/Laws/Faults.lean ====
section
/-!
SUPPORT. What an event handed to fault collection leaves alone: its reactions may release a claim, drive FAULT_N and queue a message,
and beside that no value of the dictionary changes.
-/
namespace Sys2Proof.Machine

set_option Elab.async false

/-- The values that an event may change: the counts of fault collection, HOLD, and what a released claim writes. -/
def raiseTouches : List Key :=
  [O.LOST_UNREAD, O.FAULT_N_CTRL, O.EMCY_REPLACED, O.PAIR_STATUS, O.PENDING_STATE, O.SWITCH_OUTCOME, O.OP_STATUS, O.MODE_STATUS,
   O.MODE_ENTRY_TIME, O.MODE_CHANGES, O.SEC_STATUS, O.DEBUG_LEVEL, O.MODE_GUARDED, O.SYNC_FRAMES]

/-- A device has the registers of another. -/
theorem rd_of_regs {a b : Dev} (h : a.regs = b.regs) (k : Key) : a.rd k = b.rd k := by simp [Dev.rd, h]

theorem rd_putFld_ne (d : Dev) {k k' : Key} (lo w x : Nat) (h : k ≠ k') : (d.putFld k lo w x).rd k' = d.rd k' := by
  simp [Dev.putFld, rd_wr, h]

theorem rd_putFlag_ne (d : Dev) {k k' : Key} (i : Nat) (b : Bool) (h : k ≠ k') : (d.putFlag k i b).rd k' = d.rd k' := by
  simp [Dev.putFlag, Dev.putFld, rd_wr, h]

theorem rd_set1_ne (d : Dev) {k k' : Key} (i : Nat) (h : k ≠ k') : (d.set1 k i).rd k' = d.rd k' := by
  simp [Dev.set1, Dev.putFlag, Dev.putFld, rd_wr, h]

theorem rd_count_ne (d : Dev) {k k' : Key} (n : Nat) (h : k ≠ k') : (d.count k n).rd k' = d.rd k' := by
  unfold Dev.count
  split <;> try split
  all_goals simp [Dev.countWrap, Dev.countSat, rd_wr, h]

theorem rd_sendCan (d : Dev) (c : Nat) (l : List Byte) (k : Key) : (d.sendCan c l).rd k = d.rd k := by
  unfold Dev.sendCan
  (repeat' split) <;> simp [rd_of_regs (onCan_regs _ _), rd_of_regs (onOut_regs _ _)]

theorem rd_upset (d : Dev) (n : Nat) (k : Key) : (d.upset n).rd k = d.rd k := by
  unfold Dev.upset; split <;> rfl

theorem rd_setDebug (d : Dev) (n : Nat) (f : Bool) {k : Key} (h1 : O.DEBUG_LEVEL ≠ k) (h2 : O.SEC_STATUS ≠ k) :
    (d.setDebug n f).rd k = d.rd k := by
  unfold Dev.setDebug
  split
  · rfl
  · rw [rd_of_regs (onSec_regs _ _)]
    simp only [Dev.privateStatus, Dev.when]
    rw [rd_putFlag_ne _ _ _ h2]
    split <;> split <;> simp [rd_putFlag_ne, rd_set1_ne, rd_wr_ne, rd_upset, h1, h2]

theorem rd_capDebug (d : Dev) (n : Nat) {k : Key} (h1 : O.DEBUG_LEVEL ≠ k) (h2 : O.SEC_STATUS ≠ k) : (d.capDebug n).rd k = d.rd k := by
  unfold Dev.capDebug
  split
  · exact rd_setDebug d n true h1 h2
  · rfl

theorem rd_pmBreak (d : Dev) (k : Key) : d.pmBreak.rd k = d.rd k := by
  unfold Dev.pmBreak; split <;> rfl

theorem rd_recordMode (d : Dev) (m : Nat) {k : Key} (h : k ∉ raiseTouches) : (d.recordMode m).rd k = d.rd k := by
  simp only [raiseTouches, List.mem_cons, not_or, List.not_mem_nil, not_false_eq_true, and_true, ← ne_eq] at h
  obtain ⟨h1, h2, h3, h4, h5, h6, h7, h8, h9, h10, h11, h12, h13, h14⟩ := h
  unfold Dev.recordMode
  rw [rd_pmBreak, rd_of_regs (onPair_regs _ _), rd_wr_ne _ _ h13.symm, rd_of_regs (onMode_regs _ _), rd_capDebug _ _ h12.symm h11.symm,
    rd_set1_ne _ _ h8.symm, rd_count_ne _ _ h10.symm, rd_wr_ne _ _ h9.symm, rd_putFlag_ne _ _ _ h8.symm,
    rd_putFld_ne _ _ _ _ h8.symm, rd_putFld_ne _ _ _ _ h8.symm]

theorem rd_setPairState (d : Dev) (n : Nat) {k : Key} (h : O.PAIR_STATUS ≠ k) : (d.setPairState n).rd k = d.rd k := by
  unfold Dev.setPairState
  split <;> simp [rd_putFld_ne _ _ _ _ h, rd_of_regs (onPair_regs _ _)]

theorem rd_stopClaim (d : Dev) {k : Key} (h : O.PAIR_STATUS ≠ k) : d.stopClaim.rd k = d.rd k := by
  unfold Dev.stopClaim
  rw [rd_putFlag_ne _ _ _ h, rd_putFlag_ne _ _ _ h, rd_putFlag_ne _ _ _ h]

theorem rd_cancelSched (d : Dev) (n : Nat) {k : Key} (h1 : O.PENDING_STATE ≠ k) (h2 : O.SWITCH_OUTCOME ≠ k) (h3 : O.OP_STATUS ≠ k) :
    (d.cancelSched n).rd k = d.rd k := by
  unfold Dev.cancelSched
  split
  · rfl
  · have h : ∀ c : Bool, ((d.unschedule n).when c (fun x => x.sendMate .commitCancel)).rd k = d.rd k := by
      intro c
      unfold Dev.when Dev.sendMate Dev.unschedule
      split
      · rw [rd_of_regs (onOut_regs _ _), rd_of_regs (onProv_regs _ _), rd_wr_ne _ _ h2, rd_wr_ne _ _ h1]
      · rw [rd_of_regs (onProv_regs _ _), rd_wr_ne _ _ h2, rd_wr_ne _ _ h1]
    dsimp only
    split
    · exact h _
    · split
      · rw [Dev.startLower, rd_of_regs (onClk_regs _ _), rd_putFld_ne _ _ _ _ h3, rd_putFlag_ne _ _ _ h3]; exact h _
      · exact h _

theorem rd_cancelEarly (d : Dev) (n : Nat) {k : Key} (h1 : O.PENDING_STATE ≠ k) (h2 : O.SWITCH_OUTCOME ≠ k) (h3 : O.OP_STATUS ≠ k) :
    (d.cancelEarly n).rd k = d.rd k := by
  unfold Dev.cancelEarly
  split
  · split
    · rfl
    · exact rd_cancelSched d n h1 h2 h3
  · exact rd_upset d n k

theorem rd_releaseClaim (d : Dev) (c : Nat) (own : Bool) {k : Key} (h : k ∉ raiseTouches) : (d.releaseClaim c own).rd k = d.rd k := by
  have h' := h
  simp only [raiseTouches, List.mem_cons, not_or, List.not_mem_nil, not_false_eq_true, and_true, ← ne_eq] at h'
  obtain ⟨h1, h2, h3, h4, h5, h6, h7, h8, h9, h10, h11, h12, h13, h14⟩ := h'
  have e : ∀ x : Dev, ((((x.cancelEarly 5).recordMode 3).setPairState 5).wr O.SYNC_FRAMES 0).rd k = x.rd k := by
    intro x
    rw [rd_wr_ne _ _ h14.symm, rd_setPairState _ _ h4.symm, rd_recordMode _ _ h, rd_cancelEarly _ _ h5.symm h6.symm h7.symm]
  unfold Dev.releaseClaim Dev.when
  split
  · rw [rd_putFlag_ne _ _ _ h4.symm, e, Dev.sendMate, rd_of_regs (onOut_regs _ _), rd_stopClaim _ h4.symm]
  · rw [e, Dev.sendMate, rd_of_regs (onOut_regs _ _), rd_stopClaim _ h4.symm]

theorem rd_sendEmcy (d : Dev) (l : List Byte) (q : Option Nat) {k : Key} (h : O.EMCY_REPLACED ≠ k) : (d.sendEmcy l q).1.rd k = d.rd k := by
  unfold Dev.sendEmcy Dev.when
  split
  · rfl
  · split
    · dsimp only
      rw [rd_of_regs (onCan_regs _ _), rd_of_regs (onComa_regs _ _)]
      split
      · exact rd_count_ne _ _ h
      · rfl
    · dsimp only
      split <;> simp [rd_of_regs (onCan_regs _ _), rd_sendCan]

theorem rd_putWindow (d : Dev) (w : Window) (k : Key) : (d.putWindow w).rd k = d.rd k := rfl

theorem rd_closeWindows (d : Dev) (k : Key) : d.closeWindows.rd k = d.rd k := rfl

theorem rd_reactEnd (d : Dev) (n : Nat) {k : Key} (h : k ∉ raiseTouches) : (d.reactEnd n).rd k = d.rd k := by
  have h' := h
  simp only [raiseTouches, List.mem_cons, not_or, List.not_mem_nil, not_false_eq_true, and_true, ← ne_eq] at h'
  obtain ⟨h1, h2, h3, h4, h5, h6, h7, h8, h9, h10, h11, h12, h13, h14⟩ := h'
  have hold : ∀ c : Bool, (d.when c (fun x => x.putFlag O.FAULT_N_CTRL 0 true)).rd k = d.rd k := by
    intro c; unfold Dev.when; split
    · exact rd_putFlag_ne _ _ _ h2.symm
    · rfl
  unfold Dev.reactEnd
  split
  · rfl
  · split
    · rfl
    · dsimp only
      split
      · rw [rd_putWindow, hold]
      · rw [rd_closeWindows]
        split
        · split <;> simp only [rd_putWindow, rd_sendEmcy _ _ _ h3.symm, hold]
        · simp only [rd_putWindow, rd_sendEmcy _ _ _ h3.symm, hold]

theorem rd_react (d : Dev) (n : Nat) {k : Key} (h : k ∉ raiseTouches) : (d.react n).rd k = d.rd k := by
  unfold Dev.react
  split
  · rfl
  · dsimp only
    rw [rd_reactEnd _ _ h]
    unfold Dev.when
    split
    · rw [rd_releaseClaim _ _ _ h, rd_putWindow]
    · rw [rd_putWindow]

/-- An event changes no value of the dictionary but those its reactions touch. -/
theorem rd_raise (d : Dev) (e : Ev) {k : Key} (h : k ∉ raiseTouches) : (d.raise e).rd k = d.rd k := by
  have h1 : O.LOST_UNREAD ≠ k := by intro e; exact h (by simp [raiseTouches, ← e])
  have hc : ∀ (x : Dev) (c : Bool) (f : Coma → Coma), (x.when c (fun y => y.onComa f)).rd k = x.rd k := by
    intro x c f; unfold Dev.when; split <;> rfl
  have hw : ∀ (x : Dev) (s f : Bool), (x.writeEntry e s f).rd k = x.rd k := by
    intro x s f
    unfold Dev.writeEntry Dev.when
    dsimp only
    split <;> split
    all_goals first
      | rw [rd_count_ne _ _ h1, rd_of_regs (onComa_regs _ _)]
      | rw [rd_of_regs (onComa_regs _ _)]
  unfold Dev.raise
  split
  · rfl
  · dsimp only
    split
    · split
      · rw [rd_react _ _ h, rd_putWindow, hc, rd_of_regs (onComa_regs _ _), hc, hc]
      · rw [hc, rd_of_regs (onComa_regs _ _), hc, hc]
    · split
      · rw [rd_react _ _ h, rd_of_regs (onComa_regs _ _), hc, hw, hc, hc]
      · rw [hc, hw, hc, hc]

/-- The values that an event may change in a unit that is not ACTIVE. -/
def raiseTouchesIdle : List Key := [O.LOST_UNREAD, O.FAULT_N_CTRL, O.EMCY_REPLACED]

theorem rd_reactEnd_idle (d : Dev) (n : Nat) {k : Key} (h : k ∉ raiseTouchesIdle) : (d.reactEnd n).rd k = d.rd k := by
  have h2 : O.FAULT_N_CTRL ≠ k := by intro e; exact h (by simp [raiseTouchesIdle, ← e])
  have h3 : O.EMCY_REPLACED ≠ k := by intro e; exact h (by simp [raiseTouchesIdle, ← e])
  have hold : ∀ c : Bool, (d.when c (fun x => x.putFlag O.FAULT_N_CTRL 0 true)).rd k = d.rd k := by
    intro c; unfold Dev.when; split
    · exact rd_putFlag_ne _ _ _ h2
    · rfl
  unfold Dev.reactEnd
  split
  · rfl
  · split
    · rfl
    · dsimp only
      split
      · rw [rd_putWindow, hold]
      · rw [rd_closeWindows]
        split
        · split <;> simp only [rd_putWindow, rd_sendEmcy _ _ _ h3, hold]
        · simp only [rd_putWindow, rd_sendEmcy _ _ _ h3, hold]

/-- In a unit that is not ACTIVE an event releases no claim: it changes the counts of fault collection and HOLD at most. -/
theorem rd_raise_idle (d : Dev) (e : Ev) {k : Key} (hp : d.pairState ≠ 1) (h : k ∉ raiseTouchesIdle) : (d.raise e).rd k = d.rd k := by
  have h1 : O.LOST_UNREAD ≠ k := by intro e; exact h (by simp [raiseTouchesIdle, ← e])
  have hc : ∀ (x : Dev) (j : Key) (c : Bool) (f : Coma → Coma), (x.when c (fun y => y.onComa f)).rd j = x.rd j := by
    intro x j c f; unfold Dev.when; split <;> rfl
  have hw : ∀ (x : Dev) (j : Key) (s f : Bool), O.LOST_UNREAD ≠ j → (x.writeEntry e s f).rd j = x.rd j := by
    intro x j s f hj
    unfold Dev.writeEntry Dev.when
    dsimp only
    split <;> split
    all_goals first
      | rw [rd_count_ne _ _ hj, rd_of_regs (onComa_regs _ _)]
      | rw [rd_of_regs (onComa_regs _ _)]
  have hr : ∀ (x : Dev) (n : Nat), x.rd O.PAIR_STATUS = d.rd O.PAIR_STATUS → (x.react n).rd k = x.rd k := by
    intro x n hx
    unfold Dev.react
    split
    · rfl
    · dsimp only
      rw [rd_reactEnd_idle _ _ h]
      unfold Dev.when
      have hq : (x.pairState == 1) = false := by
        simp only [Dev.pairState, Dev.fld] at hp ⊢; rw [hx]; simpa using hp
      have hz : ∀ w : Window, ((x.putWindow w).pairState == 1) = false := fun w => hq
      simp only [hz, Bool.and_false, Bool.false_and, Bool.false_eq_true, if_false, rd_putWindow]
  unfold Dev.raise
  split
  · rfl
  · dsimp only
    split
    · split
      · rw [hr, rd_putWindow, hc, rd_of_regs (onComa_regs _ _), hc, hc]
        rw [rd_putWindow, hc, rd_of_regs (onComa_regs _ _), hc, hc]
      · rw [hc, rd_of_regs (onComa_regs _ _), hc, hc]
    · split
      · rw [hr, rd_of_regs (onComa_regs _ _), hc, hw _ _ _ _ h1, hc, hc]
        rw [rd_of_regs (onComa_regs _ _), hc, hw _ _ _ _ (by decide), hc, hc]
      · rw [hc, hw _ _ _ _ h1, hc, hc]

end Sys2Proof.Machine
end

