-- ==== Sys2Proof/Laws/Memory.lean ====
section
/-!
SUPPORT. The canonical form of memory: what each operation over the list of cells does to it, and that reset has it.
-/
namespace Sys2Proof.Machine

set_option Elab.async false

theorem cellsRising_iff (m : List Host.Cell) : cellsRising m = true ↔ m.Pairwise (fun a b => a.1 < b.1) := by
  induction m with
  | nil => simp [cellsRising]
  | cons a r ih =>
    cases r with
    | nil => simp [cellsRising]
    | cons b r =>
      simp only [cellsRising, Bool.and_eq_true, decide_eq_true_eq, ih, List.pairwise_cons]
      constructor
      · rintro ⟨hab, hb, hr⟩
        refine ⟨fun x hx => ?_, hb, hr⟩
        rcases List.mem_cons.mp hx with rfl | hx
        · exact hab
        · exact Nat.lt_trans hab (hb x hx)
      · rintro ⟨ha, hb, hr⟩
        exact ⟨ha b (List.mem_cons_self ..), hb, hr⟩

/-- The canonical form as two plain facts. -/
theorem wf_iff (m : List Host.Cell) :
    Memory.wf m = true ↔ m.Pairwise (fun a b => a.1 < b.1) ∧ ∀ c ∈ m, unlistedByte c.1 ≠ some c.2 := by
  simp [Memory.wf, cellsRising_iff]

/-- A sublist of a canonical memory is canonical. -/
theorem wf_of_sublist {m n : List Host.Cell} (h : n.Sublist m) (hm : Memory.wf m = true) : Memory.wf n = true := by
  rw [wf_iff] at *
  exact ⟨hm.1.sublist h, fun c hc => hm.2 c (h.subset hc)⟩

theorem wf_filter (m : List Host.Cell) (p : Host.Cell → Bool) (hm : Memory.wf m = true) : Memory.wf (m.filter p) = true :=
  wf_of_sublist List.filter_sublist hm

theorem wf_dropCells (m : List Host.Cell) (lo n : Nat) (hm : Memory.wf m = true) : Memory.wf (dropCells m lo n) = true :=
  wf_filter m _ hm

/-- Cells below, a canonical run of cells in a range, and cells above make a canonical memory. -/
theorem wf_splice (rest body : List Host.Cell) (lo hi : Nat) (hr : Memory.wf rest = true) (hb : Memory.wf body = true)
    (hin : ∀ c ∈ body, lo ≤ c.1 ∧ c.1 < hi) (hout : ∀ c ∈ rest, c.1 < lo ∨ hi ≤ c.1) :
    Memory.wf (rest.filter (fun c => c.1 < lo) ++ body ++ rest.filter (fun c => lo ≤ c.1)) = true := by
  rw [wf_iff] at *
  refine ⟨?_, ?_⟩
  · rw [List.pairwise_append, List.pairwise_append]
    refine ⟨⟨hr.1.sublist List.filter_sublist, hb.1, ?_⟩, hr.1.sublist List.filter_sublist, ?_⟩
    · intro a ha b hb'
      have h1 := of_decide_eq_true (List.mem_filter.mp ha).2
      have h2 := hin b hb'
      omega
    · intro a ha b hb'
      have hbm := List.mem_filter.mp hb'
      have h2 := of_decide_eq_true hbm.2
      rcases List.mem_append.mp ha with ha | ha
      · have h1 := of_decide_eq_true (List.mem_filter.mp ha).2
        omega
      · have h1 := hin a ha
        have h3 := hout b hbm.1
        omega
  · intro c hc
    rcases List.mem_append.mp hc with hc | hc
    · rcases List.mem_append.mp hc with hc | hc
      · exact hr.2 c (List.mem_filter.mp hc).1
      · exact hb.2 c hc
    · exact hr.2 c (List.mem_filter.mp hc).1

theorem mem_dropCells {m : List Host.Cell} {lo n : Nat} {c : Host.Cell} :
    c ∈ dropCells m lo n ↔ c ∈ m ∧ (c.1 < lo ∨ lo + n ≤ c.1) := by
  simp [dropCells]

theorem wf_cellPut (m : List Host.Cell) (a : Nat) (v : Byte) (hm : Memory.wf m = true) : Memory.wf (cellPut m a v) = true := by
  unfold cellPut
  have hr := wf_dropCells m a 1 hm
  have hout : ∀ c ∈ dropCells m a 1, c.1 < a ∨ a + 1 ≤ c.1 := fun c hc => (mem_dropCells.mp hc).2
  by_cases hv : (unlistedByte a == some v) = true
  · simpa [hv] using hr
  · simp only [hv]
    have hb : Memory.wf [(a, v)] = true := by
      rw [wf_iff]
      refine ⟨List.pairwise_singleton .., fun c hc => ?_⟩
      rw [List.mem_singleton.mp hc]
      simpa using hv
    have h := wf_splice _ [(a, v)] a (a + 1) hr hb (by simp) hout
    have e : (dropCells m a 1).filter (fun c => decide (a ≤ c.1)) = (dropCells m a 1).filter (fun c => decide (a < c.1)) := by
      apply List.filter_congr
      intro c hc
      have := hout c hc
      simp only [decide_eq_decide]
      omega
    rw [e] at h
    simpa using h

/-- An unlisted byte of one bank reads as the same byte of the other. -/
theorem unlistedByte_bank (x : Nat) (hx : x < 0x200000) (a b : Bool) :
    unlistedByte (bankBase a + x) = unlistedByte (bankBase b + x) := by
  cases a <;> cases b <;> simp only [unlistedByte, headerPlace, bankBase] <;> (repeat' split) <;> first | rfl | (simp_all; done) | (exfalso; simp_all; omega)

theorem wf_copyCells (m : List Host.Cell) (a b : Bool) (hm : Memory.wf m = true) :
    Memory.wf (copyCells m (bankBase a) (bankBase b)) = true := by
  unfold copyCells
  refine wf_splice _ _ _ (bankBase b + 0x200000) (wf_dropCells m _ _ hm) ?_ ?_ (fun c hc => (mem_dropCells.mp hc).2)
  · have hf := wf_filter m (fun c => bankBase a ≤ c.1 && c.1 < bankBase a + 0x200000) hm
    rw [wf_iff] at *
    refine ⟨?_, ?_⟩
    · rw [List.pairwise_map]
      refine hf.1.imp_of_mem ?_
      intro x y hx hy hxy
      have h1 := (List.mem_filter.mp hx).2
      have h2 := (List.mem_filter.mp hy).2
      simp at h1 h2
      show x.1 - bankBase a + bankBase b < y.1 - bankBase a + bankBase b
      omega
    · intro c hc
      obtain ⟨x, hx, rfl⟩ := List.mem_map.mp hc
      have h1 := (List.mem_filter.mp hx).2
      simp at h1
      have h2 := hf.2 x hx
      have e := unlistedByte_bank (x.1 - bankBase a) (by omega) a b
      rw [Nat.add_sub_cancel' h1.1] at e
      rw [e, Nat.add_comm] at h2
      exact h2
  · intro c hc
    obtain ⟨x, hx, rfl⟩ := List.mem_map.mp hc
    have h1 := (List.mem_filter.mp hx).2
    simp at h1
    show bankBase b ≤ x.1 - bankBase a + bankBase b ∧ x.1 - bankBase a + bankBase b < bankBase b + 0x200000
    omega

theorem wf_edit (d : Dev) (f : Bank → Bank) (hm : Memory.wf d.mem = true) : Memory.wf (d.edit f).mem = true :=
  wf_dropCells d.mem _ _ hm

theorem setBank_mem (d : Dev) (b : Bool) (x : Bank) : (d.setBank b x).mem = d.mem := by
  cases b <;> exact Eq.trans rfl rfl

theorem wf_memoryWrite (d : Dev) (a : Nat) (v : Byte) (hm : Memory.wf d.mem = true) : Memory.wf (memoryWrite a v d).mem = true := by
  simp only [memoryWrite]
  generalize scanRegion a 1 = region
  (repeat' split) <;> first
    | (rw [setBank_mem]; exact hm)
    | exact wf_cellPut d.mem a v hm
    | exact hm

theorem wf_reset : Memory.wf State.reset.dev.mem = true := Eq.trans rfl rfl

/-! ## Reading after writing -/

theorem find_filter_ne (m : List Host.Cell) (p : Host.Cell → Bool) (b : Nat) (h : ∀ c : Host.Cell, c.1 = b → p c = true) :
    (m.filter p).find? (fun c => c.1 == b) = m.find? (fun c => c.1 == b) := by
  induction m with
  | nil => rfl
  | cons c r ih =>
    by_cases hb : c.1 = b
    · simp [h c hb, hb]
    · by_cases hp : p c = true <;> simp [hp, hb, ih]

theorem find_filter_none (m : List Host.Cell) (p : Host.Cell → Bool) (b : Nat) (h : ∀ c : Host.Cell, c.1 = b → p c = false) :
    (m.filter p).find? (fun c => c.1 == b) = none := by
  rw [List.find?_eq_none]
  intro c hc hb
  have := h c (by simpa using hb)
  rw [(List.mem_filter.mp hc).2] at this
  exact Bool.noConfusion this

/-- A byte put at an address leaves every other address as it was. -/
theorem cellGet_cellPut_ne (m : List Host.Cell) (a b : Nat) (v : Byte) (h : a ≠ b) : cellGet (cellPut m a v) b = cellGet m b := by
  have hd : (dropCells m a 1).find? (fun c => c.1 == b) = m.find? (fun c => c.1 == b) :=
    find_filter_ne m _ b (fun c hc => by subst hc; simp; omega)
  unfold cellGet cellPut
  split
  · rw [hd]
  · rw [List.find?_append, List.find?_cons_of_neg (by simpa using h)]
    rcases Nat.lt_or_gt_of_ne h with hab | hab
    · rw [find_filter_none _ _ b (fun c hc => by subst hc; simp; omega),
        find_filter_ne _ _ b (fun c hc => by subst hc; simpa using hab), hd]
      simp
    · rw [find_filter_ne _ _ b (fun c hc => by subst hc; simpa using hab),
        find_filter_none _ _ b (fun c hc => by subst hc; simp; omega), hd]
      simp

/-- A byte put at an address is there: as a cell, or as what the address reads as unlisted. -/
theorem cellGet_cellPut_self (m : List Host.Cell) (a : Nat) (v : Byte) :
    (cellGet (cellPut m a v) a).or (unlistedByte a) = some v := by
  unfold cellGet cellPut
  split
  · rename_i h
    rw [show (dropCells m a 1).find? (fun c => c.1 == a) = none from
      find_filter_none m _ a (fun c hc => by subst hc; simp)]
    simpa using h
  · rw [List.find?_append, find_filter_none _ _ a (fun c hc => by subst hc; simp)]
    simp

end Sys2Proof.Machine
end

