-- ==== Sys2Proof/Laws/MemoryFrames.lean ====
section
/-!
SUPPORT. Which operations leave the cells of memory as they are: one lemma per operation, by a name for the cells that simp does not
unfold.
-/
namespace Sys2Proof.Machine

set_option Elab.async false

/-- The cells of memory, by a name of their own. -/
def Dev.memory (d : Dev) := d.mem
@[simp] theorem Dev.mem_eq (d : Dev) : d.mem = d.memory := Eq.trans rfl rfl
@[simp] theorem Dev.memory_mk x_regs x_strs x_bankA x_bankB x_elapsed x_frames x_spi x_canM x_mgmt x_can x_prov x_mode x_clk x_coma x_pair x_cvu x_sec x_jtag x_align x_line x_oh x_pairWait x_ptrRx x_ptrTx x_rxFrames x_pathRx x_pathTx x_acts x_poh x_captures x_ber x_pm x_cpm x_pmTime x_prot x_latched x_clients x_tfi x_tfiCh x_mateLanes x_pins x_mem x_out x_free x_reads x_undoc : Dev.memory (Dev.mk x_regs x_strs x_bankA x_bankB x_elapsed x_frames x_spi x_canM x_mgmt x_can x_prov x_mode x_clk x_coma x_pair x_cvu x_sec x_jtag x_align x_line x_oh x_pairWait x_ptrRx x_ptrTx x_rxFrames x_pathRx x_pathTx x_acts x_poh x_captures x_ber x_pm x_cpm x_pmTime x_prot x_latched x_clients x_tfi x_tfiCh x_mateLanes x_pins x_mem x_out x_free x_reads x_undoc) = x_mem := Eq.trans rfl rfl
@[simp] theorem ite_memory (c : Prop) [Decidable c] (a b : Dev) : (if c then a else b).memory = if c then a.memory else b.memory := by split <;> rfl
@[simp] theorem ite_fst_memory {α : Type} (c : Prop) [Decidable c] (a b : Dev × α) : (if c then a else b).1.memory = if c then a.1.memory else b.1.memory := by split <;> rfl
@[simp] theorem foldl_memory {α : Type} (l : List α) (f : Dev → α → Dev) (h : ∀ x a, (f x a).memory = x.memory) (d : Dev) : (l.foldl f d).memory = d.memory := by
  induction l generalizing d with
  | nil => rfl
  | cons a r ih => simp [List.foldl, ih, h]

@[simp] theorem Dev.wr_memory (d : Dev) (k : Key) (v : Nat)  :
    (Dev.wr d k v).memory = d.memory := by
  simp [Dev.wr]
@[simp] theorem Dev.wrStr_memory (d : Dev) (k : Key) (v : List Byte)  :
    (Dev.wrStr d k v).memory = d.memory := by
  simp [Dev.wrStr]
@[simp] theorem Dev.putFld_memory (d : Dev) (k : Key) (lo w x : Nat) : (Dev.putFld d k lo w x).memory = d.memory := by simp [Dev.putFld]
@[simp] theorem Dev.putFlag_memory (d : Dev) (k : Key) (i : Nat) (b : Bool) : (Dev.putFlag d k i b).memory = d.memory := by simp [Dev.putFlag]
@[simp] theorem Dev.set1_memory (d : Dev) (k : Key) (i : Nat) : (Dev.set1 d k i).memory = d.memory := by simp [Dev.set1]
@[simp] theorem Dev.countSat_memory (d : Dev) (k : Key) (w n : Nat) : (Dev.countSat d k w n).memory = d.memory := by simp [Dev.countSat]
@[simp] theorem Dev.countWrap_memory (d : Dev) (k : Key) (w n : Nat) : (Dev.countWrap d k w n).memory = d.memory := by simp [Dev.countWrap]
@[simp] theorem Dev.count_memory (d : Dev) (k : Key) (n : Nat) : (Dev.count d k n).memory = d.memory := by
  unfold Dev.count
  split <;> simp
@[simp] theorem Dev.when_memory (d : Dev) (c : Bool) (f : Dev → Dev) (hf : ∀ x : Dev, (f x).memory = x.memory) : (Dev.when d c f).memory = d.memory := by
  simp [Dev.when, hf]
@[simp] theorem Dev.fresh_memory (d : Dev) : (Dev.fresh d).memory = d.memory := by simp [Dev.fresh]
@[simp] theorem Dev.onSpi_memory (d : Dev) (f : MasterSt → MasterSt) : (Dev.onSpi d f).memory = d.memory := by simp [Dev.onSpi]
@[simp] theorem Dev.onCanM_memory (d : Dev) (f : MasterSt → MasterSt) : (Dev.onCanM d f).memory = d.memory := by simp [Dev.onCanM]
@[simp] theorem Dev.onMgmt_memory (d : Dev) (f : MasterSt → MasterSt) : (Dev.onMgmt d f).memory = d.memory := by simp [Dev.onMgmt]
@[simp] theorem Dev.onCan_memory (d : Dev) (f : Can → Can) : (Dev.onCan d f).memory = d.memory := by simp [Dev.onCan]
@[simp] theorem Dev.onProv_memory (d : Dev) (f : Prov → Prov) : (Dev.onProv d f).memory = d.memory := by simp [Dev.onProv]
@[simp] theorem Dev.onMode_memory (d : Dev) (f : ModeSt → ModeSt) : (Dev.onMode d f).memory = d.memory := by simp [Dev.onMode]
@[simp] theorem Dev.onClk_memory (d : Dev) (f : Clk → Clk) : (Dev.onClk d f).memory = d.memory := by simp [Dev.onClk]
@[simp] theorem Dev.onComa_memory (d : Dev) (f : Coma → Coma) : (Dev.onComa d f).memory = d.memory := by simp [Dev.onComa]
@[simp] theorem Dev.onPair_memory (d : Dev) (f : PairSt → PairSt) : (Dev.onPair d f).memory = d.memory := by simp [Dev.onPair]
@[simp] theorem Dev.onCvu_memory (d : Dev) (f : Cvu → Cvu) : (Dev.onCvu d f).memory = d.memory := by simp [Dev.onCvu]
@[simp] theorem Dev.onSec_memory (d : Dev) (f : Sec → Sec) : (Dev.onSec d f).memory = d.memory := by simp [Dev.onSec]
@[simp] theorem Dev.onJtag_memory (d : Dev) (f : Jtag → Jtag) : (Dev.onJtag d f).memory = d.memory := by simp [Dev.onJtag]
@[simp] theorem Dev.onAlign_memory (d : Dev) (f : AlignSt → AlignSt) : (Dev.onAlign d f).memory = d.memory := by simp [Dev.onAlign]
@[simp] theorem Dev.onLine_memory (d : Dev) (f : LineSt → LineSt) : (Dev.onLine d f).memory = d.memory := by simp [Dev.onLine]
@[simp] theorem Dev.onOh_memory (d : Dev) (f : SecOh → SecOh) : (Dev.onOh d f).memory = d.memory := by simp [Dev.onOh]
@[simp] theorem Dev.onOut_memory (d : Dev) (f : Out → Out) : (Dev.onOut d f).memory = d.memory := by simp [Dev.onOut]
@[simp] theorem Dev.onMaster_memory (d : Dev) (m : Master) (f : MasterSt → MasterSt) : (Dev.onMaster d m f).memory = d.memory := by
  unfold Dev.onMaster
  split <;> simp
@[simp] theorem Dev.onSecOf_memory (d : Dev) (m : Master) (f : SecMaster → SecMaster) : (Dev.onSecOf d m f).memory = d.memory := by simp [Dev.onSecOf]
@[simp] theorem Dev.onPending_memory (d : Dev) (f : Bank → Bank) : (Dev.onPending d f).memory = d.memory := by simp [Dev.onPending]
@[simp] theorem Dev.onActive_memory (d : Dev) (f : Bank → Bank) : (Dev.onActive d f).memory = d.memory := by simp [Dev.onActive]
@[simp] theorem Dev.advance_memory (d : Dev) (ns : Nat)  :
    (Dev.advance d ns).memory = d.memory := by
  simp [Dev.advance]
@[simp] theorem Dev.berAdd_memory (d : Dev) (a n : Nat) : (Dev.berAdd d a n).memory = d.memory := by simp [Dev.berAdd]
@[simp] theorem Dev.onPmTime_memory (d : Dev) (f : PmTime → PmTime) : (Dev.onPmTime d f).memory = d.memory := by simp [Dev.onPmTime]
@[simp] theorem Dev.pmBreak_memory (d : Dev) : (Dev.pmBreak d).memory = d.memory := by simp [Dev.pmBreak]
@[simp] theorem Dev.onPmAcc_memory (d : Dev) (a : Nat) (f : PmSec → PmSec) : (Dev.onPmAcc d a f).memory = d.memory := by simp [Dev.onPmAcc]
@[simp] theorem Dev.onCpmAcc_memory (d : Dev) (c : Nat) (f : CpmSec → CpmSec) : (Dev.onCpmAcc d c f).memory = d.memory := by simp [Dev.onCpmAcc]
@[simp] theorem Dev.sendCan_memory (d : Dev) (cob : Nat) (data : List Byte) : (Dev.sendCan d cob data).memory = d.memory := by simp [Dev.sendCan]
@[simp] theorem Dev.queueTpdo_memory (d : Dev) (n : Nat) : (Dev.queueTpdo d n).memory = d.memory := by simp [Dev.queueTpdo]
@[simp] theorem Dev.sendEmcy_memory (d : Dev) (data : List Byte) (seq : Option Nat) : (Dev.sendEmcy d data seq).1.memory = d.memory := by simp [Dev.sendEmcy]
@[simp] theorem Dev.upset_memory (d : Dev) (outcome : Nat) : (Dev.upset d outcome).memory = d.memory := by simp [Dev.upset]
@[simp] theorem Dev.switchPoint_memory (d : Dev) : (Dev.switchPoint d).memory = d.memory := by
  unfold Dev.switchPoint
  split <;> simp
@[simp] theorem Dev.privateStatus_memory (d : Dev) : (Dev.privateStatus d).memory = d.memory := by simp [Dev.privateStatus]
@[simp] theorem Dev.setDebug_memory (d : Dev) (level : Nat) (forced : Bool) : (Dev.setDebug d level forced).memory = d.memory := by simp [Dev.setDebug]
@[simp] theorem Dev.capDebug_memory (d : Dev) (cap : Nat) : (Dev.capDebug d cap).memory = d.memory := by simp [Dev.capDebug]
@[simp] theorem Dev.recordMode_memory (d : Dev) (m : Nat) : (Dev.recordMode d m).memory = d.memory := by simp [Dev.recordMode]
@[simp] theorem Dev.startLower_memory (d : Dev) (target : Nat) : (Dev.startLower d target).memory = d.memory := by simp [Dev.startLower]
@[simp] theorem Dev.unschedule_memory (d : Dev) (outcome : Nat) : (Dev.unschedule d outcome).memory = d.memory := by simp [Dev.unschedule]
@[simp] theorem Dev.sendMate_memory (d : Dev) (m : MateMsg) : (Dev.sendMate d m).memory = d.memory := by simp [Dev.sendMate]
@[simp] theorem Dev.cancelSched_memory (d : Dev) (outcome : Nat) : (Dev.cancelSched d outcome).memory = d.memory := by
  unfold Dev.cancelSched
  split <;> simp
@[simp] theorem Dev.cancelRaise_memory (d : Dev) : (Dev.cancelRaise d).memory = d.memory := by
  unfold Dev.cancelRaise
  split <;> simp
@[simp] theorem Dev.cancelEarly_memory (d : Dev) (outcome : Nat) : (Dev.cancelEarly d outcome).memory = d.memory := by
  unfold Dev.cancelEarly
  split <;> simp
@[simp] theorem Dev.channelUsed_memory (d : Dev) (n : Nat) : (Dev.channelUsed d n).memory = d.memory := by simp [Dev.channelUsed]
@[simp] theorem Dev.scanHold_memory (d : Dev) : (Dev.scanHold d).memory = d.memory := by simp [Dev.scanHold]
@[simp] theorem Dev.mateVerify_memory (d : Dev) (beats : Nat) : (Dev.mateVerify d beats).memory = d.memory := by simp [Dev.mateVerify]
@[simp] theorem Dev.stopClaim_memory (d : Dev) : (Dev.stopClaim d).memory = d.memory := by simp [Dev.stopClaim]
@[simp] theorem Dev.sendRequest_memory (d : Dev) (cause : Nat) : (Dev.sendRequest d cause).memory = d.memory := by simp [Dev.sendRequest]
@[simp] theorem Dev.setPairState_memory (d : Dev) (s : Nat) : (Dev.setPairState d s).memory = d.memory := by simp [Dev.setPairState]
@[simp] theorem Dev.verifyMark_memory (d : Dev) (o : ObjId) (i : Nat) (seen : Bool) : (Dev.verifyMark d o i seen).memory = d.memory := by
  simp [Dev.verifyMark]
@[simp] theorem Dev.releaseClaim_memory (d : Dev) (cause : Nat) (own : Bool) : (Dev.releaseClaim d cause own).memory = d.memory := by simp [Dev.releaseClaim]
@[simp] theorem Dev.putWindow_memory (d : Dev) (w : Window) : (Dev.putWindow d w).memory = d.memory := by simp [Dev.putWindow]
@[simp] theorem Dev.closeWindows_memory (d : Dev) : (Dev.closeWindows d).memory = d.memory := by simp [Dev.closeWindows]
@[simp] theorem Dev.reactEnd_memory (d : Dev) (seq : Nat) : (Dev.reactEnd d seq).memory = d.memory := by
  unfold Dev.reactEnd
  dsimp only
  (repeat' (first | (simp; done) | split))
@[simp] theorem Dev.react_memory (d : Dev) (seq : Nat) : (Dev.react d seq).memory = d.memory := by
  unfold Dev.react
  split <;> simp
@[simp] theorem Dev.writeEntry_memory (d : Dev) (e : Ev) (severe forced : Bool) : (Dev.writeEntry d e severe forced).memory = d.memory := by simp [Dev.writeEntry]
@[simp] theorem Dev.raise_memory (d : Dev) (e : Ev) : (Dev.raise d e).memory = d.memory := by
  unfold Dev.raise
  dsimp only
  (repeat' (first | (simp; done) | split))
@[simp] theorem Dev.clockEvent_memory (d : Dev) (code : Nat) (causes : Nat) (clear : Bool) : (Dev.clockEvent d code causes clear).memory = d.memory := by
  simp [Dev.clockEvent]
@[simp] theorem Dev.pairEvent_memory (d : Dev) (detail : Nat) (forced : Bool) : (Dev.pairEvent d detail forced).memory = d.memory := by simp [Dev.pairEvent]
@[simp] theorem Dev.endPulse_memory (d : Dev) (injected : Bool) : (Dev.endPulse d injected).memory = d.memory := by
  unfold Dev.endPulse
  split <;> simp
@[simp] theorem Dev.emcyInhibitEnd_memory (d : Dev) : (Dev.emcyInhibitEnd d).memory = d.memory := by
  unfold Dev.emcyInhibitEnd
  dsimp only
  (repeat' (first | (simp; done) | split))
@[simp] theorem Dev.acknowledge_memory (d : Dev) (s : Nat) : (Dev.acknowledge d s).memory = d.memory := by simp [Dev.acknowledge]
@[simp] theorem Dev.closeCounts_memory (d : Dev) (k : Nat) : (Dev.closeCounts d k).memory = d.memory := by simp [Dev.closeCounts]
@[simp] theorem Dev.markRead_memory (d : Dev) (seqs : List Nat) : (Dev.markRead d seqs).memory = d.memory := by simp [Dev.markRead]
@[simp] theorem Dev.guardDiscard_memory (d : Dev) (m : Master) (idx sub cause : Nat) : (Dev.guardDiscard d m idx sub cause).memory = d.memory := by simp [Dev.guardDiscard]
@[simp] theorem Dev.dropArm_memory (d : Dev) (m : Master) (cause : Nat) : (Dev.dropArm d m cause).memory = d.memory := by
  unfold Dev.dropArm
  split <;> simp
@[simp] theorem Dev.plainWrite_memory (d : Dev) (m : Master) (f : Dev → Dev × Nat) (hf : ∀ x : Dev, (f x).1.memory = x.memory) : (Dev.plainWrite d m f).1.memory = d.memory := by
  simp [Dev.plainWrite, hf]
@[simp] theorem Dev.queuePeak_memory (d : Dev) (m : Master) : (Dev.queuePeak d m).memory = d.memory := by simp [Dev.queuePeak]
@[simp] theorem Dev.overload_memory (d : Dev) (m : Master) : (Dev.overload d m).memory = d.memory := by simp [Dev.overload]
@[simp] theorem Dev.queueReq_memory (d : Dev) (m : Master) (r : Req) : (Dev.queueReq d m r).1.memory = d.memory := by simp [Dev.queueReq]
@[simp] theorem Dev.armGuard_memory (d : Dev) (m : Master) (idx n v : Nat) (lenOk inRange : Bool) : (Dev.armGuard d m idx n v lenOk inRange).1.memory = d.memory := by
  simp [Dev.armGuard]
@[simp] theorem Dev.completeGuard_memory (d : Dev) (m : Master) (idx n w c : Nat) (lenOk : Bool) (apply : Nat → Dev → Dev × Nat) (happly : ∀ (v : Nat) (x : Dev), (apply v x).1.memory = x.memory) : (Dev.completeGuard d m idx n w c lenOk apply).1.memory = d.memory := by
  simp [Dev.completeGuard, happly]
@[simp] theorem Dev.completing_memory (d : Dev) (m : Master) (idx n w v : Nat) (apply : Nat → Dev → Dev × Nat) (happly : ∀ (v : Nat) (x : Dev), (apply v x).1.memory = x.memory) : (Dev.completing d m idx n w v apply).1.memory = d.memory := by
  simp [Dev.completing, happly]
@[simp] theorem trigger_memory (v : Nat) (d : Dev) (f : Dev → Dev × Nat) (hf : ∀ x : Dev, (f x).1.memory = x.memory) : (trigger v d f).1.memory = d.memory := by
  simp [trigger, hf]
@[simp] theorem Dev.ungated_memory (d : Dev) (gate : Nat) (f : Dev → Dev × Nat) (hf : ∀ x : Dev, (f x).1.memory = x.memory) : (Dev.ungated d gate f).1.memory = d.memory := by
  simp [Dev.ungated, hf]
@[simp] theorem Dev.memoryError_memory (d : Dev) (region offset : Nat) : (Dev.memoryError d region offset).memory = d.memory := by simp [Dev.memoryError]
@[simp] theorem Dev.memoryErrorSomewhere_memory (d : Dev) (region : Nat) : (Dev.memoryErrorSomewhere d region).memory = d.memory := by simp [Dev.memoryErrorSomewhere]
@[simp] theorem Dev.eccCorrected_memory (d : Dev) (region : Nat) : (Dev.eccCorrected d region).memory = d.memory := by simp [Dev.eccCorrected]
@[simp] theorem Dev.eccHit_memory (d : Dev) (region : Nat) (e : Ecc) : (Dev.eccHit d region e).memory = d.memory := by
  cases e <;> simp [Dev.eccHit]
@[simp] theorem Dev.putSyz_memory (d : Dev) (k : Nat) (z : Syzygy) : (Dev.putSyz d k z).memory = d.memory := by simp [Dev.putSyz]
@[simp] theorem Dev.alignEvent_memory (d : Dev) (p code : Nat) : (Dev.alignEvent d p code).memory = d.memory := by simp [Dev.alignEvent]
@[simp] theorem Dev.freshSearch_memory (d : Dev) (k : Nat) : (Dev.freshSearch d k).memory = d.memory := by simp [Dev.freshSearch]
@[simp] theorem Dev.cutFrame_memory (d : Dev) (k : Nat) : (Dev.cutFrame d k).memory = d.memory := by simp [Dev.cutFrame]
@[simp] theorem Dev.resumeSearch_memory (d : Dev) (k : Nat) : (Dev.resumeSearch d k).memory = d.memory := by simp [Dev.resumeSearch]
@[simp] theorem Dev.holdClient_memory (d : Dev) (p : Nat) : (Dev.holdClient d p).memory = d.memory := by simp [Dev.holdClient]
@[simp] theorem Dev.alignStatusStart_memory (d : Dev) (p : Nat) (never : Bool) : (Dev.alignStatusStart d p never).memory = d.memory := by simp [Dev.alignStatusStart]
@[simp] theorem Dev.alignEnable_memory (d : Dev) (p : Nat) : (Dev.alignEnable d p).memory = d.memory := by simp [Dev.alignEnable]
@[simp] theorem Dev.alignResume_memory (d : Dev) (p : Nat) : (Dev.alignResume d p).memory = d.memory := by simp [Dev.alignResume]
@[simp] theorem Dev.alignStop_memory (d : Dev) (p : Nat) : (Dev.alignStop d p).memory = d.memory := by simp [Dev.alignStop]
@[simp] theorem Dev.alignStart_memory (d : Dev) : (Dev.alignStart d).memory = d.memory := by simp [Dev.alignStart]
@[simp] theorem Dev.breakRuns_memory (d : Dev) (k : Nat) : (Dev.breakRuns d k).memory = d.memory := by simp [Dev.breakRuns]
@[simp] theorem Dev.declareOof_memory (d : Dev) (k : Nat) : (Dev.declareOof d k).memory = d.memory := by
  unfold Dev.declareOof
  dsimp only
  (repeat' (first | (simp; done) | split))
@[simp] theorem Dev.oofCheck_memory (d : Dev) (k : Nat) : (Dev.oofCheck d k).memory = d.memory := by simp [Dev.oofCheck]
@[simp] theorem Dev.losForcesOof_memory (d : Dev) (l : Nat) : (Dev.losForcesOof d l).memory = d.memory := by simp [Dev.losForcesOof]
@[simp] theorem patternSeen_memory (d : Dev) (k phase : Nat) (correct : Bool) : (patternSeen d k phase correct).memory = d.memory := by
  unfold patternSeen
  dsimp only
  (repeat' (first | (simp; done) | split))
@[simp] theorem Dev.bitsPassed_memory (d : Dev) (k n : Nat) : (Dev.bitsPassed d k n).memory = d.memory := by simp [Dev.bitsPassed]
@[simp] theorem framingSeen_memory (d : Dev) (k n : Nat) (w : BitVec 48) : (framingSeen d k n w).memory = d.memory := by simp [framingSeen]
@[simp] theorem Dev.changeOfAlignment_memory (d : Dev) (p lane shift : Nat) : (Dev.changeOfAlignment d p lane shift).memory = d.memory := by simp [Dev.changeOfAlignment]
@[simp] theorem laneInFrame_memory (d : Dev) (k : Nat) (z : Syzygy) (slot phase : Nat) : (laneInFrame d k z slot phase).memory = d.memory := by simp [laneInFrame]
@[simp] theorem windowEnd_memory (d0 : Dev) (k : Nat) : (windowEnd d0 k).memory = d0.memory := by
  unfold windowEnd
  dsimp only
  (repeat' (first | (simp; done) | split))
@[simp] theorem lofDeclared_memory (d : Dev) (k : Nat) : (lofDeclared d k).memory = d.memory := by simp [lofDeclared]
@[simp] theorem lofCleared_memory (d : Dev) (k : Nat) : (lofCleared d k).memory = d.memory := by simp [lofCleared]
@[simp] theorem lomDeclared_memory (d : Dev) (p : Nat) : (lomDeclared d p).memory = d.memory := by simp [lomDeclared]
@[simp] theorem lomCleared_memory (d : Dev) (p : Nat) : (lomCleared d p).memory = d.memory := by simp [lomCleared]
@[simp] theorem Dev.thresholds_memory (d : Dev) (p : Nat) : (Dev.thresholds d p).memory = d.memory := by simp [Dev.thresholds]
@[simp] theorem Dev.alignTick_memory (d : Dev) : (Dev.alignTick d).memory = d.memory := by simp [Dev.alignTick]
@[simp] theorem Dev.alignKept_memory (d : Dev) (p : Nat) : (Dev.alignKept d p).memory = d.memory := by simp [Dev.alignKept]
@[simp] theorem inMultiframe_memory (d : Dev) (p : Nat) : (inMultiframe d p).memory = d.memory := by simp [inMultiframe]
@[simp] theorem oomDeclared_memory (d : Dev) (p : Nat) : (oomDeclared d p).memory = d.memory := by simp [oomDeclared]
@[simp] theorem Dev.mfasSeen_memory (d : Dev) (p mfas : Nat) (marked : Bool) : (Dev.mfasSeen d p mfas marked).memory = d.memory := by
  simp [Dev.mfasSeen]
@[simp] theorem Dev.refuseMode_memory (d : Dev) (cause : Nat) : (Dev.refuseMode d cause).memory = d.memory := by simp [Dev.refuseMode]
@[simp] theorem Dev.startTransition_memory (d : Dev) (target : Nat) : (Dev.startTransition d target).memory = d.memory := by simp [Dev.startTransition]
@[simp] theorem Dev.requestMode_memory (d : Dev) (target : Nat) (guarded : Bool) : (Dev.requestMode d target guarded).1.memory = d.memory := by simp [Dev.requestMode]
@[simp] theorem Dev.wake_memory (d : Dev) : (Dev.wake d).memory = d.memory := by simp [Dev.wake]
@[simp] theorem Dev.spoilGate_memory (d : Dev) (l : Nat) : (Dev.spoilGate d l).memory = d.memory := by simp [Dev.spoilGate]
@[simp] theorem cdrLocked_memory (d : Dev) (l : Nat) : (cdrLocked d l).memory = d.memory := by simp [cdrLocked]
@[simp] theorem cdrUnlocked_memory (d : Dev) (l : Nat) : (cdrUnlocked d l).memory = d.memory := by simp [cdrUnlocked]
@[simp] theorem Dev.losSeen_memory (d : Dev) (l : Nat) (amplitude transitions : Bool) : (Dev.losSeen d l amplitude transitions).memory = d.memory := by
  simp [Dev.losSeen]
@[simp] theorem losDeclared_memory (d : Dev) (l : Nat) (amplitude transitions : Bool) : (losDeclared d l amplitude transitions).memory = d.memory := by
  simp [losDeclared]
@[simp] theorem losCleared_memory (d : Dev) (l : Nat) (amplitude transitions : Bool) : (losCleared d l amplitude transitions).memory = d.memory := by
  simp [losCleared]
@[simp] theorem Dev.quadEvent_memory (d : Dev) (q code : Nat) : (Dev.quadEvent d q code).memory = d.memory := by simp [Dev.quadEvent]
@[simp] theorem quadLocked_memory (d : Dev) (q : Nat) : (quadLocked d q).memory = d.memory := by simp [quadLocked]
@[simp] theorem quadLost_memory (d : Dev) (q : Nat) : (quadLost d q).memory = d.memory := by simp [quadLost]
@[simp] theorem Dev.quadSettle_memory (d : Dev) : (Dev.quadSettle d).memory = d.memory := by simp [Dev.quadSettle]
@[simp] theorem freqGateEnd_memory (d : Dev) (l count : Nat) (valid : Bool) : (freqGateEnd d l count valid).memory = d.memory := by simp [freqGateEnd]
@[simp] theorem rxAdapted_memory (d : Dev) (l : RxLane) (v : Nat) : (rxAdapted d l v).memory = d.memory := by simp [rxAdapted]
@[simp] theorem rxCollide_memory (l : RxLane) (v w : Nat) (d : Dev) : (rxCollide l v w d).1.memory = d.memory := by simp [rxCollide]
@[simp] theorem Dev.quadWrite_memory (d : Dev) (m : Master) (l : Nat) (f : Dev → Dev × Nat) (hf : ∀ x : Dev, (f x).1.memory = x.memory) : (Dev.quadWrite d m l f).1.memory = d.memory := by
  simp [Dev.quadWrite, hf]
@[simp] theorem squelchWrite_memory (p v : Nat) (d : Dev) : (squelchWrite p v d).1.memory = d.memory := by simp [squelchWrite]
@[simp] theorem prbsWrite_memory (l v : Nat) (d : Dev) : (prbsWrite l v d).1.memory = d.memory := by simp [prbsWrite]
@[simp] theorem Dev.prbsCheck_memory (d : Dev) (l : Nat) (bytes : List Byte) : (Dev.prbsCheck d l bytes).memory = d.memory := by simp [Dev.prbsCheck]
@[simp] theorem Dev.prbsSend_memory (d : Dev) (l n : Nat) : (Dev.prbsSend d l n).1.memory = d.memory := by simp [Dev.prbsSend]
@[simp] theorem lolDeclared_memory (d : Dev) (q : Nat) : (lolDeclared d q).memory = d.memory := by simp [lolDeclared]
@[simp] theorem lolCleared_memory (d : Dev) (q : Nat) : (lolCleared d q).memory = d.memory := by simp [lolCleared]
@[simp] theorem Dev.laneMarked_memory (d : Dev) (l skew : Nat) (bytes : List Byte) : (Dev.laneMarked d l skew bytes).memory = d.memory := by
  unfold Dev.laneMarked
  dsimp only
  (repeat' (first | (simp; done) | split))
@[simp] theorem Dev.lolFrame_memory (d : Dev) (q : Nat) : (Dev.lolFrame d q).memory = d.memory := by simp [Dev.lolFrame]
@[simp] theorem Dev.otlReceive_memory (d : Dev) (q : Nat) (raw : List Byte) (skews : List (BitVec 12)) : (Dev.otlReceive d q raw skews).1.memory = d.memory := by
  simp [Dev.otlReceive]
@[simp] theorem Dev.onSecRx_memory (d : Dev) (p : Nat) (f : SecRx → SecRx) : (Dev.onSecRx d p f).memory = d.memory := by simp [Dev.onSecRx]
@[simp] theorem Dev.onSecTx_memory (d : Dev) (p : Nat) (f : SecTx → SecTx) : (Dev.onSecTx d p f).memory = d.memory := by simp [Dev.onSecTx]
@[simp] theorem Dev.putDccRx_memory (d : Dev) (q : Nat) (l : List Byte) : (Dev.putDccRx d q l).memory = d.memory := by simp [Dev.putDccRx]
@[simp] theorem Dev.putDccTx_memory (d : Dev) (q : Nat) (l : List Byte) : (Dev.putDccTx d q l).memory = d.memory := by simp [Dev.putDccTx]
@[simp] theorem Dev.dccCapture_memory (d : Dev) (p : Nat) (multiplex : Bool) (l : List Byte) : (Dev.dccCapture d p multiplex l).memory = d.memory := by
  simp [Dev.dccCapture]
@[simp] theorem Dev.dccDrop_memory (d : Dev) (q n : Nat) : (Dev.dccDrop d q n).memory = d.memory := by simp [Dev.dccDrop]
@[simp] theorem Dev.dccConsume_memory (d : Dev) (q upTo : Nat) : (Dev.dccConsume d q upTo).memory = d.memory := by simp [Dev.dccConsume]
@[simp] theorem Dev.dccSend_memory (d : Dev) (p : Nat) (multiplex : Bool) (n : Nat) : (Dev.dccSend d p multiplex n).1.memory = d.memory := by simp [Dev.dccSend]
@[simp] theorem Dev.onRxFrame_memory (d : Dev) (p : Nat) (f : RxFrame → RxFrame) : (Dev.onRxFrame d p f).memory = d.memory := by simp [Dev.onRxFrame]
@[simp] theorem Dev.takeFrame_memory (d : Dev) (p n : Nat) (g : List Byte) : (Dev.takeFrame d p n g).memory = d.memory := by simp [Dev.takeFrame]
@[simp] theorem sdhReceive_memory (d : Dev) (p : Nat) (raw : List Byte) : (sdhReceive d p raw).memory = d.memory := by simp [sdhReceive]
@[simp] theorem Dev.comparePt_memory (d : Dev) (p : Nat) : (Dev.comparePt d p).memory = d.memory := by simp [Dev.comparePt]
@[simp] theorem Dev.payloadType_memory (d : Dev) (p v : Nat) : (Dev.payloadType d p v).memory = d.memory := by simp [Dev.payloadType]
@[simp] theorem Dev.opuJoin_memory (d : Dev) (p : Nat) (l : List Byte) : (Dev.opuJoin d p l).memory = d.memory := by simp [Dev.opuJoin]
theorem Dev.clientFrame_memory {d x : Dev} {p : Nat} {f : List Byte} (h : Dev.clientFrame d p = some (f, x)) : x.memory = d.memory := by
  simp only [Dev.clientFrame] at h
  split at h
  · cases h
  · cases h; simp
@[simp] theorem otuReceive_memory (d0 : Dev) (p : Nat) (raw : List Byte) : (otuReceive d0 p raw).memory = d0.memory := by simp [otuReceive]
@[simp] theorem Dev.cutPassed_memory (d : Dev) (k : Nat) : (Dev.cutPassed d k).memory = d.memory := by simp [Dev.cutPassed]
@[simp] theorem lineReceive_memory (d : Dev) (p : Nat) (signal : RxSignal) : (lineReceive d p signal).memory = d.memory := by
  unfold lineReceive
  dsimp only
  (repeat' split) <;> first
    | (simp; done)
    | (rename_i h; simp [Dev.clientFrame_memory h])
@[simp] theorem Dev.compareJ0_memory (d : Dev) (p : Nat) : (Dev.compareJ0 d p).memory = d.memory := by simp [Dev.compareJ0]
@[simp] theorem Dev.compareTti_memory (d : Dev) (p : Nat) : (Dev.compareTti d p).memory = d.memory := by simp [Dev.compareTti]
@[simp] theorem Dev.acceptStr_memory (d : Dev) (k status : Key) (ev : Nat) (v : Option (List Byte)) : (Dev.acceptStr d k status ev v).memory = d.memory := by
  unfold Dev.acceptStr
  split <;> simp
@[simp] theorem Dev.acceptVal_memory (d : Dev) (k status : Key) (ev : Nat) (v : Nat) : (Dev.acceptVal d k status ev v).memory = d.memory := by simp [Dev.acceptVal]
@[simp] theorem Dev.berPeriod_memory (d : Dev) (a errs : Nat) : (Dev.berPeriod d a errs).memory = d.memory := by simp [Dev.berPeriod]
@[simp] theorem sdhVisit_memory (p : Nat) (d : Dev) (r : SdhRec) : (sdhVisit p d r).memory = d.memory := by simp [sdhVisit]
@[simp] theorem otnVisit_memory (p : Nat) (d : Dev) (r : OtnRec) : (otnVisit p d r).memory = d.memory := by simp [otnVisit]
@[simp] theorem recVisit_memory (p : Nat) (d : Dev) (z0 : RxRec) : (recVisit p d z0).memory = d.memory := by
  unfold recVisit
  split <;> simp
@[simp] theorem Dev.sectionWork_memory (d : Dev) (p : Nat) : (Dev.sectionWork d p).memory = d.memory := by
  simp only [Dev.sectionWork]
  (repeat' (first | (simp; done) | split))
@[simp] theorem Dev.sectionStart_memory (d : Dev) (p : Nat) : (Dev.sectionStart d p).memory = d.memory := by simp [Dev.sectionStart]
@[simp] theorem Dev.signBytes_memory (d : Dev) (src : Nat) (l : List Byte) : (Dev.signBytes d src l).memory = d.memory := by simp [Dev.signBytes]
@[simp] theorem Dev.latchSignatures_memory (d : Dev) (frame : Nat) : (Dev.latchSignatures d frame).memory = d.memory := by simp [Dev.latchSignatures]
@[simp] theorem Dev.writeTogether_memory (d : Dev) (w : PairedWrite) (check : Nat) (apply : Dev → Dev) (happly : ∀ x : Dev, (apply x).memory = x.memory) : (Dev.writeTogether d w check apply).1.memory = d.memory := by
  simp [Dev.writeTogether, happly]
@[simp] theorem rsvdCheck_memory (r : Dev × Nat) (old v mask : Nat) : (rsvdCheck old v mask r).1.memory = r.1.memory := by
  unfold rsvdCheck
  split <;> simp
@[simp] theorem soTestApply_memory (p v : Nat) (d : Dev) : (soTestApply p v d).memory = d.memory := by simp [soTestApply]
@[simp] theorem soTestWrite_memory (p v : Nat) (d : Dev) : (soTestWrite p v d).1.memory = d.memory := by simp [soTestWrite]
@[simp] theorem oneShot_memory (p i : Nat) (d : Dev) : (oneShot p i d).1.memory = d.memory := by simp [oneShot]
@[simp] theorem dccTxApply_memory (p : Nat) (multiplex : Bool) (data : List Byte) (d : Dev) : (dccTxApply p multiplex data d).memory = d.memory := by simp [dccTxApply]
@[simp] theorem dccTxWrite_memory (p : Nat) (multiplex : Bool) (data : List Byte) (d : Dev) : (dccTxWrite p multiplex data d).1.memory = d.memory := by
  simp [dccTxWrite]
@[simp] theorem sdhTransmit_memory (d : Dev) (p : Nat) (payload : List Byte) : (sdhTransmit d p payload).1.memory = d.memory := by simp [sdhTransmit]
@[simp] theorem otuTransmit_memory (d : Dev) (p : Nat) (payload : List Byte) : (otuTransmit d p payload).1.memory = d.memory := by simp [otuTransmit]
@[simp] theorem Dev.onPathRx_memory (d : Dev) (a : Nat) (f : PathRx → PathRx) : (Dev.onPathRx d a f).memory = d.memory := by simp [Dev.onPathRx]
@[simp] theorem Dev.onPathTx_memory (d : Dev) (a : Nat) (f : PathTx → PathTx) : (Dev.onPathTx d a f).memory = d.memory := by simp [Dev.onPathTx]
@[simp] theorem Dev.onClient_memory (d : Dev) (c : Nat) (f : ClientSt → ClientSt) : (Dev.onClient d c f).memory = d.memory := by simp [Dev.onClient]
@[simp] theorem Dev.onCh_memory (d : Dev) (a : Nat) (f : TfiCh → TfiCh) : (Dev.onCh d a f).memory = d.memory := by simp [Dev.onCh]
@[simp] theorem Dev.clientWrite_memory (d : Dev) (c : Nat) (l : List Bool) : (Dev.clientWrite d c l).memory = d.memory := by simp [Dev.clientWrite]
@[simp] theorem Dev.deliverTo_memory (d : Dev) (w : Nat) (c : List Byte) : (Dev.deliverTo d w c).memory = d.memory := by simp [Dev.deliverTo]
@[simp] theorem Dev.deliver_memory (d : Dev) (a : Nat) (c : List Byte) : (Dev.deliver d a c).memory = d.memory := by simp [Dev.deliver]
@[simp] theorem Dev.onPtrTx_memory (d : Dev) (a : Nat) (f : PtrTx → PtrTx) : (Dev.onPtrTx d a f).memory = d.memory := by simp [Dev.onPtrTx]
@[simp] theorem Dev.recentre_memory (d : Dev) (a : Nat) : (Dev.recentre d a).memory = d.memory := by simp [Dev.recentre]
@[simp] theorem Dev.moveFill_memory (d : Dev) (a : Nat) (n : Int) : (Dev.moveFill d a n).memory = d.memory := by simp [Dev.moveFill]
@[simp] theorem Dev.contStart_memory (d : Dev) (a off : Nat) : (Dev.contStart d a off).memory = d.memory := by simp [Dev.contStart]
@[simp] theorem Dev.generate_memory (d : Dev) (a : Nat) (first : Bool) : (Dev.generate d a first).memory = d.memory := by simp [Dev.generate]
@[simp] theorem pointerWord_memory (d : Dev) (a word : Nat) (members : List Nat) : (pointerWord d a word members).memory = d.memory := by simp [pointerWord]
@[simp] theorem pathPeriod_memory (d : Dev) (a : Nat) : (pathPeriod d a).memory = d.memory := by
  unfold pathPeriod
  dsimp only
  (repeat' (first | (simp; done) | split))
@[simp] theorem Dev.pointerStart_memory (d : Dev) (a : Nat) : (Dev.pointerStart d a).memory = d.memory := by simp [Dev.pointerStart]
@[simp] theorem Dev.onPohCtx_memory (d : Dev) (a : Nat) (f : PohCtx → PohCtx) : (Dev.onPohCtx d a f).memory = d.memory := by simp [Dev.onPohCtx]
@[simp] theorem Dev.comparePath_memory (d : Dev) (a : Nat) : (Dev.comparePath d a).memory = d.memory := by simp [Dev.comparePath]
@[simp] theorem Dev.capture_memory (d : Dev) (a : Nat) (v : List Byte) : (Dev.capture d a v).memory = d.memory := by simp [Dev.capture]
@[simp] theorem Dev.h4Work_memory (d : Dev) (a v : Nat) : (Dev.h4Work d a v).memory = d.memory := by simp [Dev.h4Work]
@[simp] theorem Dev.markerRx_memory (d : Dev) (a t : Nat) (v : Bool) : (Dev.markerRx d a t v).memory = d.memory := by simp [Dev.markerRx]
@[simp] theorem Dev.pohPeriod_memory (d : Dev) (a : Nat) (l : List Byte) (computed : Option Byte) (t : Nat) : (Dev.pohPeriod d a l computed t).memory = d.memory := by
  unfold Dev.pohPeriod
  dsimp only
  (repeat' (first | (simp; done) | split))
@[simp] theorem Dev.tuDeliver_memory (d : Dev) (a t : Nat) (raw : List Byte) : (Dev.tuDeliver d a t raw).memory = d.memory := by simp [Dev.tuDeliver]
@[simp] theorem pohVisit_memory (d : Dev) (a : Nat) : (pohVisit d a).memory = d.memory := by simp [pohVisit]
@[simp] theorem markerTick_memory (d : Dev) (a : Nat) : (markerTick d a).memory = d.memory := by simp [markerTick]
@[simp] theorem markerLost_memory (d : Dev) (a : Nat) : (markerLost d a).memory = d.memory := by simp [markerLost]
@[simp] theorem Dev.markerRestart_memory (d : Dev) (a : Nat) : (Dev.markerRestart d a).memory = d.memory := by simp [Dev.markerRestart]
@[simp] theorem Dev.h4Start_memory (d : Dev) (a : Nat) : (Dev.h4Start d a).memory = d.memory := by simp [Dev.h4Start]
@[simp] theorem Dev.pohStart_memory (d : Dev) (a : Nat) : (Dev.pohStart d a).memory = d.memory := by simp [Dev.pohStart]
@[simp] theorem Dev.onContext_memory (d : Dev) (m : Master) (gate : Nat) (levels : List Nat) (f : Nat → Dev → Dev × Nat) (hf : ∀ (v : Nat) (x : Dev), (f v x).1.memory = x.memory) : (Dev.onContext d m gate levels f).1.memory = d.memory := by
  simp [Dev.onContext, hf]
@[simp] theorem traceCaptureWrite_memory (m : Master) (v : Nat) (d : Dev) : (traceCaptureWrite m v d).1.memory = d.memory := by simp [traceCaptureWrite]
@[simp] theorem pohTestApply_memory (a v : Nat) (d : Dev) : (pohTestApply a v d).memory = d.memory := by simp [pohTestApply]
@[simp] theorem pohTestWrite_memory (a v : Nat) (d : Dev) : (pohTestWrite a v d).1.memory = d.memory := by simp [pohTestWrite]
@[simp] theorem oneBip_memory (m : Master) (d : Dev) : (oneBip m d).1.memory = d.memory := by simp [oneBip]
@[simp] theorem Dev.gapBytes_memory (d : Dev) (a n : Nat) : (Dev.gapBytes d a n).1.memory = d.memory := by simp [Dev.gapBytes]
@[simp] theorem Dev.clientMap_memory (d : Dev) (a c : Nat) : (Dev.clientMap d a c).1.memory = d.memory := by simp [Dev.clientMap]
@[simp] theorem Dev.markerTx_memory (d : Dev) (a : Nat) : (Dev.markerTx d a).memory = d.memory := by simp [Dev.markerTx]
@[simp] theorem Dev.ownPoh_memory (d : Dev) (a : Nat) : (Dev.ownPoh d a).1.memory = d.memory := by simp [Dev.ownPoh]
@[simp] theorem Dev.sealCont_memory (d : Dev) (a : Nat) (own : Bool) (body : List Byte) : (Dev.sealCont d a own body).1.memory = d.memory := by
  simp [Dev.sealCont]
@[simp] theorem Dev.buildLeaf_memory (d : Dev) (a : Nat) : (Dev.buildLeaf d a).1.memory = d.memory := by
  unfold Dev.buildLeaf
  dsimp only
  (repeat' (first | (simp; done) | split))
@[simp] theorem Dev.nextCont_memory (build : Dev → Nat → Dev × List Byte) (d : Dev) (a : Nat) (hbuild : ∀ (x : Dev) (w0 : Nat), (build x w0).1.memory = x.memory) : (Dev.nextCont build d a).1.memory = d.memory := by
  unfold Dev.nextCont
  split <;> simp [hbuild]
@[simp] theorem Dev.pull_memory (build : Dev → Nat → Dev × List Byte) (hbuild : ∀ (x : Dev) (w0 : Nat), (build x w0).1.memory = x.memory) (fuel : Nat) (d : Dev) (a n : Nat) : (Dev.pull build fuel d a n).1.memory = d.memory := by
  induction fuel generalizing d n with
  | zero => rfl
  | succ k ih =>
    unfold Dev.pull
    dsimp only
    (repeat' split) <;> simp [ih, hbuild]
@[simp] theorem Dev.bytesOf_memory (build : Dev → Nat → Dev × List Byte) (d : Dev) (a n : Nat) (ais : Bool) (hbuild : ∀ (x : Dev) (w0 : Nat), (build x w0).1.memory = x.memory) : (Dev.bytesOf build d a n ais).1.memory = d.memory := by
  unfold Dev.bytesOf
  (repeat' split) <;> simp [hbuild]
@[simp] theorem Dev.sentNow_memory (d : Dev) (a : Nat) : (Dev.sentNow d a).memory = d.memory := by simp [Dev.sentNow]
@[simp] theorem Dev.sendPeriod_memory (build : Dev → Nat → Dev × List Byte) (d : Dev) (a n0 n1 : Nat) (hbuild : ∀ (x : Dev) (w0 : Nat), (build x w0).1.memory = x.memory) : (Dev.sendPeriod build d a n0 n1).1.memory = d.memory := by
  simp only [Dev.sendPeriod]
  (repeat' (first | (simp [hbuild]; done) | split))
@[simp] theorem Dev.tuQuarter_memory (d : Dev) (a v : Nat) : (Dev.tuQuarter d a v).1.memory = d.memory := by
  simp only [Dev.tuQuarter]
  (repeat' (first | (simp; done) | split))
@[simp] theorem Dev.gather_memory {α : Type} (d : Dev) (l : List Nat) (f : Dev → Nat → Dev × α) (hf : ∀ (x : Dev) (i : Nat), (f x i).1.memory = x.memory) : (Dev.gather d l f).1.memory = d.memory := by
  suffices h : ∀ s : Dev × List α, (l.foldl (fun s i => let r := f s.1 i; (r.1, s.2 ++ [r.2])) s).1.memory = s.1.memory from h (d, [])
  induction l with
  | nil => intro s; rfl
  | cons i r ih => intro s; rw [List.foldl_cons, ih]; exact hf _ _
@[simp] theorem Dev.tug2Bytes_memory (d : Dev) (par k l v : Nat) : (Dev.tug2Bytes d par k l v).1.memory = d.memory := by
  unfold Dev.tug2Bytes
  dsimp only
  rw [Dev.gather_memory]
  intro x i
  split <;> simp
@[simp] theorem Dev.tug2Rows_memory (d : Dev) (par k v : Nat) : (Dev.tug2Rows d par k v).1.memory = d.memory := by
  simp only [Dev.tug2Rows]
  (repeat' (first | (simp; done) | split))
@[simp] theorem Dev.tug3Send_memory (d : Dev) (par k v : Nat) : (Dev.tug3Send d par k v).1.memory = d.memory := by
  simp only [Dev.tug3Send]
  (repeat' (first | (simp; done) | split))
@[simp] theorem Dev.buildStructured_memory (d : Dev) (a : Nat) : (Dev.buildStructured d a).1.memory = d.memory := by
  simp only [Dev.buildStructured]
  (repeat' (first | (simp; done) | split))
@[simp] theorem Dev.buildAny_memory (d : Dev) (a : Nat) : (Dev.buildAny d a).1.memory = d.memory := by
  simp only [Dev.buildAny]
  (repeat' (first | (simp; done) | split))
@[simp] theorem Dev.auSend_memory (d : Dev) (a : Nat) : (Dev.auSend d a).1.memory = d.memory := by
  simp only [Dev.auSend]
  (repeat' (first | (simp; done) | split))
@[simp] theorem Dev.au3Send_memory (d : Dev) (p : Nat) (at_ : Option Nat) : (Dev.au3Send d p at_).1.memory = d.memory := by
  simp only [Dev.au3Send]
  (repeat' (first | (simp; done) | split))
@[simp] theorem Dev.ausSend_memory (p : Nat) (live : List Nat) (fuel : Nat) (d : Dev) (i n : Nat) : (Dev.ausSend p live fuel d i n).1.memory = d.memory := by
  induction fuel generalizing d i with
  | zero => rfl
  | succ k ih =>
    unfold Dev.ausSend
    dsimp only
    (repeat' split) <;> simp [ih]
@[simp] theorem Dev.stmPayload_memory (d : Dev) (p : Nat) (moves : List (Addr × Int)) : (Dev.stmPayload d p moves).1.memory = d.memory := by
  simp only [Dev.stmPayload]
  (repeat' (first | (simp; done) | split))
@[simp] theorem Dev.stmSend_memory (d : Dev) (p : Nat) (moves : List (Addr × Int)) : (Dev.stmSend d p moves).1.memory = d.memory := by
  simp only [Dev.stmSend]
  (repeat' (first | (simp; done) | split))
@[simp] theorem Dev.stmClientSend_memory (d : Dev) (p : Nat) (moves : List (Addr × Int)) : (Dev.stmClientSend d p moves).memory = d.memory := by
  simp only [Dev.stmClientSend]
  (repeat' (first | (simp; done) | split))
@[simp] theorem Dev.otuSend_memory (d : Dev) (p : Nat) (moves : List (Addr × Int)) : (Dev.otuSend d p moves).1.memory = d.memory := by
  simp only [Dev.otuSend]
  (repeat' (first | (simp; done) | split))
@[simp] theorem Dev.laneSend_memory (d : Dev) (l : Nat) (bytes : List Byte) : (Dev.laneSend d l bytes).memory = d.memory := by simp [Dev.laneSend]
@[simp] theorem Dev.pinsSend_memory (d : Dev) (p mfas : Nat) (f : List Byte) : (Dev.pinsSend d p mfas f).memory = d.memory := by simp [Dev.pinsSend]
@[simp] theorem transmitFrame_memory (d : Dev) (p : Nat) (client : Bool) (moves : List (Addr × Int)) : (transmitFrame d p client moves).memory = d.memory := by
  simp only [transmitFrame]
  (repeat' (first | (simp; done) | split))
@[simp] theorem Dev.report_memory (d : Dev) (a new : Nat) : (Dev.report d a new).memory = d.memory := by simp [Dev.report]
@[simp] theorem Dev.defectPort_memory (d : Dev) (p : Nat) : (Dev.defectPort d p).memory = d.memory := by simp [Dev.defectPort]
@[simp] theorem Dev.defectPath_memory (d : Dev) (a : Nat) : (Dev.defectPath d a).memory = d.memory := by simp [Dev.defectPath]
@[simp] theorem defectVisit_memory (d : Dev) (a : Nat) : (defectVisit d a).memory = d.memory := by simp [defectVisit]
@[simp] theorem berBlockEnd_memory (d : Dev) (a : Nat) (sf : Bool) : (berBlockEnd d a sf).memory = d.memory := by simp [berBlockEnd]
@[simp] theorem defectCounts_memory (d : Dev) : (defectCounts d).memory = d.memory := by simp [defectCounts]
@[simp] theorem Dev.defectStart_memory (d : Dev) (a : Nat) : (Dev.defectStart d a).memory = d.memory := by simp [Dev.defectStart]
@[simp] theorem Dev.tick_memory (d : Dev) (irregular : Bool) (number : Option Nat) : (Dev.tick d irregular number).memory = d.memory := by simp [Dev.tick]
@[simp] theorem Dev.ppsLost_memory (d : Dev) : (Dev.ppsLost d).memory = d.memory := by simp [Dev.ppsLost]
@[simp] theorem ppsEdge_memory (d : Dev) (falling : Bool) (interval since : Nat) : (ppsEdge d falling interval since).memory = d.memory := by simp [ppsEdge]
@[simp] theorem flywheelTick_memory (d : Dev) : (flywheelTick d).memory = d.memory := by simp [flywheelTick]
@[simp] theorem ppsLoss_memory (d : Dev) : (ppsLoss d).memory = d.memory := by simp [ppsLoss]
@[simp] theorem tickEffect_memory (d : Dev) : (tickEffect d).memory = d.memory := by simp [tickEffect]
@[simp] theorem closePath_memory (d : Dev) (a : Nat) : (closePath d a).memory = d.memory := by
  unfold closePath
  dsimp only
  (repeat' (first | (simp; done) | split))
@[simp] theorem Dev.cpmEvent_memory (d : Dev) (c detail : Nat) (clear : Bool) : (Dev.cpmEvent d c detail clear).memory = d.memory := by simp [Dev.cpmEvent]
@[simp] theorem Dev.cpmAlerts_memory (d : Dev) (c : Nat) : (Dev.cpmAlerts d c).memory = d.memory := by simp [Dev.cpmAlerts]
@[simp] theorem Dev.cpmChange_memory (d : Dev) (c : Nat) (last : List (Bool × Bool)) (un : Bool) : (Dev.cpmChange d c last un).memory = d.memory := by
  simp [Dev.cpmChange]
@[simp] theorem closeClient_memory (d : Dev) (c : Nat) : (closeClient d c).memory = d.memory := by
  unfold closeClient
  dsimp only
  (repeat' (first | (simp; done) | split))
@[simp] theorem Dev.binSpoil_memory (d : Dev) (a i : Nat) : (Dev.binSpoil d a i).memory = d.memory := by simp [Dev.binSpoil]
@[simp] theorem Dev.visitEcc_memory (d : Dev) (a i : Nat) (ecc : Ecc) : (Dev.visitEcc d a i ecc).memory = d.memory := by
  simp only [Dev.visitEcc]
  (repeat' (first | (simp; done) | split))
@[simp] theorem closeOut_memory (d : Dev) (ecc : Ecc) (i : Nat) (t : PmTarget) : (closeOut d ecc i t).memory = d.memory := by
  cases t <;> simp [closeOut]
@[simp] theorem managementRollover_memory (d : Dev) : (managementRollover d).memory = d.memory := by simp [managementRollover]
@[simp] theorem Dev.pmRelease_memory (d : Dev) : (Dev.pmRelease d).memory = d.memory := by simp [Dev.pmRelease]
@[simp] theorem Dev.pmInvalidate_memory (d : Dev) : (Dev.pmInvalidate d).memory = d.memory := by simp [Dev.pmInvalidate]
@[simp] theorem Dev.pmStart_memory (d : Dev) (a : Nat) : (Dev.pmStart d a).memory = d.memory := by simp [Dev.pmStart]
@[simp] theorem Dev.cpmStart_memory (d : Dev) (c : Nat) : (Dev.cpmStart d c).memory = d.memory := by simp [Dev.cpmStart]
@[simp] theorem Dev.cpmDelay_memory (d : Dev) (c delay : Nat) (asym : Int) : (Dev.cpmDelay d c delay asym).memory = d.memory := by simp [Dev.cpmDelay]
@[simp] theorem pmSecondWrite_memory (v : Nat) (coincident : Bool) (d : Dev) : (pmSecondWrite v coincident d).1.memory = d.memory := by simp [pmSecondWrite]
@[simp] theorem pmClear_memory (m : Master) (v : Nat) (d : Dev) : (pmClear m v d).1.memory = d.memory := by simp [pmClear]
@[simp] theorem cpmClear_memory (c v : Nat) (d : Dev) : (cpmClear c v d).1.memory = d.memory := by simp [cpmClear]
@[simp] theorem pmBlockDone_memory (d : Dev) (m : Master) (n : Nat) : (pmBlockDone d m n).memory = d.memory := by simp [pmBlockDone]
@[simp] theorem pmSnapshot_memory (d : Dev) : (pmSnapshot d).memory = d.memory := by simp [pmSnapshot]
@[simp] theorem Dev.onProt_memory (d : Dev) (w : Nat) (f : Prot → Prot) : (Dev.onProt d w f).memory = d.memory := by simp [Dev.onProt]
@[simp] theorem Dev.latchTriggers_memory (d : Dev) : (Dev.latchTriggers d).memory = d.memory := by simp [Dev.latchTriggers]
@[simp] theorem Dev.showCommand_memory (d : Dev) (w : Nat) : (Dev.showCommand d w).memory = d.memory := by simp [Dev.showCommand]
@[simp] theorem selectorVisit_memory (d : Dev) (w : Nat) : (selectorVisit d w).memory = d.memory := by simp [selectorVisit]
@[simp] theorem mspDecide_memory (d : Dev) (w : Nat) : (mspDecide d w).memory = d.memory := by simp [mspDecide]
@[simp] theorem sectionVisit_memory (d : Dev) (p : Nat) : (sectionVisit d p).memory = d.memory := by
  simp only [sectionVisit]
  (repeat' (first | (simp; done) | split))
@[simp] theorem Dev.protEvent_memory (d : Dev) (code n a : Nat) : (Dev.protEvent d code n a).memory = d.memory := by simp [Dev.protEvent]
@[simp] theorem fopDeclare_memory (d : Dev) (w : Nat) (f : ApsFailure) : (fopDeclare d w f).memory = d.memory := by simp [fopDeclare]
@[simp] theorem apsClear_memory (d : Dev) (w : Nat) (f : ApsFailure) : (apsClear d w f).memory = d.memory := by simp [apsClear]
@[simp] theorem holdOffExpiry_memory (d : Dev) (w : Nat) (k : Member) : (holdOffExpiry d w k).memory = d.memory := by simp [holdOffExpiry]
@[simp] theorem wtrExpiry_memory (d : Dev) (w : Nat) : (wtrExpiry d w).memory = d.memory := by simp [wtrExpiry]
@[simp] theorem exerciseEnd_memory (d : Dev) (p : Nat) : (exerciseEnd d p).memory = d.memory := by simp [exerciseEnd]
@[simp] theorem commandApply_memory (w c : Nat) (d : Dev) : (commandApply w c d).memory = d.memory := by simp [commandApply]
@[simp] theorem commandWrite_memory (w c : Nat) (d : Dev) : (commandWrite w c d).1.memory = d.memory := by simp [commandWrite]
@[simp] theorem Dev.switchOne_memory (d : Dev) (w : Nat) : (Dev.switchOne d w).memory = d.memory := by simp [Dev.switchOne]
@[simp] theorem Dev.applySelections_memory (d : Dev) : (Dev.applySelections d).memory = d.memory := by
  unfold Dev.applySelections
  dsimp only
  (repeat' (first | (simp; done) | split))
@[simp] theorem Dev.protStart_memory (d : Dev) (w : Nat) : (Dev.protStart d w).memory = d.memory := by simp [Dev.protStart]
@[simp] theorem Dev.protGone_memory (d : Dev) (w : Nat) : (Dev.protGone d w).memory = d.memory := by simp [Dev.protGone]
@[simp] theorem Dev.clientEvent_memory (d : Dev) (c detail : Nat) : (Dev.clientEvent d c detail).memory = d.memory := by simp [Dev.clientEvent]
@[simp] theorem clientDeclare_memory (d : Dev) (c : Nat) (f : ClientDefect) : (clientDeclare d c f).memory = d.memory := by simp [clientDeclare]
@[simp] theorem clientClear_memory (d : Dev) (c : Nat) (f : ClientDefect) : (clientClear d c f).memory = d.memory := by simp [clientClear]
@[simp] theorem Dev.ingressPush_memory (d : Dev) (c : Nat) (data : List Byte) : (Dev.ingressPush d c data).memory = d.memory := by
  simp [Dev.ingressPush]
@[simp] theorem clientReceive_memory (d : Dev) (c : Nat) (errored : Bool) (data : List Byte) : (clientReceive d c errored data).memory = d.memory := by
  simp [clientReceive]
@[simp] theorem Dev.slewChanged_memory (d : Dev) (c old : Nat) : (Dev.slewChanged d c old).memory = d.memory := by simp [Dev.slewChanged]
@[simp] theorem Dev.slewTo_memory (d : Dev) (c t : Nat) : (Dev.slewTo d c t).memory = d.memory := by simp [Dev.slewTo]
@[simp] theorem Dev.fillAtTarget_memory (d : Dev) (c t : Nat) : (Dev.fillAtTarget d c t).memory = d.memory := by simp [Dev.fillAtTarget]
@[simp] theorem ingressSlip_memory (d : Dev) (c : Nat) : (ingressSlip d c).memory = d.memory := by simp [ingressSlip]
@[simp] theorem bufferStarved_memory (d : Dev) (c : Nat) : (bufferStarved d c).memory = d.memory := by simp [bufferStarved]
@[simp] theorem bufferOverflow_memory (d : Dev) (c : Nat) : (bufferOverflow d c).memory = d.memory := by simp [bufferOverflow]
@[simp] theorem starvationEnd_memory (d : Dev) (c : Nat) : (starvationEnd d c).memory = d.memory := by simp [starvationEnd]
@[simp] theorem Dev.clientSend_memory (d : Dev) (c : Nat) : (Dev.clientSend d c).memory = d.memory := by simp [Dev.clientSend]
@[simp] theorem Dev.setPin_memory (d : Dev) (c st : Nat) : (Dev.setPin d c st).memory = d.memory := by simp [Dev.setPin]
@[simp] theorem Dev.pinAt_memory (d : Dev) (c st : Nat) (fill : Int) (step : Bool) : (Dev.pinAt d c st fill step).memory = d.memory := by simp [Dev.pinAt]
@[simp] theorem Dev.skewWork_memory (d : Dev) (c : Nat) : (Dev.skewWork d c).memory = d.memory := by
  unfold Dev.skewWork
  dsimp only
  (repeat' (first | (simp; done) | split))
@[simp] theorem Dev.pinSwitch_memory (d : Dev) (c : Nat) : (Dev.pinSwitch d c).memory = d.memory := by
  unfold Dev.pinSwitch
  dsimp only
  (repeat' split) <;> simp only [Dev.pinAt_memory, Dev.setPin_memory, Dev.set1_memory, Dev.onClient_memory]
@[simp] theorem Dev.holdEnds_memory (d : Dev) (c : Nat) : (Dev.holdEnds d c).memory = d.memory := by
  unfold Dev.holdEnds
  dsimp only
  (repeat' (first | (simp; done) | split))
@[simp] theorem Dev.asymCheck_memory (d : Dev) (c : Nat) : (Dev.asymCheck d c).memory = d.memory := by simp [Dev.asymCheck]
@[simp] theorem Dev.pinCompute_memory (d : Dev) (c reading : Nat) (far : FarReport) (fresh : Bool) : (Dev.pinCompute d c reading far fresh).memory = d.memory := by
  simp [Dev.pinCompute]
@[simp] theorem Dev.pinOpen_memory (d : Dev) (c st : Nat) (step : Bool) : (Dev.pinOpen d c st step).memory = d.memory := by simp [Dev.pinOpen]
@[simp] theorem Dev.pinRetarget_memory (d : Dev) (c : Nat) : (Dev.pinRetarget d c).memory = d.memory := by
  unfold Dev.pinRetarget
  split <;> simp
@[simp] theorem Dev.pinClosed_memory (d : Dev) (c : Nat) : (Dev.pinClosed d c).memory = d.memory := by
  unfold Dev.pinClosed
  dsimp only
  (repeat' (first | (simp; done) | split))
@[simp] theorem Dev.farCheck_memory (d : Dev) (c : Nat) : (Dev.farCheck d c).memory = d.memory := by simp [Dev.farCheck]
@[simp] theorem clientVisit_memory (d : Dev) (c : Nat) : (clientVisit d c).memory = d.memory := by simp [clientVisit]
@[simp] theorem farApply_memory (c : Nat) (l : List Byte) (d : Dev) : (farApply c l d).memory = d.memory := by simp [farApply]
@[simp] theorem farWrite_memory (c : Nat) (l : List Byte) (d : Dev) : (farWrite c l d).1.memory = d.memory := by simp [farWrite]
@[simp] theorem clientTestApply_memory (c v : Nat) (d : Dev) : (clientTestApply c v d).memory = d.memory := by simp [clientTestApply]
@[simp] theorem clientTestWrite_memory (c v : Nat) (d : Dev) : (clientTestWrite c v d).1.memory = d.memory := by simp [clientTestWrite]
@[simp] theorem Dev.clientStart_memory (d : Dev) (c : Nat) : (Dev.clientStart d c).memory = d.memory := by simp [Dev.clientStart]
@[simp] theorem Dev.onTfi_memory (d : Dev) (l : Nat) (f : TfiLane → TfiLane) : (Dev.onTfi d l f).memory = d.memory := by simp [Dev.onTfi]
@[simp] theorem Dev.onMateLane_memory (d : Dev) (k : Nat) (f : TfiLane → TfiLane) : (Dev.onMateLane d k f).memory = d.memory := by simp [Dev.onMateLane]
@[simp] theorem Dev.tfiEvent_memory (d : Dev) (l detail level a : Nat) : (Dev.tfiEvent d l detail level a).memory = d.memory := by simp [Dev.tfiEvent]
@[simp] theorem Dev.onCellLane_memory (d : Dev) (c : CellLane) (f : TfiLane → TfiLane) : (Dev.onCellLane d c f).memory = d.memory := by
  unfold Dev.onCellLane
  split <;> simp
@[simp] theorem Dev.setDelin_memory (d : Dev) (c : CellLane) (st : Nat) : (Dev.setDelin d c st).memory = d.memory := by
  unfold Dev.setDelin
  split <;> simp
@[simp] theorem blockLock_memory (d : Dev) (c : CellLane) : (blockLock d c).memory = d.memory := by simp [blockLock]
@[simp] theorem blockLockLoss_memory (d : Dev) (c : CellLane) : (blockLockLoss d c).memory = d.memory := by simp [blockLockLoss]
@[simp] theorem Dev.delineate_memory (d : Dev) (c : CellLane) (ok : Bool) : (Dev.delineate d c ok).memory = d.memory := by simp [Dev.delineate]
@[simp] theorem Dev.playEmpty_memory (d : Dev) (a : Nat) : (Dev.playEmpty d a).memory = d.memory := by simp [Dev.playEmpty]
@[simp] theorem Dev.setIn_memory (d : Dev) (a st : Nat) : (Dev.setIn d a st).memory = d.memory := by simp [Dev.setIn]
@[simp] theorem Dev.playOut_memory (d : Dev) (a fuel : Nat) : (Dev.playOut d a fuel).memory = d.memory := by
  induction fuel generalizing d with
  | zero => rfl
  | succ k ih =>
    unfold Dev.playOut
    dsimp only
    split <;> simp [ih]
@[simp] theorem Dev.tfiReturn_memory (d : Dev) (a : Nat) (was : Bool) : (Dev.tfiReturn d a was).memory = d.memory := by simp [Dev.tfiReturn]
@[simp] theorem Dev.underrun_memory (d : Dev) (a l : Nat) : (Dev.underrun d a l).memory = d.memory := by simp [Dev.underrun]
@[simp] theorem Dev.waitCell_memory (d : Dev) (a cso : Nat) (payload : List Byte) : (Dev.waitCell d a cso payload).memory = d.memory := by
  simp [Dev.waitCell]
@[simp] theorem Dev.dataCell_memory (d : Dev) (a l cso seq : Nat) (ais : Bool) (payload : List Byte) : (Dev.dataCell d a l cso seq ais payload).memory = d.memory := by
  simp only [Dev.dataCell]
  (repeat' (first | (simp; done) | split))
@[simp] theorem Dev.cellDeliver_memory (d : Dev) (l : Nat) (head trail : Nat) (payload : List Byte) : (Dev.cellDeliver d l head trail payload).memory = d.memory := by
  simp only [Dev.cellDeliver]
  (repeat' (first | (simp; done) | split))
@[simp] theorem cellReceived_memory (d : Dev) (c : CellLane) (raw : List Byte) (syncOk : Bool) : (cellReceived d c raw syncOk).memory = d.memory := by
  simp only [cellReceived]
  (repeat' (first | (simp; done) | split))
@[simp] theorem cellSend_memory (d : Dev) (l : Nat) : (cellSend d l).memory = d.memory := by
  unfold cellSend
  dsimp only
  (repeat' (first | (simp; done) | split))
@[simp] theorem creditStall_memory (d : Dev) (l : Nat) : (creditStall d l).memory = d.memory := by simp [creditStall]
@[simp] theorem Dev.dropped_memory (d : Dev) (l : Nat) (c : Cell) : (Dev.dropped d l c).memory = d.memory := by
  unfold Dev.dropped
  split <;> simp
@[simp] theorem Dev.enqueue_memory (d : Dev) (l : Nat) (c : Cell) : (Dev.enqueue d l c).memory = d.memory := by
  unfold Dev.enqueue
  dsimp only
  (repeat' (first | (simp; done) | split))
@[simp] theorem cellGenerate_memory (d : Dev) (a : Nat) : (cellGenerate d a).memory = d.memory := by simp [cellGenerate]
@[simp] theorem playoutUnderrun_memory (d : Dev) (a : Nat) : (playoutUnderrun d a).memory = d.memory := by simp [playoutUnderrun]
@[simp] theorem Dev.tfiTick_memory (d : Dev) : (Dev.tfiTick d).memory = d.memory := by
  unfold Dev.tfiTick
  apply foldl_memory
  intro x a
  split <;> simp
@[simp] theorem Dev.tfiLaneStart_memory (d : Dev) (l : Nat) : (Dev.tfiLaneStart d l).memory = d.memory := by simp [Dev.tfiLaneStart]
@[simp] theorem Dev.mateLaneStart_memory (d : Dev) (k : Nat) : (Dev.mateLaneStart d k).memory = d.memory := by simp [Dev.mateLaneStart]
@[simp] theorem Dev.tfiChStart_memory (d : Dev) (a : Nat) : (Dev.tfiChStart d a).memory = d.memory := by simp [Dev.tfiChStart]
@[simp] theorem Dev.tfiChNew_memory (d : Dev) (a : Nat) : (Dev.tfiChNew d a).memory = d.memory := by simp [Dev.tfiChNew]
@[simp] theorem Dev.tfiChGone_memory (d : Dev) (a entry ctl : Nat) : (Dev.tfiChGone d a entry ctl).memory = d.memory := by simp [Dev.tfiChGone]
@[simp] theorem Dev.eachPort_memory (d : Dev) (f : Dev → Nat → Dev) (hf : ∀ (x : Dev) (v : Nat), (f x v).memory = x.memory) : (Dev.eachPort d f).memory = d.memory := by
  simp [Dev.eachPort, hf]
@[simp] theorem Dev.eachContext_memory (d : Dev) (f : Dev → Nat → Dev) (hf : ∀ (x : Dev) (v : Nat), (f x v).memory = x.memory) : (Dev.eachContext d f).memory = d.memory := by
  simp [Dev.eachContext, hf]
@[simp] theorem Dev.eachProt_memory (d : Dev) (f : Dev → Nat → Dev) (hf : ∀ (x : Dev) (v : Nat), (f x v).memory = x.memory) : (Dev.eachProt d f).memory = d.memory := by
  simp [Dev.eachProt, hf]
@[simp] theorem Dev.eachClient_memory (d : Dev) (f : Dev → Nat → Dev) (hf : ∀ (x : Dev) (v : Nat), (f x v).memory = x.memory) : (Dev.eachClient d f).memory = d.memory := by
  simp [Dev.eachClient, hf]
@[simp] theorem Dev.actionsStart_memory (d : Dev) : (Dev.actionsStart d).memory = d.memory := by simp [Dev.actionsStart]
@[simp] theorem Dev.tfiStart_memory (d : Dev) : (Dev.tfiStart d).memory = d.memory := by simp [Dev.tfiStart]
@[simp] theorem Dev.clearedStart_memory (d : Dev) : (Dev.clearedStart d).memory = d.memory := by simp [Dev.clearedStart]
@[simp] theorem Dev.receiveStart_memory (d : Dev) : (Dev.receiveStart d).memory = d.memory := by simp [Dev.receiveStart]
@[simp] theorem Dev.quadStart_memory (d : Dev) (q : Nat) : (Dev.quadStart d q).memory = d.memory := by simp [Dev.quadStart]
@[simp] theorem Dev.blockStart_memory (d : Dev) (mask : Nat) : (Dev.blockStart d mask).memory = d.memory := by simp [Dev.blockStart]
@[simp] theorem Dev.berSwap_memory (d : Dev) (old : Bank) (a : Nat) : (Dev.berSwap d old a).memory = d.memory := by simp [Dev.berSwap]
@[simp] theorem Dev.alignSwap_memory (d : Dev) (p : Nat) : (Dev.alignSwap d p).memory = d.memory := by simp [Dev.alignSwap]
@[simp] theorem Dev.laneSwap_memory (d : Dev) (old : Bank) (l : Nat) : (Dev.laneSwap d old l).memory = d.memory := by simp [Dev.laneSwap]
@[simp] theorem Dev.portSwap_memory (d : Dev) (old : Bank) (p : Nat) : (Dev.portSwap d old p).memory = d.memory := by simp [Dev.portSwap]
@[simp] theorem Dev.quadSwap_memory (d0 : Dev) (old : Bank) (q : Nat) : (Dev.quadSwap d0 old q).memory = d0.memory := by simp [Dev.quadSwap]
@[simp] theorem Dev.dropCaptures_memory (d : Dev) (a : Nat) : (Dev.dropCaptures d a).memory = d.memory := by simp [Dev.dropCaptures]
@[simp] theorem Dev.contextNew_memory (d : Dev) (a : Nat) : (Dev.contextNew d a).memory = d.memory := by simp [Dev.contextNew]
@[simp] theorem Dev.contextGone_memory (d : Dev) (old : Bank) (a : Nat) : (Dev.contextGone d old a).memory = d.memory := by simp [Dev.contextGone]
@[simp] theorem Dev.contextKept_memory (d : Dev) (old : Bank) (a : Nat) : (Dev.contextKept d old a).memory = d.memory := by simp [Dev.contextKept]
@[simp] theorem Dev.contextSwap_memory (d : Dev) (old : Bank) (a : Nat) : (Dev.contextSwap d old a).memory = d.memory := by simp [Dev.contextSwap]
@[simp] theorem Dev.protSwap_memory (d : Dev) (old : Bank) (w : Nat) : (Dev.protSwap d old w).memory = d.memory := by simp [Dev.protSwap]
@[simp] theorem Dev.pinSwap_memory (d : Dev) (old : Bank) (c : Nat) : (Dev.pinSwap d old c).memory = d.memory := by simp [Dev.pinSwap]
@[simp] theorem Dev.clientSwap_memory (d0 : Dev) (old : Bank) (c : Nat) : (Dev.clientSwap d0 old c).memory = d0.memory := by simp [Dev.clientSwap]
@[simp] theorem Dev.tfiSwap_memory (d : Dev) (was : Nat → Bool) (l : Nat) : (Dev.tfiSwap d was l).memory = d.memory := by simp [Dev.tfiSwap]
@[simp] theorem Dev.swapEffects_memory (d : Dev) (old : Bank) : (Dev.swapEffects d old).memory = d.memory := by simp [Dev.swapEffects]
@[simp] theorem Dev.syncGate_memory (d : Dev) : (Dev.syncGate d).memory = d.memory := by simp [Dev.syncGate]
@[simp] theorem Dev.startClaim_memory (d : Dev) (cause : Nat) : (Dev.startClaim d cause).memory = d.memory := by simp [Dev.startClaim]
@[simp] theorem Dev.enterJoin_memory (d : Dev) : (Dev.enterJoin d).memory = d.memory := by simp [Dev.enterJoin]
@[simp] theorem Dev.shadowAlone_memory (d : Dev) : (Dev.shadowAlone d).memory = d.memory := by simp [Dev.shadowAlone]
@[simp] theorem heartbeatIn_memory (d : Dev) (h : Heartbeat) : (heartbeatIn d h).memory = d.memory := by simp [heartbeatIn]
@[simp] theorem heartbeatOut_memory (d : Dev) : (heartbeatOut d).memory = d.memory := by simp [heartbeatOut]
@[simp] theorem heartbeatLost_memory (d : Dev) : (heartbeatLost d).memory = d.memory := by simp [heartbeatLost]
@[simp] theorem claimSeen_memory (d : Dev) : (claimSeen d).memory = d.memory := by simp [claimSeen]
@[simp] theorem claimGone_memory (d : Dev) : (claimGone d).memory = d.memory := by
  unfold claimGone
  (repeat' split) <;> simp
@[simp] theorem Dev.startVerify_memory (d : Dev) : (Dev.startVerify d).memory = d.memory := by simp [Dev.startVerify]
@[simp] theorem Dev.verifySample_memory (d : Dev) : (Dev.verifySample d).memory = d.memory := by simp [Dev.verifySample]
@[simp] theorem claimGranted_memory (d : Dev) : (claimGranted d).memory = d.memory := by simp [claimGranted]
@[simp] theorem interlockFault_memory (d : Dev) : (interlockFault d).memory = d.memory := by simp [interlockFault]
@[simp] theorem phaseLocked_memory (d : Dev) (f : FrameMark) : (phaseLocked d f).memory = d.memory := by simp [phaseLocked]
@[simp] theorem phaseLost_memory (d : Dev) : (phaseLost d).memory = d.memory := by simp [phaseLost]
@[simp] theorem frameMarked_memory (d : Dev) (f : FrameMark) : (frameMarked d f).memory = d.memory := by simp [frameMarked]
@[simp] theorem joinStarted_memory (d : Dev) : (joinStarted d).memory = d.memory := by simp [joinStarted]
@[simp] theorem Dev.progress_memory (d : Dev) (part bytes : Nat) : (Dev.progress d part bytes).memory = d.memory := by simp [Dev.progress]
@[simp] theorem Dev.copyRec_memory (d : Dev) (r : CopyRec) : (Dev.copyRec d r).memory = d.memory := by
  cases r <;> simp [Dev.copyRec]
@[simp] theorem Dev.copyPm_memory (d : Dev) (r : Addr × PmCtx) : (Dev.copyPm d r).memory = d.memory := by simp [Dev.copyPm]
@[simp] theorem partEnded_memory (d : Dev) (p : PartName) (crcOk : Bool) : (partEnded d p crcOk).memory = d.memory := by
  unfold partEnded
  (repeat' split) <;> simp
@[simp] theorem Dev.restartRevert_memory (d : Dev) : (Dev.restartRevert d).memory = d.memory := by simp [Dev.restartRevert]
@[simp] theorem Dev.startCheck_memory (d : Dev) : (Dev.startCheck d).memory = d.memory := by simp [Dev.startCheck]
@[simp] theorem signaturesIn_memory (d : Dev) (frame : Nat) (values : List (BitVec 32)) : (signaturesIn d frame values).memory = d.memory := by
  unfold signaturesIn
  dsimp only
  (repeat' (first | (simp; done) | split))
@[simp] theorem Dev.checkEvent_memory (d : Dev) (forced : Bool) : (Dev.checkEvent d forced).memory = d.memory := by simp [Dev.checkEvent]
@[simp] theorem Dev.checkOutcome_memory (d : Dev) (own mate : Bool) : (Dev.checkOutcome d own mate).memory = d.memory := by simp [Dev.checkOutcome]
@[simp] theorem Dev.checkDecide_memory (d : Dev) : (Dev.checkDecide d).memory = d.memory := by
  unfold Dev.checkDecide
  split <;> simp
@[simp] theorem selfCheckIn_memory (d : Dev) (mate : Option CheckResult) : (selfCheckIn d mate).memory = d.memory := by
  unfold selfCheckIn
  (repeat' split) <;> simp
@[simp] theorem selfCheckOwn_memory (d : Dev) (own : CheckResult) : (selfCheckOwn d own).memory = d.memory := by simp [selfCheckOwn]
@[simp] theorem selfCheckLate_memory (d : Dev) : (selfCheckLate d).memory = d.memory := by simp [selfCheckLate]
@[simp] theorem releaseIn_memory (d : Dev) (cause : Nat) : (releaseIn d cause).memory = d.memory := by simp [releaseIn]
@[simp] theorem revertDue_memory (d : Dev) : (revertDue d).memory = d.memory := by simp [revertDue]
@[simp] theorem revertRequested_memory (d : Dev) (boundary cause : Nat) : (revertRequested d boundary cause).memory = d.memory := by simp [revertRequested]
@[simp] theorem revertGranted_memory (d : Dev) (b : Nat) : (revertGranted d b).memory = d.memory := by
  unfold revertGranted
  split <;> simp
@[simp] theorem grantLate_memory (d : Dev) : (grantLate d).memory = d.memory := by
  unfold grantLate
  split <;> simp
@[simp] theorem handoverAt_memory (d : Dev) : (handoverAt d).memory = d.memory := by
  unfold handoverAt
  (repeat' split) <;> simp
@[simp] theorem forceHandover_memory (d : Dev) : (forceHandover d).1.memory = d.memory := by simp [forceHandover]
@[simp] theorem pairCtrlApply_memory (v : Nat) (d : Dev) : (pairCtrlApply v d).1.memory = d.memory := by simp [pairCtrlApply]
@[simp] theorem verifyEnd_memory (d : Dev) : (verifyEnd d).memory = d.memory := by simp [verifyEnd]
@[simp] theorem Dev.abortScan_memory (d : Dev) (cause : Nat) : (Dev.abortScan d cause).memory = d.memory := by
  unfold Dev.abortScan
  split <;> simp
@[simp] theorem Dev.abortScans_memory (d : Dev) (cause : Nat) : (Dev.abortScans d cause).memory = d.memory := by simp [Dev.abortScans]
@[simp] theorem startScan_memory (d : Dev) (v : Nat) : (startScan d v).1.memory = d.memory := by
  unfold startScan
  dsimp only
  (repeat' (first | (simp; done) | split))
@[simp] theorem scanCtrlWrite_memory (d : Dev) (v : Nat) : (scanCtrlWrite d v).1.memory = d.memory := by simp [scanCtrlWrite]
@[simp] theorem scanDone_memory (d : Dev) (touched : Bool) (ecc : Ecc) : (scanDone d touched ecc).memory = d.memory := by
  simp only [scanDone]
  (repeat' (first | (simp; done) | split))
@[simp] theorem runningWrite_memory (d : Dev) (n v : Nat) : (runningWrite d n v).1.memory = d.memory := by simp [runningWrite]
@[simp] theorem integrityStart_memory (d : Dev) : (integrityStart d).memory = d.memory := by simp [integrityStart]
@[simp] theorem attemptReport_memory (bank : Nat) (d : Dev) (z0 : Attempt) : (attemptReport bank d z0).memory = d.memory := by
  unfold attemptReport
  split <;> simp
@[simp] theorem integrityEnd_memory (d : Dev) (attempts : List Attempt) (corrected : Nat) : (integrityEnd d attempts corrected).memory = d.memory := by
  simp only [integrityEnd]
  (repeat' (first | (simp; done) | split))
@[simp] theorem Dev.forcedSwitch_memory (d : Dev) (stopped : Bool) : (Dev.forcedSwitch d stopped).memory = d.memory := by simp [Dev.forcedSwitch]
@[simp] theorem Dev.mgmtFallback_memory (d : Dev) (stopped : Bool) : (Dev.mgmtFallback d stopped).memory = d.memory := by simp [Dev.mgmtFallback]
@[simp] theorem Dev.switchRef_memory (d : Dev) (r : Nat) (stopped : Bool) : (Dev.switchRef d r stopped).memory = d.memory := by simp [Dev.switchRef]
@[simp] theorem Dev.enterClamp_memory (d : Dev) (causes : Nat) : (Dev.enterClamp d causes).memory = d.memory := by simp [Dev.enterClamp]
@[simp] theorem Dev.causeEnds_memory (d : Dev) (mask : Nat) : (Dev.causeEnds d mask).memory = d.memory := by simp [Dev.causeEnds]
@[simp] theorem monitorTrip_memory (d : Dev) (s : Source) (stopped : Bool) : (monitorTrip d s stopped).memory = d.memory := by simp [monitorTrip]
@[simp] theorem sourceQualified_memory (d : Dev) (s : Source) : (sourceQualified d s).memory = d.memory := by
  unfold sourceQualified
  split <;> simp
@[simp] theorem Dev.zeroiseBurn_memory (d : Dev) : (Dev.zeroiseBurn d).memory = d.memory := by simp [Dev.zeroiseBurn]
@[simp] theorem clampReleased_memory (d : Dev) : (clampReleased d).memory = d.memory := by simp [clampReleased]
@[simp] theorem referenceReturn_memory (d : Dev) (s : Source) : (referenceReturn d s).memory = d.memory := by
  unfold referenceReturn
  split <;> simp
@[simp] theorem mgmtReturn_memory (d : Dev) : (mgmtReturn d).memory = d.memory := by simp [mgmtReturn]
@[simp] theorem Dev.startRaise_memory (d : Dev) (target : Nat) : (Dev.startRaise d target).memory = d.memory := by simp [Dev.startRaise]
@[simp] theorem voltageSettled_memory (d : Dev) (mv : Nat) : (voltageSettled d mv).memory = d.memory := by simp [voltageSettled]
@[simp] theorem divisorChanged_memory (d : Dev) : (divisorChanged d).memory = d.memory := by simp [divisorChanged]
@[simp] theorem voltageLowered_memory (d : Dev) (mv : Nat) : (voltageLowered d mv).memory = d.memory := by simp [voltageLowered]
@[simp] theorem avsFailed_memory (d : Dev) : (avsFailed d).memory = d.memory := by simp [avsFailed]
@[simp] theorem opOverrideApply_memory (v : Nat) (d : Dev) : (opOverrideApply v d).1.memory = d.memory := by simp [opOverrideApply]
@[simp] theorem opRetry_memory (d : Dev) : (opRetry d).1.memory = d.memory := by simp [opRetry]
@[simp] theorem gatesApply_memory (v : Nat) (d : Dev) : (gatesApply v d).1.memory = d.memory := by simp [gatesApply]
@[simp] theorem blocksResume_memory (d : Dev) : (blocksResume d).memory = d.memory := by simp [blocksResume]
@[simp] theorem timeStepWrite_memory (d : Dev) (v : Nat) : (timeStepWrite d v).1.memory = d.memory := by simp [timeStepWrite]
@[simp] theorem Dev.applyStep_memory (d : Dev) : (Dev.applyStep d).memory = d.memory := by
  unfold Dev.applyStep
  split <;> simp
@[simp] theorem refGateEnd_memory (d : Dev) (s : Source) (count : Nat) (valid : Bool) : (refGateEnd d s count valid).memory = d.memory := by
  unfold refGateEnd
  (repeat' split) <;> simp
@[simp] theorem Dev.endSession_memory (d : Dev) (cause : Nat) : (Dev.endSession d cause).memory = d.memory := by simp [Dev.endSession]
@[simp] theorem Dev.dropEmcy_memory (d : Dev) : (Dev.dropEmcy d).memory = d.memory := by simp [Dev.dropEmcy]
@[simp] theorem Dev.canBootUp_memory (d : Dev) : (Dev.canBootUp d).memory = d.memory := by simp [Dev.canBootUp]
@[simp] theorem Dev.canInit_memory (d : Dev) : (Dev.canInit d).memory = d.memory := by simp [Dev.canInit]
@[simp] theorem canDetected_memory (d : Dev) (code : Nat) : (canDetected d code).memory = d.memory := by simp [canDetected]
@[simp] theorem Dev.canHalt_memory (d : Dev) : (Dev.canHalt d).memory = d.memory := by simp [Dev.canHalt]
@[simp] theorem nmtStart_memory (d : Dev) : (nmtStart d).memory = d.memory := by simp [nmtStart]
@[simp] theorem nmtStop_memory (d : Dev) : (nmtStop d).memory = d.memory := by simp [nmtStop]
@[simp] theorem nmtPreOperational_memory (d : Dev) : (nmtPreOperational d).memory = d.memory := by simp [nmtPreOperational]
@[simp] theorem nmtReset_memory (d : Dev) : (nmtReset d).memory = d.memory := by simp [nmtReset]
@[simp] theorem canHeartbeat_memory (d : Dev) : (canHeartbeat d).memory = d.memory := by simp [canHeartbeat]
@[simp] theorem tpdoInhibitEnd_memory (d : Dev) (n : Nat) : (tpdoInhibitEnd d n).memory = d.memory := by simp [tpdoInhibitEnd]
@[simp] theorem tpdoTimer_memory (d : Dev) (n : Nat) : (tpdoTimer d n).memory = d.memory := by simp [tpdoTimer]
@[simp] theorem syncIn_memory (d : Dev) : (syncIn d).memory = d.memory := by simp [syncIn]
@[simp] theorem sdoTimeout_memory (d : Dev) : (sdoTimeout d).memory = d.memory := by simp [sdoTimeout]
@[simp] theorem modeRequestWrite_memory (v : Nat) (d : Dev) : (modeRequestWrite v d).1.memory = d.memory := by simp [modeRequestWrite]
@[simp] theorem modeGuardedApply_memory (v : Nat) (d : Dev) : (modeGuardedApply v d).1.memory = d.memory := by simp [modeGuardedApply]
@[simp] theorem wakeWrite_memory (v : Nat) (d : Dev) : (wakeWrite v d).1.memory = d.memory := by simp [wakeWrite]
@[simp] theorem Dev.serdesDown_memory (d : Dev) (quiesce : Bool) : (Dev.serdesDown d quiesce).memory = d.memory := by simp [Dev.serdesDown]
@[simp] theorem Dev.pairIdle_memory (d : Dev) : (Dev.pairIdle d).memory = d.memory := by simp [Dev.pairIdle]
@[simp] theorem Dev.enterClaim_memory (d : Dev) (target : Nat) : (Dev.enterClaim d target).memory = d.memory := by simp [Dev.enterClaim]
@[simp] theorem modeChange_memory (d : Dev) : (modeChange d).memory = d.memory := by
  unfold modeChange
  split <;> simp
@[simp] theorem burnDone_memory (d : Dev) (b : Burn) : (burnDone d b).memory = d.memory := by
  unfold burnDone
  split <;> simp
@[simp] theorem Dev.burnAll_memory (d : Dev) : (Dev.burnAll d).memory = d.memory := by simp [Dev.burnAll]
@[simp] theorem sramCleared_memory (d : Dev) : (sramCleared d).memory = d.memory := by simp [sramCleared]
@[simp] theorem slotVerified_memory (d : Dev) (c : SlotContent) : (slotVerified d c).memory = d.memory := by simp [slotVerified]
@[simp] theorem bootEnded_memory (d : Dev) (ms : Nat) : (bootEnded d ms).memory = d.memory := by simp [bootEnded]
@[simp] theorem Dev.holdWrite_memory (d : Dev) (m : Master) (idx sub : Nat) (data : List Byte) : (Dev.holdWrite d m idx sub data).1.memory = d.memory := by
  simp [Dev.holdWrite]
@[simp] theorem Dev.admitting_memory (d : Dev) (s : AdmSnap) : (Dev.admitting d s).memory = d.memory := by simp [Dev.admitting]
@[simp] theorem commitFire_memory (m : Master) (d : Dev) : (commitFire m d).1.memory = d.memory := by simp [commitFire]
@[simp] theorem heldTrigger_memory (m : Master) (sub v : Nat) (f : Dev → Dev × Nat) (d : Dev) (hf : ∀ x : Dev, (f x).1.memory = x.memory) : (heldTrigger m sub v f d).1.memory = d.memory := by
  simp [heldTrigger, hf]
@[simp] theorem Dev.figures_memory (d : Dev) (b : Bank) (sf : Nat) (paired : Bool) (o : AdmOutcome) : (Dev.figures d b sf paired o).memory = d.memory := by
  simp [Dev.figures]
@[simp] theorem Dev.cancelUpset_memory (d : Dev) : (Dev.cancelUpset d).memory = d.memory := by
  unfold Dev.cancelUpset
  split <;> simp
@[simp] theorem Dev.accept_memory (d : Dev) (s : AdmSnap) (o : AdmOutcome) (boundary : Nat) : (Dev.accept d s o boundary).memory = d.memory := by simp [Dev.accept]
@[simp] theorem Dev.refuse_memory (d : Dev) : (Dev.refuse d).memory = d.memory := by
  unfold Dev.refuse
  split <;> simp
@[simp] theorem admissionEnded_memory (d : Dev) (mate : MateAdmission) : (admissionEnded d mate).memory = d.memory := by
  unfold admissionEnded
  split <;> simp
@[simp] theorem pendingResetFire_memory (d : Dev) : (pendingResetFire d).1.memory = d.memory := by simp [pendingResetFire]
@[simp] theorem cancelFire_memory (d : Dev) : (cancelFire d).1.memory = d.memory := by
  unfold cancelFire
  split <;> simp
@[simp] theorem Dev.pinsSwap_memory (d : Dev) (old : Bank) : (Dev.pinsSwap d old).memory = d.memory := by simp [Dev.pinsSwap]
@[simp] theorem Dev.refSwap_memory (d : Dev) : (Dev.refSwap d).memory = d.memory := by simp [Dev.refSwap]
@[simp] theorem Dev.unitSwap_memory (d : Dev) (old : Bank) : (Dev.unitSwap d old).memory = d.memory := by simp [Dev.unitSwap]
@[simp] theorem Dev.swap_memory (d : Dev) (s : Sched) : (Dev.swap d s).memory = d.memory := by simp [Dev.swap]
@[simp] theorem switchedIn_memory (d : Dev) : (switchedIn d).memory = d.memory := by
  unfold switchedIn
  split <;> simp
@[simp] theorem mapSelectWrite_memory (m : Master) (v : Nat) (d : Dev) : (mapSelectWrite m v d).1.memory = d.memory := by simp [mapSelectWrite]
@[simp] theorem Dev.mapAdvance_memory (d : Dev) (m : Master) (n : Nat) : (Dev.mapAdvance d m n).memory = d.memory := by simp [Dev.mapAdvance]
@[simp] theorem plainApply_memory (k : Key) (v : Nat) (d : Dev) : (plainApply k v d).memory = d.memory := by simp [plainApply]
@[simp] theorem sectionApply_memory (p sub : Nat) (data : List Byte) (d : Dev) : (sectionApply p sub data d).memory = d.memory := by simp [sectionApply]
@[simp] theorem applyPaired_memory (d : Dev) (w : PairedWrite) : (applyPaired d w).memory = d.memory := by simp [applyPaired]
@[simp] theorem Dev.applyWaiting_memory (d : Dev) : (Dev.applyWaiting d).memory = d.memory := by simp [Dev.applyWaiting]
@[simp] theorem pairedWriteIn_memory (d : Dev) (w : PairedWrite) : (pairedWriteIn d w).memory = d.memory := by simp [pairedWriteIn]
@[simp] theorem Dev.latchActions_memory (d : Dev) : (Dev.latchActions d).memory = d.memory := by simp [Dev.latchActions]
@[simp] theorem Dev.leaveAis_memory (old d : Dev) : (Dev.leaveAis old d).memory = d.memory := by simp [Dev.leaveAis]
@[simp] theorem Dev.clientFrames_memory (d : Dev) : (Dev.clientFrames d).memory = d.memory := by simp [Dev.clientFrames]
@[simp] theorem Dev.boundarySelections_memory (d : Dev) : (Dev.boundarySelections d).memory = d.memory := by
  simp only [Dev.boundarySelections]
  (repeat' (first | (simp; done) | split))
@[simp] theorem Dev.pairTick_memory (d : Dev) : (Dev.pairTick d).memory = d.memory := by simp [Dev.pairTick]
@[simp] theorem Dev.boundaryPair_memory (d : Dev) (f : Nat) : (Dev.boundaryPair d f).memory = d.memory := by simp [Dev.boundaryPair]
@[simp] theorem Dev.boundaryCheck_memory (d : Dev) : (Dev.boundaryCheck d).memory = d.memory := by simp [Dev.boundaryCheck]
@[simp] theorem frameBoundary_memory (d : Dev) : (frameBoundary d).memory = d.memory := by
  simp only [frameBoundary]
  (repeat' (first | (simp; done) | split))
@[simp] theorem eventIn_memory (d : Dev) (e : EventOp) : (eventIn d e).memory = d.memory := by simp [eventIn]
@[simp] theorem injectFire_memory (d : Dev) : (injectFire d).1.memory = d.memory := by simp [injectFire]
@[simp] theorem faultNWrite_memory (v : Nat) (coincident : Bool) (d : Dev) : (faultNWrite v coincident d).1.memory = d.memory := by simp [faultNWrite]
@[simp] theorem severeNWrite_memory (k v : Nat) (d : Dev) : (severeNWrite k v d).1.memory = d.memory := by simp [severeNWrite]
@[simp] theorem severeWindowWrite_memory (k v : Nat) (d : Dev) : (severeWindowWrite k v d).1.memory = d.memory := by simp [severeWindowWrite]
@[simp] theorem reactionApply_memory (k v : Nat) (d : Dev) : (reactionApply k v d).1.memory = d.memory := by simp [reactionApply]
@[simp] theorem lifecycleApply_memory (v : Nat) (d : Dev) : (lifecycleApply v d).1.memory = d.memory := by simp [lifecycleApply]
@[simp] theorem zeroiseApply_memory (v : Nat) (d : Dev) : (zeroiseApply v d).1.memory = d.memory := by simp [zeroiseApply]
@[simp] theorem Dev.forget_memory (d : Dev) (m : Master) : (Dev.forget d m).memory = d.memory := by simp [Dev.forget]
@[simp] theorem Dev.eraseSecrets_memory (d : Dev) : (Dev.eraseSecrets d).memory = d.memory := by simp [Dev.eraseSecrets]
@[simp] theorem rollbackApply_memory (v : Nat) (d : Dev) : (rollbackApply v d).1.memory = d.memory := by simp [rollbackApply]
@[simp] theorem nonceNew_memory (m : Master) (d : Dev) : (nonceNew m d).1.memory = d.memory := by simp [nonceNew]
@[simp] theorem Dev.nonceGone_memory (d : Dev) (m : Master) : (Dev.nonceGone d m).memory = d.memory := by simp [Dev.nonceGone]
@[simp] theorem tokenWrite_memory (m : Master) (t : List Byte) (d : Dev) : (tokenWrite m t d).1.memory = d.memory := by simp [tokenWrite]
@[simp] theorem tokenChecked_memory (d : Dev) (m : Master) : (tokenChecked d m).memory = d.memory := by simp [tokenChecked]
@[simp] theorem Dev.consumeToken_memory (d : Dev) (m : Master) : (Dev.consumeToken d m).memory = d.memory := by simp [Dev.consumeToken]
@[simp] theorem Dev.tokenActs_memory (d : Dev) (t : List Byte) (kind : Nat) : (Dev.tokenActs d t kind).memory = d.memory := by simp [Dev.tokenActs]
@[simp] theorem tokenApply_memory (m : Master) (kind : Nat) (d : Dev) : (tokenApply m kind d).1.memory = d.memory := by simp [tokenApply]
@[simp] theorem debugClose_memory (d : Dev) : (debugClose d).1.memory = d.memory := by simp [debugClose]
@[simp] theorem lifetimeEnd_memory (d : Dev) : (lifetimeEnd d).memory = d.memory := by simp [lifetimeEnd]
@[simp] theorem challengeNew_memory (d : Dev) : (challengeNew d).1.memory = d.memory := by simp [challengeNew]
@[simp] theorem canOnly_memory (m : Master) (d : Dev) (f : Dev → Dev × Nat) (hf : ∀ x : Dev, (f x).1.memory = x.memory) : (canOnly m d f).1.memory = d.memory := by
  simp [canOnly, hf]
@[simp] theorem Dev.sessionFailed_memory (d : Dev) : (Dev.sessionFailed d).memory = d.memory := by simp [Dev.sessionFailed]
@[simp] theorem sessionResponse_memory (m : Master) (r : List Byte) (d : Dev) : (sessionResponse m r d).1.memory = d.memory := by simp [sessionResponse]
@[simp] theorem responseChecked_memory (d : Dev) : (responseChecked d).memory = d.memory := by
  unfold responseChecked
  split <;> simp
@[simp] theorem sessionEndFire_memory (d : Dev) : (sessionEndFire d).1.memory = d.memory := by simp [sessionEndFire]
@[simp] theorem attestNonceWrite_memory (m : Master) (l : List Byte) (d : Dev) : (attestNonceWrite m l d).1.memory = d.memory := by simp [attestNonceWrite]
@[simp] theorem attestRead_memory (d : Dev) (m : Master) (maxLen : Nat) : (attestRead d m maxLen).1.memory = d.memory := by simp [attestRead]
@[simp] theorem domValue_memory (d : Dev) (m : Master) (idx sub n : Nat) : (domValue d m idx sub n).1.memory = d.memory := by simp [domValue]
@[simp] theorem Dev.freeUsed_memory (d : Dev) (id : Nat) : (Dev.freeUsed d id).memory = d.memory := by simp [Dev.freeUsed]
@[simp] theorem valueOf_memory (d : Dev) (m : Master) (o : ObjDef) (idx sub a : Nat) (len : Option Nat) : (valueOf d m o idx sub a len).1.memory = d.memory := by
  unfold valueOf
  split <;> simp
@[simp] theorem Dev.readError_memory (d : Dev) (m : Master) (region idx sub a : Nat) : (Dev.readError d m region idx sub a).memory = d.memory := by
  simp [Dev.readError]
@[simp] theorem readAt_memory (d : Dev) (m : Master) (idx sub a : Nat) (len : Option Nat) (ecc : Ecc) : (readAt d m idx sub a len ecc).1.memory = d.memory := by
  unfold readAt
  (repeat' split) <;> simp
@[simp] theorem Dev.readObj_memory (d : Dev) (m : Master) (idx sub : Nat) (len : Option Nat) (ecc : Ecc) : (Dev.readObj d m idx sub len ecc).1.memory = d.memory := by
  simp [Dev.readObj]
@[simp] theorem Dev.completed_memory (d : Dev) (z0 : Completion) : (Dev.completed d z0).memory = d.memory := by
  unfold Dev.completed
  split <;> simp
@[simp] theorem contextSelect_memory (m : Master) (a : Nat) (d : Dev) : (contextSelect m a d).1.memory = d.memory := by simp [contextSelect]
@[simp] theorem selectStep_memory (m : Master) (v : Nat) (d : Dev) : (selectStep m v d).1.memory = d.memory := by
  unfold selectStep
  dsimp only
  (repeat' (first | (simp; done) | split))
@[simp] theorem kindWritten_memory (d : Dev) (o : ObjDef) (k : Key) (v hw : Nat) : (kindWritten d o k v hw).1.memory = d.memory := by simp [kindWritten]
@[simp] theorem Dev.selecting_memory {α : Type} (d : Dev) (m : Master) (a : Nat) (f : Dev → Dev × α) (hf : ∀ x : Dev, (f x).1.memory = x.memory) : (Dev.selecting d m a f).1.memory = d.memory := by
  simp [Dev.selecting, hf]
@[simp] theorem Dev.finish_memory (d : Dev) (m : Master) (r : Req) (x : ReadAns) : (Dev.finish d m r x).memory = d.memory := by simp [Dev.finish]
@[simp] theorem Dev.slotError_memory (d : Dev) (b : ReqBody) : (Dev.slotError d b).memory = d.memory := by simp [Dev.slotError]
@[simp] theorem Dev.goesOn_memory (d : Dev) (m : Master) (r : Req) (data : List Byte) : (Dev.goesOn d m r data).memory = d.memory := by
  simp [Dev.goesOn]
@[simp] theorem tableReadOne_memory (d : Dev) (m : Master) (r : Req) (idx sub start count : Nat) (ecc : Ecc) : (tableReadOne d m r idx sub start count ecc).memory = d.memory := by
  unfold tableReadOne
  dsimp only
  generalize findObj idx sub = o
  cases o <;> dsimp only
  · simp
  · split
    · simp
    · (repeat' split) <;> simp
@[simp] theorem pmBlockOne_memory (d : Dev) (m : Master) (r : Req) (n : Nat) (ecc : Ecc) : (pmBlockOne d m r n ecc).memory = d.memory := by
  simp only [pmBlockOne]
  (repeat' (first | (simp; done) | split))
@[simp] theorem Dev.miso_memory (d : Dev) (l : List (BitVec 32)) : (Dev.miso d l).memory = d.memory := by simp [Dev.miso]
@[simp] theorem acceptWord_memory (d : Dev) (n code : Nat) : (acceptWord d n code).memory = d.memory := by simp [acceptWord]
@[simp] theorem acceptAll_memory (d : Dev) (n later code : Nat) : (acceptAll d n later code).memory = d.memory := by simp [acceptAll]
@[simp] theorem frameError_memory (d : Dev) : (frameError d).memory = d.memory := by simp [frameError]
@[simp] theorem fetched_memory (d : Dev) (tag : Nat) (whole : Bool) : (fetched d tag whole).memory = d.memory := by
  unfold fetched
  split <;> simp
@[simp] theorem Dev.tapLoad_memory (d : Dev) (code : Nat) (out : List Byte) : (Dev.tapLoad d code out).memory = d.memory := by simp [Dev.tapLoad]
@[simp] theorem testScan_memory (d : Dev) (code : Nat) (shift pins : List Bool) : (testScan d code shift pins).memory = d.memory := by simp [testScan]
@[simp] theorem samplePreload_memory (d : Dev) (shift pins : List Bool) : (samplePreload d shift pins).memory = d.memory := by simp [samplePreload]
@[simp] theorem privateRun_memory (d : Dev) (code : Nat) (f : Dev → Dev) (hf : ∀ x : Dev, (f x).memory = x.memory) : (privateRun d code f).memory = d.memory := by
  simp [privateRun, hf]
@[simp] theorem traceRead_memory (d : Dev) : (traceRead d).memory = d.memory := by simp [traceRead]
@[simp] theorem shadowOf_memory (d : Dev) (inst : Nat) : (shadowOf d inst).memory = d.memory := by simp [shadowOf]
@[simp] theorem shadowRead_memory (d : Dev) (idx sub inst : Nat) : (shadowRead d idx sub inst).memory = d.memory := by
  simp only [shadowRead]
  (repeat' (first | (simp; done) | split))
@[simp] theorem Dev.setBank_memory (d : Dev) (b : Bool) (x : Bank) : (Dev.setBank d b x).memory = d.memory := by
  simp only [Dev.setBank]
  (repeat' (first | (simp; done) | split))
@[simp] theorem memoryRead_memory (a : Nat) (d : Dev) : (memoryRead a d).memory = d.memory := by
  simp only [memoryRead]
  (repeat' (first | (simp; done) | split))
@[simp] theorem answered_memory (d : Dev) (m : Master) (code : Nat) (data : List Byte) : (answered d m code data).memory = d.memory := by
  simp only [answered]
  (repeat' (first | (simp; done) | split))

@[simp] theorem tpdoSweep_memory (a b : Dev) : (tpdoSweep a b).memory = b.memory := by
  unfold tpdoSweep; simp
end Sys2Proof.Machine
end

