-- ==== Sys2Proof/Machine/Package.lean ====
section
/-!
DEFINITION. The package: which ball carries which signal or supply (R441 to R445; Tables PK-3 to PK-5).
-/
namespace Sys2Proof.Machine

/-- A place on the 49 by 49 grid: its row and its column, 1 to 49. -/
structure Ball where
  row : Nat
  col : Nat
deriving DecidableEq, Repr

/-- The letters of the rows, in order (R443). -/
def rowNames : List String :=
  ["A", "B", "C", "D", "E", "F", "G", "H", "J", "K", "L", "M", "N", "P", "T", "U", "V", "W", "Y"] ++
  ["AA", "AB", "AC", "AD", "AE", "AF", "AG", "AH", "AJ", "AK", "AL", "AM", "AN", "AP", "AT", "AU", "AV", "AW", "AY"] ++
  ["BA", "BB", "BC", "BD", "BE", "BF", "BG", "BH", "BJ", "BK", "BL"]

/-- A ball named by the letters of its row and its column. -/
def ballAt (row : String) (col : Nat) : Ball := { row := rowNames.idxOf row + 1, col := col }

/-- The places in the corners that carry no ball (R443). -/
def noBall : List Ball :=
  [ballAt "A" 1, ballAt "A" 2, ballAt "B" 1, ballAt "C" 1, ballAt "A" 48, ballAt "A" 49, ballAt "B" 49, ballAt "C" 49] ++
  [ballAt "BJ" 1, ballAt "BK" 1, ballAt "BL" 1, ballAt "BL" 2, ballAt "BJ" 49, ballAt "BK" 49, ballAt "BL" 48, ballAt "BL" 49]

/-- The four pins of a serial lane. -/
inductive LanePin where
  | rxp | rxn | txp | txn
deriving DecidableEq, Repr

/-- The four pins of a client port. -/
inductive ClientPin where
  | rxd | rxc | txd | txc
deriving DecidableEq, Repr

/-- The depth of a lane's pin from the edge, for even and odd lanes (Table PK-3). -/
def LanePin.depth (p : LanePin) (odd : Bool) : Nat :=
  let even := match p with
    | .rxp => 2 | .rxn => 3 | .txp => 5 | .txn => 6
  if odd then even + 6 else even

/-- The ball of a pin of a line lane: 0 to 31 west, 32 to 63 east (R444). -/
def lineBall (n : Nat) (p : LanePin) : Ball :=
  let k := n % 32
  let j := p.depth (k % 2 == 1)
  { row := 9 + 2 * (k / 2), col := if n < 32 then j else 50 - j }

/-- The ball of a pin of a TFI lane: 16 to 31 north, 0 to 15 south. -/
def tfiBall (l : Nat) (p : LanePin) : Ball :=
  let m := l % 16
  let i := p.depth (m % 2 == 1)
  { row := if l < 16 then 50 - i else i, col := 15 + 2 * (m / 2) }

/-- The ball of a pin of a mate lane. -/
def mateBall (k : Nat) (p : LanePin) : Ball := { row := p.depth (k % 2 == 1), col := 33 + 2 * (k / 2) }

/-- The ball of a pin of a client port: 0 to 15 west, 16 to 31 east. -/
def clientBall (c : Nat) (p : ClientPin) : Ball :=
  let e := c % 16
  let j := match p with
    | .rxd => 2 + 3 * (e % 4) | .rxc => 3 + 3 * (e % 4) | .txd => 2 + 3 * (e % 4) | .txc => 3 + 3 * (e % 4)
  let i := match p with
    | .rxd => 41 | .rxc => 41 | .txd => 42 | .txc => 42
  { row := i + 2 * (e / 4), col := if c < 16 then j else 50 - j }

/-- Signals along a row, from a column on. -/
def alongRow (row : String) : Nat → List String → List (String × Ball)
  | _, [] => []
  | j, n :: r => (n, ballAt row j) :: alongRow row (j + 1) r

/-- The single-ball signals (Table PK-4). -/
def singleBalls : List (String × Ball) :=
  alongRow "C" 3 ["NODE_ID[6]", "NODE_ID[5]", "NODE_ID[4]", "NODE_ID[3]", "NODE_ID[2]", "NODE_ID[1]", "NODE_ID[0]", "PRIV_SPI",
    "BOOT_SEL[1]", "BOOT_SEL[0]"] ++
  alongRow "C" 38 ["TEST_OUT[0]", "TEST_OUT[1]", "TEST_OUT[2]", "TEST_OUT[3]", "TEST_EN"] ++
  alongRow "C" 44 ["TRST_N", "TDO", "TDI", "TMS", "TCK"] ++
  alongRow "E" 3 ["CAN_TX", "CAN_RX", "FAULT_N", "PPS_IN", "HOME", "RESET_N"] ++
  alongRow "E" 40 ["CLAIM_IN", "CLAIM_OUT"] ++ alongRow "E" 43 ["VSENSE_CORE_N", "VSENSE_CORE_P"] ++
  alongRow "E" 46 ["AVS_SDATA", "AVS_MDATA", "AVS_CLK"] ++
  alongRow "G" 3 ["HSPI_CS_N", "HSPI_SCK", "HSPI_MOSI", "HSPI_MISO", "HSPI_IRQ_N"] ++
  alongRow "G" 40 ["BSPI_IO[0]", "BSPI_IO[1]", "BSPI_IO[2]", "BSPI_IO[3]", "BSPI_SCK", "BSPI_CS_N"] ++
  alongRow "G" 47 ["AUXCLK[1]", "AUXCLK[0]"] ++
  [("XTAL_IN", ballAt "BF" 33), ("XTAL_OUT", ballAt "BF" 35), ("REFCLK_A_N", ballAt "BJ" 33), ("REFCLK_B_N", ballAt "BJ" 35),
   ("REFCLK_A_P", ballAt "BK" 33), ("REFCLK_B_P", ballAt "BK" 35)]

/-- Every ball that carries a signal (R444). -/
def signalBalls : List Ball :=
  let lane := [LanePin.rxp, .rxn, .txp, .txn]
  let client := [ClientPin.rxd, .rxc, .txd, .txc]
  (List.range 64).flatMap (fun n => lane.map (lineBall n)) ++ (List.range 32).flatMap (fun l => lane.map (tfiBall l)) ++
    (List.range 4).flatMap (fun k => lane.map (mateBall k)) ++ (List.range 32).flatMap (fun c => client.map (clientBall c)) ++
    singleBalls.map (fun s => s.2)

/-- The supplies of the supply balls (Table PK-5). -/
inductive Supply where
  | vddCore | vddSram | vddaSd | vddhSd | vddIo33 | vddIo18 | vss
deriving DecidableEq, Repr

/-- The supply of the first row of Table PK-5 that a place matches. -/
def supplyRow (b : Ball) : Supply :=
  let i := b.row
  let j := b.col
  let within := fun (lo hi x : Nat) => lo ≤ x && x ≤ hi
  let line := i % 2 == 1 && within 9 39 i
  if within 15 35 i && within 15 35 j && (i + j) % 2 == 0 then .vddCore
  else if within 13 37 i && within 13 37 j && (i + j) % 2 == 0 then .vddSram
  else if line && [4, 10, 40, 46].contains j then .vddaSd
  else if line && [7, 43].contains j then .vddhSd
  else if [4, 10, 40, 46].contains i && within 15 35 j then .vddaSd
  else if [7, 43].contains i && within 15 35 j then .vddhSd
  else if i == 4 && within 2 12 j then .vddIo33
  else if (i == 6 && within 2 12 j) || ([4, 6].contains i && within 38 48 j) || (within 41 48 i && [7, 43].contains j) then .vddIo18
  else .vss

/-- The supply of a ball that carries no signal; none elsewhere (R445). -/
def supplyOf (b : Ball) : Option Supply :=
  if 1 ≤ b.row && b.row ≤ 49 && 1 ≤ b.col && b.col ≤ 49 && !noBall.contains b && !signalBalls.contains b then some (supplyRow b)
  else none

end Sys2Proof.Machine
end

