-- ==== Sys2Proof/Tests/Slice0.lean ====
section
/-!
SUPPORT. Tests: the checks of WellFormed, small steps of single commands, and for each statement with hypotheses a witness that meets
them.
-/
namespace Sys2Proof.Tests
open Sys2Proof Sys2Proof.Machine
set_option Elab.async false

/-! ## Small states -/

/-- A device with some registers set over the reset state. -/
def tDev (l : List (Nat × Nat)) : Dev := l.foldl (fun d e => d.wr e.1 e.2) devReset

/-- A state with no command waiting. -/
def tSt (d : Dev) : State := { pending := [], dev := d }

/-- A device in a mode (Table MO-1), every block's clock running, and some registers set. -/
def tMode (m : Nat) (l : List (Nat × Nat)) : Dev := tDev ((O.MODE_STATUS, m) :: (O.BLOCK_CLOCK_STATE, 0xFFFFFFF) :: l)

/-- A bank with some values set over the defaults. -/
def tBank (l : List (Nat × Nat)) : Bank := l.foldl (fun b e => bankWr b e.1 e.2) {}

/-! ## The checks of WellFormed: a well-formed command of each kind, and one that the check refuses -/

theorem test_wf_accepts : (Instr.milberInvalidOpcode 7 2).wf = true ∧ (Instr.lolClear 0).wf = true ∧
    (Instr.tfiCellReceived (.tfi 0) (List.replicate 80 0) true).wf = true ∧ (Instr.cellGenerate 0).wf = true ∧
    (Instr.signatures 0 (List.replicate 128 0)).wf = true ∧ (Instr.integrityCheckEnd [.badData] 0).wf = true ∧
    (Instr.extest (List.replicate 555 true) (List.replicate 555 false)).wf = true ∧
    (Instr.sdoTransfer ⟨.expedited, true, 0x2101, 1, [1, 2, 3, 4], true, .none, .clean⟩).wf = true := by decide +kernel

theorem test_wf_refuses_valid_opcode : (Instr.milberInvalidOpcode 6 2).wf = false := by decide
theorem test_wf_refuses_short_cell : (Instr.tfiCellReceived (.tfi 0) (List.replicate 64 0) true).wf = false := by decide +kernel
theorem test_wf_refuses_short_signatures : (Instr.signatures 0 (List.replicate 127 0)).wf = false := by decide +kernel
theorem test_wf_refuses_no_attempt : (Instr.integrityCheckEnd [] 0).wf = false := by decide
theorem test_wf_refuses_short_scan : (Instr.samplePreload (List.replicate 554 true) (List.replicate 555 false)).wf = false := by decide +kernel
theorem test_wf_refuses_long_expedited : (Instr.sdoTransfer ⟨.expedited, true, 0x2101, 1, [1, 2, 3, 4, 5], true, .none, .clean⟩).wf = false := by
  decide

/-! ## Tests of the manual's own examples and tables -/

/-- The ASCII string of Table CV-2. -/
def tDigits : List Byte := [0x31, 0x32, 0x33, 0x34, 0x35, 0x36, 0x37, 0x38, 0x39]

/-- Table CV-2, last column. -/
theorem test_check_values : crcFeed 0 (crcInit 0) tDigits ^^^ crcXor 0 = 0xE3069283 ∧ crcFeed 1 (crcInit 1) tDigits ^^^ crcXor 1 = 0xCBF43926 ∧
    crcFeed 2 (crcInit 2) tDigits ^^^ crcXor 2 = 0x29B1 := by decide +kernel

/-- Scope and Conventions, the example of a VC-12 address. -/
theorem test_vc12_address : mkAddr 1 5 2 2 4 1 = 0x2282A100 ∧ addrValid 0x2282A100 = true ∧ addrValid 0x2282A101 = false := by decide +kernel

/-- The object dictionary's example: the headers of the four Milber frames. -/
theorem test_milber_headers : milberHeader 2 0x3000 1 3 = 0x23000013 ∧ milberHeader 1 0x3000 3 4 = 0x13000034 := by decide

/-- The same example: the WRITE is accepted and selects the VC-12. -/
theorem test_milber_write_selects :
    let c := Instr.milberWrite 0x3000 1 3 4 [0x2282A100] (BitVec.ofNat 32 (crc32c (frameBytes [0x23000013, 4] [0x2282A100])))
    (match exec c (tSt (tMode 1 [])) with
      | .next t => t.dev.out.spi == [0, 0, 0, 0, 0] && t.dev.selected .spi == 0x2282A100
      | _ => false) = true := by decide +kernel

/-- The example of three entries: the fields of a TFI and of a client entry. -/
theorem test_map_entries : entryKind 0x400000070000012C = 1 ∧ entryUnit 0x400000070000012C = 7 ∧ entryTarget 0x400000070000012C = 300 ∧
    entryKind 0x8000000C00000000 = 2 ∧ entryUnit 0x8000000C00000000 = 12 ∧ entryTarget 0xC000000024804900 = 0x24804900 := by decide +kernel

/-- The device's own row of Table OX-1: 2340+k ends at k = 12. -/
theorem test_last_class : indexExists 0x234C = true ∧ indexExists 0x234D = false := by decide +kernel

/-- The examples of Table PK-3: line lane 9, TFI lane 20 and client port 12. -/
theorem test_lane_balls : [LanePin.rxp, .rxn, .txp, .txn].map (lineBall 9) = [ballAt "V" 8, ballAt "V" 9, ballAt "V" 11, ballAt "V" 12] ∧
    [LanePin.rxp, .rxn, .txp, .txn].map (tfiBall 20) = [ballAt "B" 19, ballAt "C" 19, ballAt "E" 19, ballAt "F" 19] ∧
    [ClientPin.rxd, .rxc, .txd, .txc].map (clientBall 12) = [ballAt "BJ" 2, ballAt "BJ" 3, ballAt "BK" 2, ballAt "BK" 3] := by decide +kernel

theorem test_signal_ball_count : signalBalls.length = 580 := by decide +kernel

/-! ## Small steps -/

/-- One step of a command on a device, and a check of the device it leaves. -/
def tAfter (c : Instr) (d : Dev) (p : Dev → Bool) : Bool :=
  match step { pending := [c], dev := d } with
  | .next t => t.pending.isEmpty && p t.dev
  | _ => false

/-- R353: a power-on reset has cause 0, the watchdog 2, and Boot is the mode. -/
theorem test_reset_causes : tAfter (.powerOn 0) (tMode 2 []) (fun e => e.rd O.RESET_CAUSE == 0 && e.inBoot) = true ∧
    tAfter (.watchdogExpiry 0) (tMode 2 []) (fun e => e.rd O.RESET_CAUSE == 2 && e.inBoot) = true := by decide +kernel

/-- R462: a low of 1,999 ns is ignored, one of 10,000 ns resets with cause 1. -/
theorem test_reset_pulse : tAfter (.resetN 1999 0) (tMode 2 []) (fun e => e == tMode 2 []) = true ∧
    tAfter (.resetN 10000 0) (tMode 2 []) (fun e => e.rd O.RESET_CAUSE == 1 && e.inBoot) = true := by decide +kernel

/-- R47: a write that changes a reserved bit of WAKE_CTRL stops the model. -/
theorem test_rsvd_stops : (match exec (.wakeCtrl .spi 0x80) (tSt (tMode 1 [])) with
      | .fault f => f == .rsvdChanged
      | _ => false) = true := by decide +kernel

/-- R352: WAKE_MODE 3 aborts 0609 0030h. -/
theorem test_wake_range : tAfter (.wakeCtrl .spi 6) (tMode 1 []) (fun e => e.spi.abort == 0x06090030) = true := by decide +kernel

/-- Table MO-5: Shadow on a unit without PAIR_EN is refused with cause 5. -/
theorem test_mode_refusal : tAfter (.modeRequestShadow .mgmt) (tMode 1 []) (fun e =>
    e.mgmt.abort == 0x08000022 && e.fld O.MODE_STATUS 16 4 == 5 && e.flag O.MODE_STATUS 21) = true := by decide +kernel

/-- Table TF-1: the sixth correct header in a row leads to SYNC. -/
theorem test_delineation : tAfter (.tfiCellReceived (.mate 3) ([0, 0, 0, 0, 0, 0, 0, 0x55] ++ List.replicate 72 0) true)
    { tMode 2 [(O.PAIR_CTRL, 1), (keyAt O.MATE_LANE_STATUS 3, 2)] with mateLanes := [(3, { good := 5 })] }
    (fun e => e.fld (keyAt O.MATE_LANE_STATUS 3) 1 2 == 2) = true := by decide +kernel

/-- R49: what one master selects, no other master sees. -/
theorem test_selection_is_own : tAfter (.contextSelect .can 0x2282A100) (tMode 1 []) (fun e =>
    e.selected .can == 0x2282A100 && e.selected .spi == 0) = true := by decide +kernel

/-- A byte written to a region by a debugger reads back (R428). -/
theorem test_memory_reads_back : (cellGet (cellPut [] 0x1400000 0xA5) 0x1400000, cellPut [] 44 0) = (some 0xA5, []) := by decide +kernel

/-! ## Witnesses: the queue, the step and the dictionary -/

theorem wit_StepRunsFront : ({ State.reset with pending := [.frameBoundary, .markerTick 0] } : State).pending
    = .frameBoundary :: [.markerTick 0] := by decide

theorem wit_IdleStep : State.reset.pending = [] ∧ ((State.reset.dev.advance State.reset.dev.cycleNs).drain).undoc = false ∧
    (({ devReset with undoc := true }.advance { devReset with undoc := true }.cycleNs).drain).undoc = true := by decide +kernel

theorem wit_OutsideTheEffect : exec .milberNop (tSt (tMode 1 [])) = .next (tSt (tpdoSweep (tMode 1 []) ((tMode 1 []).miso [0]))) := rfl

theorem wit_MemoryOnlyByDebugger : (∀ (a : BitVec 32) (w : Option Byte), Instr.frameBoundary ≠ .dbgMem a w) ∧
    ∃ t, exec .frameBoundary (tSt { tMode 1 [] with mem := [(0x600000, 7)] }) = .next t ∧ (0x600000, 7) ∈ t.dev.mem :=
  ⟨fun _ _ => nofun, _, rfl, by decide +kernel⟩

/-- A state whose memory lists a cell, with a frame boundary waiting. -/
def tBoundary : State := { pending := [.frameBoundary], dev := { tMode 1 [] with mem := [(0x600000, 7)] } }

theorem wit_invariants : Memory.wf tBoundary.dev.mem = true ∧ tBoundary.dev.undoc = false ∧
    tBoundary.dev.spi.queue.length ≤ 16 ∧ tBoundary.dev.canM.queue.length ≤ 16 ∧ tBoundary.dev.mgmt.queue.length ≤ 16 ∧
    ∃ t, step tBoundary = .next t :=
  ⟨by decide +kernel, by decide +kernel, by decide +kernel, by decide +kernel, by decide +kernel, _, rfl⟩

/-- An object with a `sts` bit 0, an `evt` bit 1 and `ctl` bits above. -/
def tObj : ObjDef := { base := 0, sub := 1, ty := .u8, acc := .rw, sts := 1, evt := 2 }

theorem wit_FieldKinds : 255 < 2 ^ tObj.ty.width ∧ 7 < tObj.ty.width ∧ (bit (ctlMask tObj) 7 = true ∧ bit tObj.sts 7 = false ∧ bit tObj.evt 7 = false) ∧
    (bit tObj.sts 0 = true ∧ bit (ctlMask tObj) 0 = false ∧ bit tObj.hwrw 0 = false ∧ bit tObj.rsvd 0 = false ∧ bit tObj.evt 0 = false) ∧
    (bit tObj.evt 1 = true ∧ bit (ctlMask tObj) 1 = false ∧ bit tObj.hwrw 1 = false ∧ bit tObj.rsvd 1 = false ∧ bit tObj.sts 1 = false) ∧
    (({ tObj with whole := .cnt } : ObjDef).whole = .cnt ∧ 254 + 1 < 2 ^ tObj.ty.width) := by decide +kernel

/-- A host that is privileged in Inert, and one that is not. -/
def tPriv : State := tSt (tMode 1 [(O.STRAPS, 0x80)])
def tPlain : State := tSt (tMode 1 [])

theorem wit_reachable : reachable tPriv .spi ∧ reachable tPlain .spi := by unfold reachable outOfBoot; decide +kernel

/-- The table's entry of an object. -/
def tFind (i n : Nat) : ObjDef := (findObj i n).getD tObj

theorem wit_GuardArms : (findObj 0x2001 2 = some (tFind 0x2001 2) ∧ indexExists 0x2001 = true ∧ (tFind 0x2001 2).guard = true ∧
      tPriv.dev.privilege .spi ≠ 0 ∧ (disarmed tPriv .spi).privilege .spi ≠ 0 ∧ lengthOk (tFind 0x2001 2).ty [1].length = true ∧
      guardRange tPriv.dev (tFind 0x2001 2) (ofBytesLE [1]) = true ∧ (disarmed tPlain .spi).privilege .spi = 0) ∧
    (({ tPriv with dev := { tPriv.dev with spi := { arm := some { idx := 0x2001, sub := 2, value := 1 } } } } : State).dev.master .spi).arm
      = some { idx := 0x2001, sub := 2, value := 1 } ∧ (tPriv.dev.master .spi).arm = none := by decide +kernel

theorem wit_GenWriteEditsPending :
    let d := disarmed tPriv .spi
    let o := tFind 0x2101 1
    findObj 0x2101 1 = some o ∧ indexExists 0x2101 = true ∧ o.guard = false ∧ o.acc = .rw ∧ o.gen = true ∧ o.ty.isOctets = false ∧
    o.base * 256 + 1 ≠ O.PATH_TYPE ∧ o.base * 256 + 1 ≠ O.PORT_TYPE ∧ o.base * 256 + 1 ≠ O.MAP_BLOCK ∧
    d.bondedIndex 0x2101 = false ∧ d.gatedObj o 0x2101 = false ∧ lengthOk o.ty [2].length = true ∧ contextCode d o (d.selected .spi) = 0 ∧
    d.heldBack 0x2101 1 true = false ∧ d.editRefused = false ∧ rangeOk d o (d.selected .spi) (ofBytesLE [2]) = true ∧
    ignoredWrite d o 0x2101 (d.selected .spi) = false ∧
    rsvdChanged o (d.genP (dictKey d .spi 0x2101 1 (d.selected .spi))) (ofBytesLE [2]) = false := by decide +kernel

/-- Two contexts of level 1 in the active bank, the one at number 3 selected. -/
def tSel (a : Nat) : State :=
  tSt { tMode 1 [(keyOf O.CONTEXT_SELECT 1, a)] with bankA := { numbers := [(0x2282A100, 3), (0x2282A200, 5)] } }

theorem wit_SelectStep :
    (disarmed (tSel 0x2282A100) .spi).selected .spi = 0x2282A100 ∧
    (let l := numbering (disarmed (tSel 0x2282A100) .spi).active (adLevel 0x2282A100)
     (3, 0x2282A100) ∈ l ∧ (∀ e ∈ l, e.2 = 0x2282A100 → e = (3, 0x2282A100)) ∧ (5, 0x2282A200) ∈ l ∧ 3 < 5 ∧
     (∀ e ∈ l, 3 < e.1 → e = (5, 0x2282A200) ∨ 5 < e.1)) ∧
    (let l := numbering (disarmed (tSel 0x2282A200) .spi).active (adLevel 0x2282A200)
     (5, 0x2282A200) ∈ l ∧ (∀ e ∈ l, e.2 = 0x2282A200 → e = (5, 0x2282A200)) ∧ (∀ e ∈ l, e.1 ≤ 5)) ∧
    (let l := numbering (disarmed (tSel 0x2282A300) .spi).active (adLevel 0x2282A300)
     (∀ e ∈ l, e.2 ≠ 0x2282A300) ∧ (3, 0x2282A100) ∈ l ∧ (∀ e ∈ l, e = (3, 0x2282A100) ∨ 3 < e.1)) ∧
    (disarmed (tSel 0) .spi).selected .spi = 0 ∧ addrValid 0x2282A100 = true ∧ addrValid 0x1000 = false := by decide +kernel

/-! ## Witnesses: transports and CANopen -/

/-- A queued access of the SPI host: behind a request that waits, and with 16 entries occupied. -/
def tReq (tag : Nat) : Req := { tag := tag, body := .read 0x1000 0 4 }

theorem wit_NamedAccessWaits :
    let s := tSt { tMode 1 [] with spi := { queue := [tReq 3] } }
    outOfBoot s ∧ s.dev.nextReq .spi ≠ none ∧ s.dev.occupancy .spi < 16 ∧
    16 ≤ ({ tMode 1 [] with spi := { queue := (List.range 16).map tReq } } : Dev).occupancy .spi := by unfold outOfBoot; decide +kernel

/-- A frame of each of the commands that Table DI-8 spells, with operands at the ends of their ranges. -/
def tFrames : List Instr :=
  [.milberNop, .milberRead 0xFFFF 0xFF 15 4096 0xFFFFFFFF .corrected, .milberWrite 0x2101 1 3 4 [0x80000000] 7,
   .milberTableRead 0x3010 1 0 0x20000000 1024 0, .milberTableWrite 0x3010 1 9 0x20000000 1 [1] 0xFFFFFFFF, .milberFetch 15 false,
   .milberStatus, .milberInvalidOpcode 15 2]

theorem wit_MilberFramesDecode : ∀ c ∈ tFrames, c.wf = true ∧ (encodeMilber c).isSome = true ∧
    (encodeMilber c).bind (decodeMilber .corrected false) = some c := by decide +kernel

/-- The frames of the object dictionary's example, as words. -/
theorem test_milber_words : decodeMilber .clean true [0x23000013, 4, 0x2282A100, 0x12345678, 0]
      = some (.milberWrite 0x3000 1 3 4 [0x2282A100] 0x12345678) ∧
    decodeMilber .clean true [0x13000034, 4, 9, 0] = some (.milberRead 0x3000 3 4 4 9 .clean) ∧
    decodeMilber .clean true [0x00000000] = some .milberNop := by decide +kernel

/-- A state whose SPI queue holds requests. -/
def tQueue (l : List Req) : State := tSt { tMode 1 [] with spi := { queue := l } }

/-- The check value of a Milber frame. -/
def tCrc (words : List Nat) (data : List (BitVec 32)) : BitVec 32 := BitVec.ofNat 32 (crc32c (frameBytes words data))

theorem wit_MilberRequests_queued : outOfBoot (tQueue []) ∧ (tQueue []).dev.spi.queue.length < 16 ∧
    (tQueue []).dev.spi.queue.any (fun r => r.tag == 3) = false ∧ within 1 1 4096 = true ∧ within 4096 1 4096 = true ∧
    (tCrc [milberHeader 1 0x1000 0 3, 4096] []).toNat = crc32c (frameBytes [milberHeader 1 0x1000 0 3, 4096] []) ∧
    ([1] : List (BitVec 32)).length = (4 + 3) / 4 ∧
    (tCrc [milberHeader 2 0x2101 1 3, 4] [1]).toNat = crc32c (frameBytes [milberHeader 2 0x2101 1 3, 4] [1]) ∧
    countOk 0x3010 1 1024 = true ∧ countOk 0x3010 1 1 = true ∧
    (tCrc [milberHeader 3 0x3010 1 3, 0x20000000, 1024] []).toNat = crc32c (frameBytes [milberHeader 3 0x3010 1 3, 0x20000000, 1024] []) ∧
    ([1] : List (BitVec 32)).length = 1 * recordWords (tyOf 0x3010 1) ∧
    (tCrc [milberHeader 4 0x3010 1 3, 0x20000000, 1] [1]).toNat = crc32c (frameBytes [milberHeader 4 0x3010 1 3, 0x20000000, 1] [1]) := by
  unfold outOfBoot; decide +kernel

theorem wit_MilberRequests_documented :
    let queued := fun (b : ReqBody) => (acceptWord ((tQueue []).dev.queueReq .spi { tag := 3, body := b }).1 4 0).drain
    (queued (.read 0x1000 0 4)).undoc = false ∧ (queued (.write 0x2101 1 (unwire (tyOf 0x2101 1) 4 (wordBytes [1])))).undoc = false ∧
    (queued (.tableRead 0x3010 1 0x20000000 1024)).undoc = false ∧
    (queued (.tableWrite 0x3010 1 0x20000000 1 (wordBytes [1]))).undoc = false := by decide +kernel

theorem wit_MilberRequests_refused : within 0 1 4096 = false ∧ within 4097 1 4096 = false ∧ countOk 0x3010 1 0 = false ∧
    countOk 0x3010 1 1025 = false ∧ ([1, 2] : List (BitVec 32)).length ≠ (4 + 3) / 4 ∧
    ([1, 2] : List (BitVec 32)).length ≠ 1 * recordWords (tyOf 0x3010 1) ∧
    (tCrc [] []).toNat ≠ crc32c (frameBytes [milberHeader 1 0x1000 0 3, 1] []) ∧
    16 ≤ (tQueue ((List.range 16).map tReq)).dev.spi.queue.length ∧ (tQueue [tReq 3]).dev.spi.queue.length < 16 ∧
    (tQueue [tReq 3]).dev.spi.queue.any (fun r => r.tag == 3) = true := by decide +kernel

theorem wit_MilberPlainFrames : (tQueue []).dev.spi.queue.find? (fun r => r.tag == 3) = none ∧
    ((tQueue [tReq 3]).dev.spi.queue.find? (fun r => r.tag == 3) = some (tReq 3) ∧ (tReq 3).done = false) ∧
    (let r := { tReq 3 with done := true, abort := 0x06020000 }
     (tQueue [r]).dev.spi.queue.find? (fun r => r.tag == 3) = some r ∧ r.done = true ∧ r.abort ≠ 0) ∧
    (let r := { tReq 3 with done := true, data := [1] }
     (tQueue [r]).dev.spi.queue.find? (fun r => r.tag == 3) = some r ∧ r.done = true ∧ r.abort = 0) := by decide +kernel

/-- A read of a context field that waits for a host slot. -/
def tSlot : State :=
  tSt { tMode 1 [(keyOf O.CONTEXT_SELECT 1, 0x2282A100)] with
    bankA := { numbers := [(0x2282A100, 3)] }, spi := { queue := [{ tag := 0, body := .read 0x3010 1 1 }] } }

theorem wit_HostSlotServesRead : outOfBoot tSlot ∧ tSlot.dev.spi.queue = [{ tag := 0, body := .read 0x3010 1 1 }] ∧ tSlot.dev.canM.queue = [] ∧
    tSlot.dev.mgmt.queue = [] ∧ tSlot.dev.noRequests = false ∧ tSlot.dev.heldBack 0x3010 1 false = false ∧
    needsSlot tSlot.dev .spi (.read 0x3010 1 1) = true ∧ 0x3010 * 256 + 1 ≠ O.PM_BLOCK := by unfold outOfBoot; decide +kernel

/-- A device on the CAN bus in an NMT state. -/
def tCan (n : Nmt) : Dev := { tMode 1 [(O.PRODUCER_HEARTBEAT_TIME, 1000), (keyAt O.TPDO_EVENT_TIMER 3, 100)] with can := { nmt := n, nodeId := 1 } }

/-- An SDO download of one byte. -/
def tSdo (f : SdoFlaw) (w : Bool) : SdoReq :=
  { kind := .expedited, write := w, index := 0x2101, sub := 1, data := [1], sized := true, flaw := f, ecc := .clean }

theorem wit_SdoTransfers : outOfBoot (tSt (tCan .preOperational)) ∧ ((tCan .preOperational).canHears && (tCan .preOperational).canTalks) = true ∧
    (tCan .preOperational).canM.queue.length < 16 ∧ flawCode (tSdo .none true) = 0 ∧ (tSdo .none true).flaw ≠ .stall ∧
    unsized (tSdo .none true) = false ∧ unsized { tSdo .none true with sized := false } = true ∧
    flawCode { tSdo .none true with sized := false } = 0 ∧ flawCode (tSdo .none false) = 0 ∧ flawCode (tSdo .toggle true) ≠ 0 ∧
    flawCode { tSdo .none false with kind := .block 0 } = 0x05040002 ∧ flawCode (tSdo .toggle false) ≠ 0 ∧
    flawCode (tSdo .toggle false) ≠ 0x05040002 ∧
    16 ≤ ({ tCan .operational with canM := { queue := (List.range 16).map tReq } } : Dev).canM.queue.length ∧
    (tSdo .stall true).flaw = .stall ∧ ({ tCan .operational with can := { sdo := some (tSdo .stall true) } } : Dev).can.sdo.isSome = true := by
  unfold outOfBoot; decide +kernel

theorem wit_SdoTransfers_documented :
    let idle := (tCan .preOperational).onCan (fun c => { c with sdo := none })
    let held := fun (r : SdoReq) => (idle.onCan (fun c => { c with sdo := some r })).queuePeak .can
    let runs := fun (r : SdoReq) (q : Req) => (((held r).onCan (fun c => { c with sdo := none })).queueReq .can q).1.drain
    (runs (tSdo .none true) { tag := 16, body := .write 0x2101 1 [1] }).undoc = false ∧
    (runs { tSdo .none true with sized := false } { tag := 16, body := .unsized 0x2101 1 [1] }).undoc = false ∧
    (runs (tSdo .none false) { tag := 16, body := .read 0x2101 1 0 }).undoc = false ∧
    (runs (tSdo .toggle false) { tag := 17, body := .read 0x2101 1 0 }).undoc = false := by decide +kernel

theorem wit_NmtCommands : (tCan .operational).canHears = true ∧ (tCan .operational).can.nmt ≠ .stopped ∧
    (tCan .operational).canM.arm = none ∧ (tCan .silent).canReset = true := by decide +kernel

theorem wit_CanTimers : (tCan .stopped).can.nmt ≠ .silent ∧ (tCan .stopped).can.nmt ≠ .initialising ∧
    (tCan .stopped).rd O.PRODUCER_HEARTBEAT_TIME ≠ 0 ∧ (tCan .stopped).can.waiting.contains 3 = false ∧
    (tCan .stopped).rd (keyAt O.TPDO_EVENT_TIMER 3) ≠ 0 ∧ (tCan .stopped).can.emcyWait = none ∧
    ((tCan .operational).canHears && (tCan .operational).canTalks) = true ∧ (tCan .initialising).can.nmt = .initialising ∧
    (tCan .initialising).onIntOsc = false := by decide +kernel

/-! ## Witnesses: generations -/

/-- A device in Inert with an STM-4 port 0 in both banks (PORT_TYPE 2) and a context selected by the SPI host. -/
def tPort (a : Nat) (numbers : List (Nat × Nat)) : State :=
  let b : Bank := { regs := [(keyAt O.PORT_TYPE 0, 2)], numbers := numbers }
  tSt { tMode 1 [(keyOf O.CONTEXT_SELECT 1, a)] with bankA := b, bankB := b }

theorem wit_PathType : reachable (tPort 0x40000000 []) .spi ∧
    (let d := disarmed (tPort 0x40000000 []) .spi
     let a := d.selected .spi
     let b := d.pendingBank
     d.gateOn gPointer = true ∧ adLevel a = 2 ∧ d.bankHeld = false ∧ d.editRefused = false ∧ provisioned b a = false ∧
     fits b a 2 = true ∧ parentFits b a 2 = true ∧ (∀ e ∈ b.numbers, clashes b a 2 e.1 = false) ∧
     (numbersOf b (adLevel a)).length < (if adLevel a == 2 then 12288 else 49152)) ∧
    (let d := disarmed (tPort 0x2282A100 [(0x2282A100, 0)]) .spi
     adLevel (d.selected .spi) = 1 ∧ provisioned d.pendingBank 0x2282A100 = true) ∧
    (let b := (disarmed (tPort 0x40000000 [(0x40000000, 0)]) .spi).pendingBank
     provisioned b 0x40000000 = true ∧ under b 0x40000000 = []) := by unfold reachable outOfBoot; decide +kernel

theorem wit_PortType :
    let d := disarmed (tPort 0 []) .spi
    d.quadGate (4 / 4) = true ∧ d.bankHeld = false ∧ d.editRefused = false ∧ (6#8).toNat ≤ 6 ∧ 4 % 4 = 0 ∧
    (∀ e ∈ d.pendingBank.numbers, ownerPort d.pendingBank e.1 = 4 → fits (bankWr d.pendingBank (keyAt O.PORT_TYPE 4) 6) e.1
      (typeIn d.pendingBank e.1) = true) ∧ 6 < (7#8).toNat ∧ 5 % 4 ≠ 0 := by decide +kernel

/-- A unit in a mode, pair state, mate state and state of its pending bank; both link and PAIR_EN are on. -/
def tUnit (mode pairState mate pending : Nat) : Dev :=
  tMode mode [(O.PAIR_CTRL, 1), (O.PAIR_STATUS, 0x400 + pairState), (O.MATE_STATUS, mate), (O.PENDING_STATE, pending)]

theorem wit_BankTriggers :
    (let d := disarmed (tSt (tUnit 2 1 0 0)) .spi
     d.triggerHeld 1 = false ∧ d.editRefused = false ∧ d.joinRuns = false ∧ (d.inService && d.paired && d.shadowReady) = false) ∧
    (let d := disarmed (tSt (tUnit 2 1 6 0)) .spi
     d.triggerHeld 1 = false ∧ d.editRefused = false ∧ d.joinRuns = false ∧ (d.inService && d.paired && d.shadowReady) = true) ∧
    (let d := disarmed (tSt (tUnit 3 6 0 0)) .spi
     d.triggerHeld 1 = false ∧ d.editRefused = true ∧ d.triggerHeld 8 = false) ∧
    (let d := disarmed (tSt (tUnit 2 1 0 0)) .spi
     d.triggerHeld 8 = false ∧ d.editRefused = false ∧ d.rd O.PENDING_STATE ≠ 1 ∧ d.prov.sched = none) ∧
    (let d := disarmed (tSt { tUnit 2 1 0 3 with prov := { sched := some {} } }) .spi
     d.prov.sched = some {} ∧ ({} : Sched).committed = false ∧ d.rd O.PENDING_STATE ≠ 1) := by decide +kernel

/-- A mate's answer that plays no part. -/
def tMate : MateAdmission := { result := 0, op := 0, crc := 0, delivered := true, boundary := 9 }

/-- The conditions of a COMMIT in Service. -/
def tSnap (joint : Bool) : AdmSnap :=
  { privileged := true, gates := 0xFFFFFFF, override := 0, unavail := 0, lifecycle := 1, mode := 2, joint := joint, paired := joint, switchAt := 0 }

/-- A bank that is refused: port 1 has a type beside an OTU3 port 0 (R105). -/
def tBad : Bank := { regs := [(keyAt O.PORT_TYPE 0, 6), (keyAt O.PORT_TYPE 1, 1)] }

/-- The check value of the pending bank compiled for a point (R103). -/
def tAdmCrc (d : Dev) (op : Nat) : BitVec 32 := (d.onPending (fun b => compiled b op)).crcOf (!d.activeB)

theorem wit_AdmissionEnds :
    (let d := { tUnit 2 1 0 2 with bankB := tBad, prov := { adm := some (tSnap false) } }
     d.prov.adm = some (tSnap false) ∧ (admitted d d.pendingBank (tSnap false) 0 tMate (tAdmCrc d)).code ≠ 0 ∧ d.prov.mateOld = none) ∧
    (let d := { tUnit 2 1 0 2 with prov := { adm := some (tSnap false) } }
     d.prov.adm = some (tSnap false) ∧ (admitted d d.pendingBank (tSnap false) 0 tMate (tAdmCrc d)).code = 0 ∧
     d.op ≤ (admitted d d.pendingBank (tSnap false) 0 tMate (tAdmCrc d)).op ∧ d.prov.upset = none) := by decide +kernel

theorem wit_CopiesOfBanks : (tUnit 2 1 0 1).undoc = false ∧ (tUnit 2 1 0 1).spi.queue = [] ∧ (tUnit 2 1 0 1).canM.queue = [] ∧
    (tUnit 2 1 0 1).mgmt.queue = [] ∧ (tUnit 2 1 0 1).rd O.PENDING_STATE = 1 ∧ (tUnit 2 1 0 0).rd O.PENDING_STATE ≠ 1 ∧
    (tUnit 3 6 0 0).inShadow = true ∧ (tUnit 3 6 0 0).paired = true ∧ (tUnit 3 6 0 0).linkUp = true ∧ (tUnit 3 6 0 0).rd O.PENDING_STATE = 0 ∧
    (tUnit 2 1 0 0).inShadow = false := by decide +kernel

theorem wit_SwitchInSwaps : (tUnit 2 1 0 3).clamped = false ∧ ({ committed := true } : Sched).committed = true ∧
    ((tUnit 2 1 0 3).set1 O.MODE_STATUS 9).clamped = true ∧ ({ raised := false } : Sched).committed = false ∧
    ({ raised := false } : Sched).raised = false := by decide +kernel

/-- A device in Inert with a level-2 context at number 0 and MAP_BLOCK_SELECT at it. -/
def tMap : State :=
  let b : Bank := { regs := [(keyAt O.PORT_TYPE 0, 2), (keyCtx O.PATH_TYPE 0x40000000, 2)], numbers := [(0x40000000, 0)] }
  tSt { tMode 1 [(keyOf O.MAP_BLOCK_SELECT 1, 0x40000000)] with bankA := b, bankB := b }

theorem wit_MapBlocks : reachable tMap .spi ∧ tMap.dev.gateOn gMapping = true ∧ (disarmed tMap .spi).gateOn gMapping = true ∧
    bits (0x40000000#32).toNat 29 3 = 2 ∧ bits (0x40000000#32).toNat 16 13 = 0 ∧ tMap.dev.rd (keyOf O.MAP_BLOCK_SELECT 1) ≠ 0 ∧
    tMap.dev.rd O.PENDING_STATE ≠ 1 ∧ (disarmed tMap .spi).bankHeld = false ∧ (disarmed tMap .spi).editRefused = false ∧
    entriesCheck (disarmed tMap .spi).pendingBank 2 0 [0] = 0 := by unfold reachable outOfBoot; decide +kernel

theorem wit_FrameBoundaries : (tUnit 3 6 0 0).inShadow = true ∧ (tUnit 3 6 0 0).paired = true ∧ (tUnit 3 6 0 0).linkUp = true ∧
    (tUnit 2 1 0 0).inShadow = false := by decide +kernel

/-! ## Witnesses: lines and frame alignment -/

/-- A bank with an STM-4 port 0, an OTU2 port 4 and an OTU3 port 8. -/
def tLines : Bank :=
  tBank [(keyAt O.PORT_TYPE 0, 2), (keyAt O.PORT_ENABLE 0, 1), (keyAt O.PORT_TYPE 4, 5), (keyAt O.PORT_ENABLE 4, 1),
    (keyAt O.PORT_TYPE 8, 6), (keyAt O.PORT_ENABLE 8, 1)]

/-- A unit in Service on that bank, with some registers set. -/
def tServe (l : List (Nat × Nat)) : Dev := { tMode 2 l with bankA := tLines }

theorem wit_LineReceivers : (tServe []).rxPowered 0 = true ∧ (tServe [(keyAt O.LANE_STATUS 0, 8)]).flag (keyAt O.LANE_STATUS 0) 3 = true ∧
    (tServe []).flag (keyAt O.LANE_STATUS 0) 3 = false ∧ (tServe []).losCauses 0 true false ≠ 0 ∧
    (tServe []).flag (keyAt O.LANE_STATUS 0) 0 = false ∧ (tServe [(keyAt O.LANE_STATUS 0, 1)]).flag (keyAt O.LANE_STATUS 0) 0 = true ∧
    (tServe [(keyAt O.LANE_STATUS 0, 1)]).losCauses 0 true false ≠ 0 ∧ (tServe []).rxPowered 63 = false ∧
    (tServe [(keyAt O.LANE_STATUS 0, 9)]).losCauses 0 false false = 0 := by decide +kernel

theorem wit_QuadPll :
    (let d := tServe [(O.CLOCK_STATUS, 0)]
     d.quadMode 0 ≠ 0 ∧ d.lineRef ≠ 3 ∧ d.flag (quadKey 0) 3 = false ∧ d.line.lost.contains 0 = false ∧ d.traffic = true ∧
     d.quadGate 2 = true ∧ bonded d.active 2 = true) ∧
    (let d := tServe [(O.CLOCK_STATUS, 0), (quadKey 0, 8)]
     d.flag (quadKey 0) 3 = true ∧ d.quadMode 0 ≠ 0 ∧ d.lineRef ≠ 3) ∧
    (let d := tServe [(O.CLOCK_STATUS, 3), (quadKey 0, 8)]
     d.flag (quadKey 0) 3 = true ∧ d.lineRef = 3) := by decide +kernel

theorem wit_LossOfAlignment :
    let d := { tServe [] with line := { lol := [(2, (3, 2)), (15, (2, 3))] } }
    d.traffic = true ∧ d.quadGate 2 = true ∧ bonded d.active 2 = true ∧ 3 ≤ (smLook (0, 0) d.line.lol 2).1 ∧
    (smLook (0, 0) d.line.lol 2).2 < 3 ∧ (smLook (0, 0) d.line.lol 15).1 < 3 ∧ 3 ≤ (smLook (0, 0) d.line.lol 15).2 := by decide +kernel

theorem wit_FreqGate :
    let d := tServe [(keyAt O.LANE_STATUS 0, 8), (keyAt O.LANE_STATUS 4, 8), (keyAt O.LANE_STATUS 11, 8)]
    (∀ l ∈ [0, 4, 11], d.gateBad l = false ∧ d.line.spoiled.contains l = false) ∧ laneType d.active 0 = 2 ∧ laneType d.active 4 = 5 ∧
    laneType d.active 11 = 6 ∧ d.gateBad 1 = true ∧ ({ d with line := { spoiled := [63] } } : Dev).line.spoiled.contains 63 = true := by
  decide +kernel

theorem wit_RxAdaptation :
    (let d := tServe [(keyAt O.LANE_STATUS 0, 8)]
     (rxEqOf d (.line 0)).2.2 = true ∧ d.fld (rxEqOf d (.line 0)).1 26 2 = 0) ∧
    (let d := tServe [(keyAt O.LANE_STATUS 0, 8), (keyAt O.RX_EQ 0, 0x4000000)]
     (rxEqOf d (.line 0)).2.2 = true ∧ d.fld (rxEqOf d (.line 0)).1 26 2 ≠ 0) ∧ (rxEqOf (tServe []) (.tfi 31)).2.2 = false ∧
    (let d := disarmed (tSt (tServe [(keyAt O.LANE_STATUS 0, 8)])) .spi
     (rxEqOf d (.line 0)).2.1 = true ∧ bits (0x08000000#32).toNat 26 2 ≠ 3 ∧
     (d.rd (rxEqOf d (.line 0)).1 ^^^ (0x08000000#32).toNat) &&& 0x70000001 = 0 ∧ (rxEqOf d (.line 0)).2.2 = true ∧
     d.fld (rxEqOf d (.line 0)).1 26 2 = 0) := by decide +kernel

theorem wit_LaneControls : reachable (tSt (tServe [])) .spi ∧ (disarmed (tSt (tServe [])) .spi).quadGate (0 / 4) = true ∧ (1#8).toNat ≤ 1 ∧
    1 < (2#8).toNat ∧ laneOn (disarmed (tSt (tServe [])) .spi).active 63 = false ∧ laneOn (disarmed (tSt (tServe [])) .spi).active 0 = true ∧
    (tMode 5 []).inBisque = true ∧ (disarmed (tSt (tDev [(O.MODE_STATUS, 2)])) .spi).quadGate 15 = true ∧
    reachable (tSt (tDev [(O.MODE_STATUS, 2), (O.BLOCK_CLOCK_STATE, 0)])) .spi ∧
    (disarmed (tSt (tDev [(O.MODE_STATUS, 2), (O.BLOCK_CLOCK_STATE, 0)])) .spi).quadGate 15 = false := by unfold reachable outOfBoot; decide +kernel

/-- Port 0 with a search at its lane. -/
def tSyz (y : Syzygy) : Dev := { tServe [] with align := { syz := [(0, y), (68, y)] } }

theorem wit_SyzygySearch_runs : (tSyz {}).syzRuns 0 = true ∧ (tSyz {}).syzLos 0 = false ∧ (tSyz {}).syzPeriod 0 ≠ 0 ∧
    0 < (tSyz {}).oofLimit ((tSyz {}).syzPort 0) ∧ (tSyz {}).syzRuns (syzKey (.client 4)) = true ∧
    (tSyz {}).syzLos (syzKey (.client 4)) = false ∧ (tSyz {}).syzPeriod (syzKey (.client 4)) ≠ 0 ∧
    0 < (tSyz {}).oofLimit ((tSyz {}).syzPort 68) ∧ (tSyz {}).clientHeld 4 = false ∧
    (tServe [(keyAt O.LANE_STATUS 0, 1)]).syzRuns 0 = true ∧ (tServe [(keyAt O.LANE_STATUS 0, 1)]).syzLos 0 = true := by decide +kernel

theorem wit_SyzygySearch_phases :
    (let y : Syzygy := { pos := 5, phase := some 7, locked := true }
     (y.pos + 2) % (tSyz y).syzPeriod 0 = 7 ∧ y.phase = some 7 ∧ (0 : BitVec 48) ≠ 0xF6F6F6282828 ∧ y.phase ≠ some 8 ∧
     min (y.run + 1) 8 < (tSyz y).oofLimit ((tSyz y).syzPort 0) ∧ (tSyz y).oofLimit ((tSyz y).syzPort 0) ≤ min (7 + 1) 8) ∧
    (let y : Syzygy := { slots := [(3, 7, 8)] }
     y.phase ≠ some 7 ∧ slotOf y 7 = some (3, 7, 8) ∧ slotOf y 9 = none ∧ freeSlot y = some 0) ∧
    (let y : Syzygy := { slots := (List.range 8).map (fun i => (i, i, 1)) }
     slotOf y 9 = none ∧ freeSlot y = none ∧ lanePort (tSyz y).active 0 = 0) := by decide +kernel

theorem wit_SyzygySearch_windows :
    winner {} ((tSyz {}).syzPeriod 0) ((tSyz {}).ifN 0) = none ∧ ({} : Syzygy).phase = none ∧
    (let y : Syzygy := { slots := [(3, 7, 8)] }
     y.phase = none ∧ winner y ((tSyz y).syzPeriod 68) ((tSyz y).ifN 4) = some (3, 7) ∧
     winner y ((tSyz y).syzPeriod 0) ((tSyz y).ifN 0) = some (3, 7) ∧ y.locked = false ∧ bonded (tSyz y).active (0 / 4) = false) ∧
    (let y : Syzygy := { pos := 9, slots := [(3, 7, 8)], pref := 9, locked := true }
     winner y ((tSyz y).syzPeriod 0) ((tSyz y).ifN 0) = some (3, 7) ∧ y.locked = true ∧ 7 ≠ y.pref) ∧
    (let y : Syzygy := { phase := some 7, run := 8 }
     y.phase = some 7 ∧ (tSyz y).oofLimit ((tSyz y).syzPort 0) ≤ y.run ∧ (tSyz y).oofLimit ((tSyz y).syzPort 68) ≤ y.run ∧
     (tSyz y).portOof 0 = false ∧ isOtu (portType (tSyz y).active 0) = false) ∧
    ({ phase := some 7 } : Syzygy).run < (tSyz { phase := some 7 }).oofLimit ((tSyz { phase := some 7 }).syzPort 0) := by decide +kernel

/-- A unit with accumulators of a loss and of its clearing at ports 0 and 4 and the client of port 4. -/
def tAcc (n : Nat × Nat) (l : List (Nat × Nat)) : Dev :=
  { tServe l with align := { lof := [(0, n), (4, n), (68, n)], lom := [(4, n)] } }

theorem wit_LossOfFrame : (tAcc (0, 0) []).syzRuns 0 = true ∧ lanePort (tAcc (0, 0) []).active 0 = 0 ∧
    (tAcc (0, 0) []).genA (keyAt O.LOF_DECLARE 0) ≤ 10 ^ 9 ∧ (tAcc (0, 0) []).genA (keyAt O.LOF_CLEAR 0) ≤ 10 ^ 9 ∧
    smLook (0, 0) (tAcc (10 ^ 9, 10 ^ 9) []).align.lof 0 = (10 ^ 9, 10 ^ 9) ∧ (tAcc (0, 0) []).flag (keyAt O.ALIGN_STATUS 0) 2 = false ∧
    (tAcc (10 ^ 9, 0) [(keyAt O.ALIGN_STATUS 0, 4)]).flag (keyAt O.ALIGN_STATUS 0) 2 = true ∧
    (smLook (0, 0) (tAcc (0, 0) []).align.lof 0).1 < (tAcc (0, 0) []).genA (keyAt O.LOF_DECLARE 0) ∧
    (smLook (0, 0) (tAcc (0, 0) []).align.lof 0).2 < (tAcc (0, 0) []).genA (keyAt O.LOF_CLEAR 0) ∧ (tAcc (0, 0) []).syzRuns (64 + 4) = true ∧
    smLook (0, 0) (tAcc (10 ^ 9, 10 ^ 9) []).align.lof (64 + 4) = (10 ^ 9, 10 ^ 9) := by decide +kernel

/-- Port 4 with runs of its multiframe. -/
def tMf (good bad : Nat) (n : Nat × Nat) (l : List (Nat × Nat)) : Dev :=
  { tServe l with align := { mf := [(4, { good := good, bad := bad })], lom := [(4, n)] } }

theorem wit_Multiframe :
    (let d := tMf 15 0 (0, 0) [(keyAt O.ALIGN_STATUS 4, 8)]
     d.mfRuns 4 = true ∧ d.flag (keyAt O.ALIGN_STATUS 4) 3 = true ∧ d.imN 4 ≤ (smLook {} d.align.mf 4).good ∧
     (smLook {} d.align.mf 4).fly = d.rd (keyAt O.MFAS_LAST 4)) ∧
    (smLook {} (tMf 15 0 (0, 0) [(keyAt O.MFAS_LAST 4, 255)]).align.mf 4).fly ≠ (tMf 15 0 (0, 0) [(keyAt O.MFAS_LAST 4, 255)]).rd (keyAt O.MFAS_LAST 4) ∧
    (let d := tMf 0 15 (10 ^ 9, 10 ^ 9) []
     (smLook {} d.align.mf 4).good < d.imN 4 ∧ d.mfRuns 4 = true ∧ d.flag (keyAt O.ALIGN_STATUS 4) 3 = false ∧
     d.oomM 4 ≤ (smLook {} d.align.mf 4).bad ∧ d.flag (keyAt O.ALIGN_STATUS 4) 4 = false ∧
     d.genA (keyAt O.LOM_DECLARE 4) ≤ (smLook (0, 0) d.align.lom 4).1 ∧ d.genA (keyAt O.LOM_CLEAR 4) ≤ (smLook (0, 0) d.align.lom 4).2) ∧
    (let d := tMf 0 0 (0, 0) []
     (smLook {} d.align.mf 4).bad < d.oomM 4 ∧ (smLook (0, 0) d.align.lom 4).1 < d.genA (keyAt O.LOM_DECLARE 4) ∧
     (smLook (0, 0) d.align.lom 4).2 < d.genA (keyAt O.LOM_CLEAR 4)) := by decide +kernel

/-! ## Witnesses: section overhead, pointers, path overhead -/

theorem wit_SectionFrames : laneOn (tServe []).active 63 = false ∧
    (let e : Dev := { tMode 1 [] with bankA := tLines }
     e.secRuns 0 = false ∧ laneOn e.active 0 = true ∧ e.prbsDrives 0 = false) ∧
    (tServe []).secRuns 0 = true ∧ laneOn (tServe []).active 0 = true ∧ bonded (tServe []).active (0 / 4) = false ∧
    isOtu ((tServe []).portTy 0) = false ∧ (tServe [(keyAt O.ALIGN_STATUS 0, 2)]).soHold 0 = true ∧ (tServe []).soHold 0 = false ∧
    (tServe []).msAisDeclared 0 = false ∧ 1 ≤ (tServe []).portTy 0 ∧ (tServe []).portTy 0 ≤ 4 ∧ (tServe []).portDrives 0 = false ∧
    (tServe [(quadKey 0, 8), (O.PAIR_STATUS, 0x100)]).portDrives 0 = true ∧ lanePort (tServe []).active 0 = 0 ∧ (tServe []).prbsDrives 0 = false ∧
    (tServe [(keyAt O.ALIGN_STATUS 4, 2)]).secRuns 4 = true ∧ (tServe []).portTy 4 = 5 ∧ (tServe []).fld (keyAt O.SO_TEST 4) 16 4 = 0 ∧
    isOtu ((tServe [(keyAt O.ALIGN_STATUS 4, 2)]).portTy 4) = true ∧ (tServe [(keyAt O.ALIGN_STATUS 4, 2)]).soHold 4 = true := by decide +kernel

/-- What one STM-N frame hands to a visit. -/
def tRec : SdhRec := { b1 := 5, b2 := 0, rei := 0, j0 := 0, k := 0, s1 := 0, ms := false }

theorem wit_SectionVisit : (tServe []).secRuns 0 = true ∧
    (({ tServe [] with oh := { rx := [(0, { recs := [.sdh tRec] })] } } : Dev).secRx 0).recs = [.sdh tRec] := by decide +kernel

/-- A unit in a mode on a bank, PAIR_EN and the link as given by registers. -/
def tOn (mode : Nat) (b : List (Nat × Nat)) (l : List (Nat × Nat)) : Dev :=
  { tMode mode l with bankA := tBank ([(keyAt O.PORT_TYPE 0, 2), (keyAt O.PORT_ENABLE 0, 1)] ++ b) }

theorem wit_SectionHost :
    let s := tSt (tOn 2 [(keyAt O.DCC_QUEUE_R 0, 3)] [])
    let r := tSt (tOn 2 [(keyAt O.DCC_QUEUE_R 0, 3)] [(O.PAIR_CTRL, 1), (O.PAIR_STATUS, 0x401), (O.MATE_STATUS, 6)])
    reachable s .spi ∧ s.dev.bondedIndex (0x28C0 + 0) = false ∧ (disarmed s .spi).bondedIndex (0x28C0 + 0) = false ∧
    (disarmed (tSt (tServe [])) .spi).bondedIndex (0x28C0 + 11) = true ∧ s.dev.gateOn gSection = true ∧ (disarmed s .spi).gateOn gSection = true ∧ s.dev.dccOn 0 false = true ∧
    ([0] : List Byte).length ≤ (disarmed s .spi).dccFree 0 false ∧ (disarmed s .spi).inShadow = false ∧
    ((disarmed s .spi).inService && (disarmed s .spi).paired && (disarmed s .spi).shadowReady) = false ∧
    bits ((disarmed s .spi).rd (keyAt O.SO_TEST 0)) 16 4 ≤ 9 ∧
    (disarmed r .spi).inService = true ∧ (disarmed r .spi).paired = true ∧ (disarmed r .spi).shadowReady = true ∧
    ([0] : List Byte).length ≤ (disarmed r .spi).dccFree 0 false ∧
    (disarmed (tSt (tOn 3 [(keyAt O.DCC_QUEUE_R 0, 3)] [])) .spi).inShadow = true ∧
    ([0] : List Byte).length ≤ (disarmed (tSt (tOn 3 [(keyAt O.DCC_QUEUE_R 0, 3)] [])) .spi).dccFree 0 false := by
  unfold reachable outOfBoot; decide +kernel

/-- A VC-4 and a VC-12 in it on port 0 in Service, with some registers and pointer state. -/
def tPath (gen regs : List (Nat × Nat)) (x : PtrRx) : Dev :=
  let d := tOn 2 ([(keyCtx O.PATH_TYPE 0x40000000, 1), (keyCtx O.PATH_TYPE 0x2000A100, 7)] ++ gen) regs
  { d with bankA := { d.bankA with numbers := [(0x2000A100, 0), (0x40000000, 0)] }, ptrRx := [(0x40000000, x)] }

/-- The class of a pointer word on the VC-4, whose state and offset are given. -/
def tClass (word state cur since : Nat) : PtrClass := classify word (ptrRange 1) none state cur (min (since + 1) 3)

theorem wit_PointerInterpretation :
    (let d : Dev := { tPath [] [] {} with rxFrames := [(0, { num := 9 })] }
     d.ptrRuns 0x40000000 = true ∧ d.tuHeld 0x40000000 = false ∧ (d.rxPeriod 0x40000000).map (·.1) = some 9 ∧
     9 ≠ (d.pathRxOf 0x40000000).taken ∧
     9 = (({ d with pathRx := [(0x40000000, { taken := 9 })] } : Dev).pathRxOf 0x40000000).taken) ∧
    (tServe []).ptrRuns 0x40000000 = false ∧ (tPath [] [] {}).rxPeriod 0x40000000 = none ∧
    2 ≤ ({ ais := 2 } : PtrRx).ais ∧ bit ((tPath [] [] {}).genA (keyCtx O.PTR_CTRL 0x40000000)) 4 = false ∧
    (tPath [] [(keyCtx O.PTR_STATUS 0x40000000, 782)] {}).fld (keyCtx O.PTR_STATUS 0x40000000) 0 10 = 782 := by decide +kernel

theorem wit_PointerClasses : tClass 0xFFFF 0 0 3 = .ais ∧ tClass (0x6000 + 782) 0 782 3 = .norm ∧ tClass (0x9000 + 782) 0 5 3 = .ndf ∧
    tClass (0x6000 + (782 ^^^ 0x2AA)) 0 782 3 = .inc ∧ tClass (0x6000 + (0 ^^^ 0x155)) 0 0 3 = .dec ∧ tClass (0x6000 + 782) 0 5 0 = .new ∧
    tClass (0x6000 + 783) 0 782 0 = .inv ∧ (tPath [] [(keyCtx O.PTR_STATUS 0x40000000, 5)] {}).fld (keyCtx O.PTR_STATUS 0x40000000) 16 2 ≠ 2 ∧
    min (({} : PtrRx).lop + 1) 15 < bits ((tPath [] [] {}).genA (keyCtx O.PTR_CTRL 0x40000000)) 0 4 ∧
    bits ((tPath [] [] {}).genA (keyCtx O.PTR_CTRL 0x40000000)) 0 4 ≤ min (({ lop := 14 } : PtrRx).lop + 1) 15 ∧
    (({ new := (782, 2) } : PtrRx).new.1 = bits (0x6000 + 782) 0 10 ∧ 2 ≤ ({ new := (782, 2) } : PtrRx).new.2) := by decide +kernel

theorem wit_PohVisit : (tServe []).runs gPoh = true ∧ provisioned (tServe []).active 0x40000000 = false ∧
    (tPath [] [] {}).runs gPoh = true ∧ provisioned (tPath [] [] {}).active 0x40000000 = true ∧ (tPath [] [(keyCtx O.PTR_STATUS 0x40000000, 0)] {}).pohHeld 0x40000000 = false ∧
    (tPath [] [(keyAt O.ALIGN_STATUS 0, 2)] {}).pohHeld 0x40000000 = true ∧
    ((tPath [] [] {}).pathRxOf 0x40000000).todo = [] ∧
    (let c : RxCont := { bytes := [], bip := some 0, stamp := 0 }
     (({ tPath [] [] {} with pathRx := [(0x40000000, { todo := [c] })] } : Dev).pathRxOf 0x40000000).todo = [c]) ∧
    (tPath [] [] {}).pathType 0x40000000 ≠ 6 := by decide +kernel

theorem wit_Marker :
    let d := tPath [(keyCtx O.POH_CTRL 0x2000A100, 0x800000)] [] {}
    let e := { d with poh := [(0x2000A100, { marker := { ticked := true } })] }
    d.runs gPoh = true ∧ provisioned d.active 0x2000A100 = true ∧ d.markerMode 0x2000A100 = 2 ∧ d.pohMaster 0x2000A100 = 0x2000A100 ∧
    (d.pohOf 0x2000A100).marker.ticked = false ∧ e.markerMode 0x2000A100 = 2 ∧ (e.pohOf 0x2000A100).marker.ticked = true ∧
    (e.pohOf 0x2000A100).marker.back = false ∧ (e.pohOf 0x2000A100).marker.retry = false ∧
    ({ edge := true, retry := true } : Marker).edge = true ∧ ({ edge := true, retry := true } : Marker).retry = true := by decide +kernel

theorem wit_PohHost :
    let s := tSt (tPath [] [(keyOf O.CONTEXT_SELECT 1, 0x40000000)] {})
    let d := disarmed s .spi
    reachable s .spi ∧ d.gateOn gPoh = true ∧ adLevel (d.selected .spi) = 2 ∧ d.hasRecord (d.selected .spi) = true ∧ d.inShadow = false ∧
    (d.inService && d.paired && d.shadowReady) = false ∧ (disarmed (tSt (tServe [])) .spi).hasRecord 0 = false ∧
    (disarmed (tSt ((tPath [] [(keyOf O.CONTEXT_SELECT 1, 0x40000000)] {}).wr O.MODE_STATUS 3)) .spi).inShadow = true := by
  unfold reachable outOfBoot; decide +kernel

/-! ## Witnesses: defects, performance, protection -/

theorem wit_DefectVisits : (tServe []).runs gDefect = true ∧ (tServe []).hasRecord (portAddr 0) = true ∧
    (tServe [(keyAt O.LANE_STATUS 0, 1), (keyAt O.ALIGN_STATUS 0, 2)]).rawPort 0 &&& 0x25 ≠ 0 ∧ adLevel 0x40000000 ≠ 3 ∧
    (tPath [] [] {}).hasRecord 0x40000000 = true ∧ (tPath [] [(keyCtx O.ACTION_STATUS (portAddr 0), 16)] {}).ssf 0x40000000 = true ∧
    (tPath [] [] {}).terminates 0x40000000 = true ∧ threshOf (tPath [] [] {}).active 0x40000000 false ≠ 0 ∧
    (smLook ({}, {}) (tPath [] [] {}).ber 0x40000000).1.full = [] ∧
    (let b : Ber := { full := [7] }
     (smLook ({}, {}) ({ tPath [] [] {} with ber := [(0x40000000, (b, {}))] } : Dev).ber 0x40000000).1.full = 7 :: [] ∧ b.declared = false) := by
  decide +kernel

/-- A unit in Service whose tick is its own, on a PM_TIME_CTRL. -/
def tTick (ctrl status good : Nat) : Dev :=
  { tOn 2 [(O.PM_TIME_CTRL, ctrl)] [(O.PM_TIME_STATUS, status)] with pmTime := { good := good, due := true, started := true } }

theorem wit_Ticks : (tTick 1 0 0).ticksOwn = true ∧ (tTick 1 0 0).flag O.PM_TIME_STATUS 0 = false ∧ (tTick 1 1 0).flag O.PM_TIME_STATUS 0 = true ∧
    (tTick 1 1 0).ticksOwn = true ∧ bit ((tTick 0 0 0).genA O.PM_TIME_CTRL) 0 = false ∧ bit ((tTick 3 0 0).genA O.PM_TIME_CTRL) 1 ≠ false ∧
    bit ((tTick 3 0 2).genA O.PM_TIME_CTRL) 0 = true ∧ bit ((tTick 3 0 2).genA O.PM_TIME_CTRL) 1 = true ∧
    bit ((tTick 1 0 2).genA O.PM_TIME_CTRL) 1 = false ∧ (tTick 1 0 1).pmTime.good < 2 ∧ (tTick 1 0 2).pmTime.good = 2 ∧
    (tTick 1 0 0).tickFollows = false ∧ (tTick 1 0 0).pmTime.due = true ∧ (tTick 1 0 0).runs gPm = true ∧
    (tTick 1 0 0).pmTime.written = false ∧ (tTick 1 0 0).pmTime.started = true := by decide +kernel

/-- A performance record with a sealed second. -/
def tPm (closed : Bool) : Dev :=
  let p : PmCtx := { sealed := some { blocks := 8000 }, closed := closed }
  let c : CpmCtx := { sealed := some {} }
  { tPath [] [] {} with pm := [(0x40000000, p)], cpm := [(31, c)] }

theorem wit_PmRecords : (tPm false).runs gPm = true ∧ (smLook {} (tPm false).pm 0x40000000).sealed = some { blocks := 8000 } ∧
    provisioned (tPm false).active 0x40000000 = true ∧ (smLook {} (tPm false).pm 0x40000000).closed = false ∧
    (smLook {} (tPm true).pm 0x40000000).closed = true ∧ (smLook {} (tPm false).pm 0x40000000).neUn = false ∧
    (smLook {} (tPm false).pm 0x40000000).feRun = 0 ∧ (smLook {} (tPm false).cpm 31).sealed = some {} ∧ (tPm false).pmTime.whole = false ∧
    (tMode 1 []).inBoot = false ∧ (tMode 1 []).clamped = false ∧ (tMode 1 []).runs gPm = false ∧ (tPm false).pmTime.snap = false ∧
    ({ tPm false with pmTime := { snap := true } } : Dev).pmTime.snap = true ∧ (tPm false).gateOn gPm = true ∧
    (tServe [(O.BLOCK_CLOCK_STATE, 0)]).gateOn gPm = false ∧ (smLook {} (tPm false).pm 0x40000000).feUn = false ∧
    (smLook {} (tPm false).pm 0x40000000).neRun = 0 := by decide +kernel

theorem wit_PmHost :
    let s := tSt (tPath [] [(keyOf O.CONTEXT_SELECT 1, 0x40000000)] {})
    let d := disarmed s .spi
    reachable s .spi ∧ d.gateOn gPm = true ∧ adLevel (d.selected .spi) = 2 ∧ d.hasRecord (d.selected .spi) = true ∧ s.dev.gateOn gPm = true ∧
    (disarmed (tSt (tServe [])) .spi).hasRecord ((disarmed (tSt (tServe [])) .spi).selected .spi) = false ∧
    reachable (tSt (tServe [(O.BLOCK_CLOCK_STATE, 0)])) .spi ∧ (disarmed (tSt (tServe [(O.BLOCK_CLOCK_STATE, 0)])) .spi).gateOn gPm = false := by
  unfold reachable outOfBoot; decide +kernel

/-- A selector on the VC-4 of AU-4 0 with the VC-4 of AU-4 1, and a 1+1 group of ports 0 and 4. -/
def tProt (mode : Nat) (l : List (Nat × Nat)) (x : Prot) : Dev :=
  let d := tOn mode [(keyCtx O.PATH_TYPE 0x40000000, 1), (keyCtx O.PATH_TYPE 0x40010000, 1), (keyCtx O.SNCP_PROTECTING 0x40000000, 0x40010000),
    (keyCtx O.SNCP_CTRL 0x40000000, 1), (keyAt O.PORT_TYPE 4, 2), (keyAt O.PORT_ENABLE 4, 1), (keyAt O.PROTECTION_PORT 0, 4),
    (keyAt O.MSP_CTRL 0, 0xC0000000)] l
  { d with bankA := { d.bankA with numbers := [(0x40000000, 0), (0x40010000, 1)] }, prot := [(0x40000000, x), (portAddr 0, x)] }

/-- The selector with a protecting member that is not provisioned. -/
def tAlone : Dev := let d := tProt 2 [] {}; { d with bankA := { d.bankA with numbers := [(0x40000000, 0)] } }

theorem wit_ProtectionTimers : (tProt 2 [] {}).runs gProtection = true ∧ protPartner (tProt 2 [] {}).active 0x40000000 ≠ 0 ∧
    protActive (tProt 2 [] {}).active 0x40000000 = true ∧ protPartner tAlone.active 0x40000000 ≠ 0 ∧
    protActive tAlone.active 0x40000000 = false ∧ ((tProt 2 [] { wtr := some 7 }).protOf (targetAddr (.sncp 0x40000000))).wtr = some 7 ∧
    ((tProt 2 [] { holdW := some (false, false) }).protOf (targetAddr (.sncp 0x40000000))).holdW = some (false, false) ∧
    protActive (tProt 2 [] {}).active (portAddr 0) = true := by decide +kernel

theorem wit_HoldOff :
    let d := tProt 2 [(keyCtx O.ACTION_STATUS (portAddr 0), 16)] { holdW := some (false, false) }
    ((tProt 2 [] {}).memberTriggers 0x40000000 &&& bits (protCtl d.active 0x40000000) 0 6 &&& 0x1F = 0) ∧
    ({ d with latched := [(0x40000000, 1)] } : Dev).memberTriggers 0x40000000 &&& bits (protCtl d.active 0x40000000) 0 6 &&& 0x1F ≠ 0 := by
  decide +kernel

theorem wit_ApsFailure : (tProt 2 [] {}).apsCause 0 .fop = false ∧
    (tProt 2 [] {}).apsCause 0 .archMismatch = true ∧
    (tProt 2 [(keyAt O.MSP_STATUS 0, 0)] {}).flag (keyAt O.MSP_STATUS 0) (apsBit .archMismatch) = false := by decide +kernel

theorem wit_ProtectionCommands :
    reachable (tSt (tProt 2 [] {})) .spi ∧ (disarmed (tSt (tProt 2 [] {})) .spi).gateOn gProtection = true ∧
    adLevel (targetAddr (.msp 63)) = 3 ∧ provisioned (disarmed (tSt (tProt 2 [] {})) .spi).active (targetAddr (.sncp 0x40000000)) = true ∧
    protPartner (disarmed (tSt (tProt 2 [] {})) .spi).active (targetAddr (.sncp 0x40000000)) ≠ 0 ∧
    protPartner (disarmed (tSt (tProt 2 [] {})) .spi).active (targetAddr (.sncp 0x40010000)) = 0 ∧
    provisioned (disarmed (tSt (tProt 2 [] {})) .spi).active (targetAddr (.sncp 0x40010000)) = true ∧
    (disarmed (tSt (tProt 2 [] {})) .spi).inShadow = false ∧ (disarmed (tSt (tProt 3 [] {})) .spi).inShadow = true ∧
    provisioned (disarmed (tSt (tProt 2 [] {})) .spi).active (targetAddr (.sncp 0x40020000)) = false ∧
    (Instr.exercise .spi (.msp 63), 7) ∈ [(Instr.clear .spi (.msp 63), 1), (.lockoutOfProtection .spi (.msp 63), 2),
      (.forcedSwitchToProtection .spi (.msp 63), 3), (.forcedSwitchToWorking .spi (.msp 63), 4), (.manualSwitchToProtection .spi (.msp 63), 5),
      (.manualSwitchToWorking .spi (.msp 63), 6), (.exercise .spi (.msp 63), 7)] := by unfold reachable outOfBoot; decide +kernel

/-! ## Witnesses: clients, the fabric, the pair -/

/-- Client port 31 of a type in a mode, with some registers. -/
def tClient (mode type : Nat) (l : List (Nat × Nat)) : Dev := tOn mode [(keyAt O.CLIENT_CTRL 31, type)] l

theorem wit_ClientReceives : (tClient 2 3 []).clientRuns 31 = true ∧ defectApplies .rai ((tClient 2 3 []).clientType 31) = true ∧
    5 ≤ defectBit .rai ∧ defectApplies .lomf ((tClient 2 3 []).clientType 31) = true ∧ defectBit .lomf < 5 ∧
    (tClient 2 3 []).flag (keyAt O.CLIENT_STATUS 31) (defectBit .rai) = false ∧ (tClient 2 3 []).flag (keyAt O.CLIENT_STATUS 31) 3 = false ∧
    (tClient 2 3 []).clientType 31 = 3 ∧ (tClient 2 3 []).clientDown 31 = false ∧
    (tClient 2 3 [(keyAt O.CLIENT_STATUS 31, 1)]).clientDown 31 = true ∧ (tClient 2 3 []).clientType 31 ≠ 1 ∧ (tClient 2 3 []).clientType 31 ≠ 6 ∧
    ((tClient 2 3 []).clientOf 31).ingress.length + [(0 : Byte)].length * 8 ≤ 4096 ∧ [(0 : Byte)].length * 8 ≤ frameBits ((tClient 2 3 []).clientType 31) ∧
    ((tClient 2 3 []).clientOf 31).starved = false ∧
    (({ tClient 2 3 [] with clients := [(31, { starved := true })] } : Dev).clientOf 31).starved = true ∧
    (tClient 2 0 []).clientRuns 31 = false := by decide +kernel

/-- A report of 16 bytes with a ROLE. -/
def tFar (role : Byte) : List Byte := [0, 0, 0, 1, 0, 0, 0, 0, 0, 0, 0, 0, role, 1, 0, 0]

theorem wit_ClientVisits : (tClient 2 3 []).clientRuns 31 = true ∧ (tClient 2 3 []).genFld (keyAt O.PIN_CTRL 31) 0 2 = 0 ∧
    reachable (tSt (tClient 2 3 [])) .spi ∧ (disarmed (tSt (tClient 2 3 [])) .spi).gateOn gClient = true ∧
    (disarmed (tSt (tClient 3 3 [])) .spi).inShadow = true ∧ (disarmed (tSt (tClient 2 3 [])) .spi).inShadow = false ∧
    ([0] : List Byte).length ≠ 16 ∧ (tFar 3).length = 16 ∧ ((farOf (tFar 3)).role ≠ 1 ∧ (farOf (tFar 3)).role ≠ 2) ∧
    (tFar 2).length = 16 ∧ (farOf (tFar 2)).role = 2 ∧ (farOf (tFar 2)).role ≠ (disarmed (tSt (tClient 2 3 [])) .spi).clientRole 31 ∧
    ((disarmed (tSt (tClient 2 3 [])) .spi).inService && (disarmed (tSt (tClient 2 3 [])) .spi).paired &&
      (disarmed (tSt (tClient 2 3 [])) .spi).shadowReady) = false := by unfold reachable outOfBoot; decide +kernel

/-- A VC-4 whose entry names channel 16,383 of TFI lane 31, with a lane in a state of delineation. -/
def tTfi (st : Nat) (x : TfiLane) (l : List (Nat × Nat)) : Dev :=
  { tPath [(keyCtx O.MAP_ENTRY 0x40000000, 2 ^ 62 + 31 * 2 ^ 32 + 16383)] ((keyAt O.TFI_LANE_STATUS 31, 2 * st) :: l) {} with tfi := [(31, x)] }

/-- A cell of 80 bytes with a right or a wrong HEC. -/
def tCell (right : Bool) : List Byte :=
  let h := headerBytes cellData 16383 0 0 0 false
  (if right then h else h.take 7 ++ [(h.getD 7 0) ^^^ 1]) ++ List.replicate 72 0

theorem wit_Delineation : (tTfi 3 {} []).cellLaneRuns (.tfi 31) = true ∧ (tTfi 3 {} []).fld (laneKey (.tfi 31)) 1 2 = 3 ∧
    (tTfi 0 {} []).cellLaneRuns (.tfi 31) = true ∧ (tTfi 0 {} []).fld (laneKey (.tfi 31)) 1 2 = 0 ∧
    (tTfi 1 { good := 5 } []).fld (laneKey (.tfi 31)) 1 2 = 1 ∧ 5 ≤ ((tTfi 1 { good := 5 } []).cellLane (.tfi 31)).good ∧
    ((tTfi 1 { good := 4 } []).cellLane (.tfi 31)).good < 5 ∧ (tTfi 2 { bad := 6 } []).fld (laneKey (.tfi 31)) 1 2 = 2 ∧
    6 ≤ ((tTfi 2 { bad := 6 } []).cellLane (.tfi 31)).bad ∧ ((tTfi 2 { bad := 5 } []).cellLane (.tfi 31)).bad < 6 ∧
    (tCell true).length = 80 ∧ (tCell false).length = 80 ∧ hec (tCell true) = ((tCell true).getD 7 0).toNat ∧
    hec (tCell false) ≠ ((tCell false).getD 7 0).toNat := by decide +kernel

/-- A cell that waits on egress. -/
def tEgress : Cell := { fin := false, chan := 0, cls := 3, ais := false, cso := 0, seq := 255, payload := List.replicate 64 0 }

/-- The channel with bytes of a container that wait for cells. -/
def tFill (n : Nat) (x : TfiLane) (l : List (Nat × Nat)) : Dev := { tTfi 2 x l with tfiCh := [(0x40000000, { out := List.replicate n 0 })] }

theorem wit_CellsAndCredits_cells : (tFill 63 {} []).runs gTfi = true ∧ provisioned (tFill 63 {} []).active 0x40000000 = true ∧
    entryKind ((tFill 63 {} []).mapEntry 0x40000000) = 1 ∧ entryUnit ((tFill 63 {} []).mapEntry 0x40000000) = 31 ∧
    ((tFill 63 {} []).chOf 0x40000000).out.length < 64 ∧ 64 ≤ ((tFill 64 {} []).chOf 0x40000000).out.length ∧
    (tFill 63 {} []).aisOut ((tFill 63 {} []).feeding 0x40000000) = false ∧ ((tFill 64 {} []).tfiOf 31).egress.length < 256 ∧
    ((tFill 64 { egress := List.replicate 256 tEgress } []).tfiOf 31).egress.length = 256 ∧
    (tFill 0 {} [(keyCtx O.TFI_CH_STATUS 0x40000000, 2)]).fld (keyCtx O.TFI_CH_STATUS 0x40000000) 0 2 = 2 := by decide +kernel

theorem wit_CellsAndCredits_slots : (tTfi 2 {} []).tfiRuns 31 = true ∧ creditFor {} = false ∧
    (∃ c ∈ ({ egress := [tEgress] } : TfiLane).egress, c.fin = false) ∧ (∀ c ∈ ({ egress := [{ tEgress with fin := true }] } : TfiLane).egress, c.fin = true) ∧
    creditFor { limit := some 1 } = true ∧ creditFor { limit := some 0 } = false ∧ nextCell [tEgress] = some (tEgress, []) ∧
    (tTfi 2 {} []).tfiDrives 31 = false := by decide +kernel

theorem wit_PairLink : (tUnit 2 1 6 0).pairRuns = true ∧ (tUnit 2 1 6 0).gateOn gMate = true ∧ (tUnit 1 0 0 0).pairRuns = false ∧
    (tMode 2 []).linkUp = false ∧ (tUnit 2 1 6 0).linkUp = true ∧ (tUnit 2 1 6 0).inShadow = false ∧ (tUnit 3 3 1 0).inShadow = true ∧
    (tUnit 3 3 1 0).paired = true ∧ (tUnit 3 3 1 0).linkUp = true ∧ ((tUnit 3 3 1 0).putFlag O.PAIR_STATUS 15 true).flag O.PAIR_STATUS 15 = true ∧
    (tMode 3 [(keyAt O.MATE_LANE_STATUS 3, 4)]).fld (keyAt O.MATE_LANE_STATUS 3) 1 2 = 2 ∧
    (tMode 3 [(keyAt O.MATE_LANE_STATUS 3, 6)]).fld (keyAt O.MATE_LANE_STATUS 3) 1 2 ≠ 2 ∧ (tUnit 3 7 1 0).pairState = 7 ∧
    (tUnit 3 3 1 0).pairRuns = true := by decide +kernel

/-- A Shadow with its lock and all lanes, in a pair state, with a part of the state copy running. -/
def tJoin (pairState : Nat) (part : Option PartName) (frames : Nat) : Dev :=
  { tMode 3 [(O.PAIR_CTRL, 1), (O.PAIR_STATUS, 0xFC00 + pairState), (O.MATE_STATUS, 1), (O.SYNC_FRAMES, frames)] with
    pair := { part := part, sigHist := [(7, [])] } }

theorem wit_PairJoins : (tUnit 3 3 1 0).copyOn = false ∧ (tUnit 3 3 1 0).inService = false ∧ (tJoin 3 none 0).copyOn = true ∧ (tJoin 5 none 0).copyOn = true ∧ (tJoin 3 none 0).pair.fails < 3 ∧
    copyable O.BIP_ERRORS = true ∧ copyable O.PATH_TYPE = false ∧ O.BIP_ERRORS ≠ O.COPY_PROGRESS ∧ (tJoin 3 none 0).flag O.PAIR_STATUS 15 = true ∧
    (tJoin 3 none 0).fld O.MATE_STATUS 0 4 = 1 ∧ (tJoin 3 none 0).pairState = 3 ∧
    (tJoin 3 (some .generation) 0).pair.part = some .generation ∧ (tJoin 4 (some .pm) 0).pair.part ≠ some .generation ∧
    (tJoin 4 (some .dynamic) 0).pair.part = some .dynamic ∧ (tJoin 4 (some .pm) 0).pair.part = some .pm ∧ PartName.dynamic ≠ .pm ∧
    (tJoin 5 none 14).linkUp = true ∧ (tJoin 5 none 14).pairState = 5 ∧ (tJoin 5 none 14).rd O.SYNC_FRAMES < 15 ∧
    (tJoin 5 none 15).rd O.SYNC_FRAMES = 15 ∧ (tJoin 5 none 14).pair.sigHist.find? (fun e => e.1 == 7) = some (7, []) ∧
    mismatches [] (List.replicate 128 0) = [] ∧ mismatches [] (List.replicate 127 0 ++ [1]) = [127] := by decide +kernel

theorem wit_PairClaims : (tUnit 2 1 6 0).claiming = false ∧ (tUnit 2 1 6 0).inShadow = false ∧
    (let d := tMode 2 [(O.PAIR_STATUS, 0x80)]
     d.claiming = true ∧ d.claimIn = false ∧ d.granted = false ∧ d.paired = false) ∧ (tMode 2 [(O.PAIR_STATUS, 0x280)]).claimIn = true ∧
    (let d := tUnit 3 6 1 0
     d.inShadow = true ∧ d.pairRuns = true ∧ d.linkUp = true ∧ d.claimIn = false ∧ d.claiming = false ∧ d.pairState = 6 ∧ d.faulty = false ∧
     d.suspect = false ∧ d.unresolved = false ∧ d.pair.agreed = none) ∧
    ((tUnit 3 6 1 0).putFlag O.PAIR_STATUS 9 true).claimIn = true ∧
    (let d := tUnit 2 1 6 0
     d.inService = true ∧ d.paired = true ∧ d.pairState = 1 ∧ d.pair.check = false ∧ d.fld O.MATE_STATUS 0 4 = 6 ∧ d.prov.sched = none) ∧
    ({ tUnit 2 1 6 0 with pair := { check := true } } : Dev).pair.check = true ∧
    ({ tUnit 2 1 6 0 with pair := { request := some (4, 5) } } : Dev).pair.request = some (4, 5) ∧
    (let d := (tUnit 3 6 1 0).wr O.PAIR_CTRL 3
     (d.putFlag O.STRAPS 10 true).home = true ∧ d.flag O.PAIR_CTRL 1 = true ∧ d.pairRuns = true) ∧
    ({ tUnit 3 6 1 0 with pair := { revertAt := some 5 } } : Dev).pair.revertAt ≠ none ∧
    ({ tUnit 2 1 6 0 with pair := { request := some (4, 6) } } : Dev).pair.request ≠ some (4, 5) ∧
    (let x : Agreed := { boundary := 4, takes := false, cause := 6 }
     let d : Dev := { tUnit 2 1 6 0 with pair := { agreed := some x } }
     frameReached d.pairFrame x.boundary = false ∧ frameReached (d.wr O.PAIR_FRAME 4).pairFrame x.boundary = true ∧ x.cause ≠ 7) ∧
    (let d : Dev := { tUnit 3 6 1 0 with pair := { agreed := some { boundary := 4, takes := true, cause := 6 } } }
     d.pair.agreed = some { boundary := 4, takes := true, cause := 6 } ∧ d.linkUp = true ∧ frameReached (d.wr O.PAIR_FRAME 5).pairFrame 4 = true) := by decide +kernel

/-- A unit with a self-check. -/
def tCheck (own : Option CheckResult) : Dev := { tUnit 2 1 6 0 with pair := { check := true, ownCheck := own, verify := true } }

theorem wit_PairChecks : (tUnit 2 1 6 0).pairRuns = true ∧ (tUnit 2 1 6 0).pair.check = false ∧ (tCheck none).pairRuns = true ∧
    (tCheck none).pair.check = true ∧ (tCheck none).pair.ownCheck = none ∧ (tCheck none).pair.mateCheck = none ∧
    (tCheck (some ⟨false, false, false⟩)).pair.ownCheck = some ⟨false, false, false⟩ ∧ checkFails ⟨false, false, false⟩ = false ∧
    (tCheck none).pair.verify = true ∧ (tUnit 2 1 6 0).pair.verify = false := by decide +kernel

/-- A state in which the management master is armed for a value. -/
def tArm (d : Dev) (idx n v : Nat) : State := tSt { d with mgmt := { arm := some { idx := idx, sub := n, value := v } } }

theorem wit_PairControls :
    armedFor (tArm (tMode 1 []) 0x2501 1 0x101) .mgmt 0x2501 1 0x101 ∧ armedFor (tArm (tUnit 2 1 6 0) 0x2501 2 1) .mgmt 0x2501 2 1 ∧
    armedFor (tArm (tUnit 3 6 1 0) 0x2501 2 1) .mgmt 0x2501 2 1 ∧
    (let d := taken (tArm (tMode 1 []) 0x2501 1 0x101) .mgmt
     (d.rd O.PAIR_CTRL ^^^ 0x101) &&& 0xFFFFFEFC = 0 ∧ bit 0x101 0 = true ∧ d.inService = false ∧ d.inShadow = false ∧ bit 0x101 8 = true ∧
     bit 1 8 = false) ∧
    (let d := taken (tArm (tUnit 2 1 6 0) 0x2501 2 1) .mgmt
     d.pairState = 1 ∧ d.mateReady = true ∧ d.pair.request = none ∧ d.pair.agreed = none) ∧
    (taken (tArm (tUnit 3 6 1 0) 0x2501 2 1) .mgmt).pairState ≠ 1 := by unfold armedFor reachable outOfBoot; decide +kernel

/-! ## Witnesses: modes, clocks, faults, check values, security, test -/

theorem wit_ModeRequests :
    modeRefusal (disarmed (tSt (tMode 1 [(O.ACTIVE_GENERATION, 1)])) .mgmt) 2 false = 0 ∧
    modeRefusal (disarmed (tSt (tMode 1 [])) .mgmt) 2 false ≠ 0 ∧
    armedFor (tArm (tMode 1 []) 0x2001 2 5) .mgmt 0x2001 2 5 ∧ modeRefusal (taken (tArm (tMode 1 []) 0x2001 2 5) .mgmt) 5 true = 0 ∧
    armedFor (tArm (tMode 5 []) 0x2001 2 5) .mgmt 0x2001 2 5 ∧ modeRefusal (taken (tArm (tMode 5 []) 0x2001 2 5) .mgmt) 5 true ≠ 0 := by
  unfold armedFor reachable outOfBoot; decide +kernel

/-- A device with a mode change that waits. -/
def tTrans (mode target : Nat) (h : Option Nat) : Dev := { tMode mode [] with mode := { trans := some { target := target, handshake := h } } }

theorem wit_ModeChangeAtFrame : (tMode 1 []).mode.trans = none ∧ (tTrans 1 2 none).mode.trans = some { target := 2 } ∧
    (tTrans 1 2 none).clamped = false ∧ (tTrans 1 2 none).swapCommitted = false ∧ ((tTrans 1 2 none).set1 O.MODE_STATUS 9).clamped = true ∧
    (tTrans 2 4 (some 4)).mode.trans = some { target := 4, handshake := some 4 } ∧
    ({ tTrans 1 2 none with prov := { sched := some { committed := true } } } : Dev).swapCommitted = true := by decide +kernel

theorem wit_WakeControl : bits (6#8).toNat 1 2 = 3 ∧ bits (5#8).toNat 1 2 ≠ 3 ∧
    ((disarmed (tSt (tMode 1 [])) .spi).rd O.WAKE_CTRL ^^^ (5#8).toNat) &&& 0xF8 = 0 ∧
    ((disarmed (tSt (tMode 1 [])) .spi).rd O.WAKE_CTRL ^^^ (0x80#8).toNat) &&& 0xF8 ≠ 0 := by decide +kernel

/-- A device in a stage of Boot. -/
def tBoot (b : BootStage) (l : List (Nat × Nat)) : Dev := { tMode 0 l with mode := { boot := b } }

theorem wit_ResetsAndBoot : (tMode 1 [(O.SEC_STATUS, 8)]).halted = true ∧ (tMode 1 []).halted = false ∧
    armedFor (tArm (tMode 1 []) 0x2001 3 1) .mgmt 0x2001 3 1 ∧ (tMode 1 []).sec.burns = [] ∧
    ({ tMode 1 [] with sec := { burns := [.lifecycle 3] } } : Dev).sec.burns = [.lifecycle 3] ∧ (tBoot .memoryClear []).inBoot = true ∧
    (tBoot .memoryClear []).mode.boot = .memoryClear ∧ (tBoot .firstSlot []).clamped = false ∧ (tBoot .firstSlot []).mode.boot = .firstSlot ∧
    (tBoot .secondSlot []).mode.boot = .secondSlot ∧ slotError (tBoot .firstSlot []) false .unreadable ≠ 0 ∧
    (tBoot .firmware [(O.CLOCK_STATUS, 64)]).inBoot = true ∧ (tBoot .firmware [(O.CLOCK_STATUS, 64)]).clamped = false ∧
    (tBoot .firmware [(O.CLOCK_STATUS, 64)]).mode.boot = .firmware ∧ (tBoot .firmware [(O.CLOCK_STATUS, 64)]).flag O.CLOCK_STATUS 6 = true ∧
    (1999 : Nat) < 2000 ∧ (2000 : Nat) < 10000 := by unfold armedFor reachable outOfBoot; decide +kernel

/-- A device with every source qualified, on a line reference. -/
def tGood (mode ref : Nat) (l : List (Nat × Nat)) : Dev :=
  [Source.intosc, .xtal, .refA, .refB, .synth, .mgmtPll, .corePll, .tfiPll].foldl (fun d x => d.putFlag O.CLOCK_STATUS (sourceBit x) true)
    (tMode mode ((O.CLOCK_STATUS, ref) :: (O.CLAMP_CAUSE, 0) :: l))

theorem wit_ClockSources_monitors : (tMode 1 [(O.CLOCK_STATUS, 0)]).qualified .tfiPll = false ∧
    (tMode 1 [(O.CLOCK_STATUS, 0)]).qualified .xtal = false ∧
    (let d := tGood 1 0 [(O.CLAMP_CAUSE, 1)]
     d.flag O.CLAMP_CAUSE 0 = true ∧ d.flag O.CLOCK_STATUS 8 = false ∧ d.inBoot = false ∧ d.refSelected ≠ 3) ∧
    (tGood 1 0 []).flag O.CLAMP_CAUSE 0 = false ∧
    (let d := { tGood 1 0 [] with bankA := tBank [(O.REF_CTRL, 7)] }
     d.qualified .mgmtPll = true ∧ d.qualified .intosc = true ∧ d.flag O.CLOCK_STATUS 8 = false ∧ d.qualified .corePll = true ∧
     d.inBoot = false ∧ d.qualified .refA = true ∧ d.refSelected = 0 ∧ d.refUsable 1 = true ∧ d.refSelected ≠ 3 ∧ d.qualified .xtal = true ∧
     d.clamped = false) ∧
    (let d := { tGood 1 3 [] with bankA := tBank [(O.REF_CTRL, 7)] }
     d.inBoot = false ∧ d.refSelected = 3 ∧ d.qualified .xtal = true ∧ d.genBit O.REF_CTRL 0 = true) := by decide +kernel

theorem wit_ClockSources_clamp : (tGood 1 0 [(O.MODE_STATUS, 0x201)]).clamped = true ∧
    ((tGood 1 0 []).wr O.CLAMP_CAUSE 16).rd O.CLAMP_CAUSE % 2 ^ 16 ≠ 0 ∧
    (let d := tGood 1 0 [(O.MODE_STATUS, 0x202)]
     d.clamped = true ∧ d.rd O.CLAMP_CAUSE % 2 ^ 16 = 0 ∧ d.flag O.CLOCK_STATUS 8 = false ∧ d.qualified .mgmtPll = true ∧
     d.qualified .corePll = true ∧ d.qualified .tfiPll = true ∧ 2 ≤ d.modeCode) ∧
    (let d := { tGood 1 1 [] with bankA := tBank [(O.REF_CTRL, 15)] }
     d.inBoot = false ∧ d.refSelected ≠ 3 ∧ d.refUsable 0 = true ∧ d.refSelected = 1 ∧ d.genBit O.REF_CTRL 3 = true) ∧
    (let d := { tGood 1 1 [] with bankA := tBank [(O.REF_CTRL, 7)] }
     d.refSelected = 1 ∧ d.genBit O.REF_CTRL 3 = false ∧ d.qualified .xtal = true) ∧
    (disarmed (tSt (tMode 1 [])) .spi).inShadow = false ∧ (disarmed (tSt (tMode 3 [])) .spi).inShadow = true := by decide +kernel

/-- Operating points: the running one, the target, the failed ones and OP_TRANSITION; a raise or a lowering in progress. -/
def tOp (op target failed : Nat) (moving : Bool) (c : Clk) : Dev :=
  { tMode 1 [(O.OP_STATUS, op + 4 * target + 16 * failed + 256 * ofBit moving)] with clk := c }

theorem wit_OperatingPoints : (tOp 2 1 0 true { raise := true }).clk.raise = true ∧ (tOp 2 1 0 false {}).clk.raise = false ∧
    ({ tOp 2 1 0 true { raise := true } with prov := { sched := some {} } } : Dev).prov.sched.isSome = true ∧
    (tOp 2 2 0 true { lower := true }).clk.lower = true ∧ (tOp 2 2 0 true { lower := true }).op = (tOp 2 2 0 true { lower := true }).targetOp ∧
    (tOp 2 2 0 false {}).clk.lower = false ∧ (tOp 2 1 0 true { raise := true, settled := true }).op ≠ (tOp 2 1 0 true { raise := true, settled := true }).targetOp ∧
    (tOp 2 1 0 true { raise := true, settled := true }).clk.settled = true ∧
    armedFor (tArm (tOp 2 2 1 false {}) 0x2102 1 1) .mgmt 0x2102 1 1 ∧ (taken (tArm (tOp 2 2 1 false {}) 0x2102 1 1) .mgmt).flag O.OP_STATUS (4 + (1 - 1)) = true ∧
    (1 - 1 < (taken (tArm (tOp 2 1 0 true {}) 0x2102 1 1) .mgmt).op ∧ (taken (tArm (tOp 2 1 0 true {}) 0x2102 1 1) .mgmt).flag O.OP_STATUS 8 = true) ∧
    (let f := taken (tArm (tOp 1 1 0 false {}) 0x2102 1 3) .mgmt
     3 ≠ f.rd O.OP_OVERRIDE ∧ f.op ≤ 3 - 1 ∧ f.flag O.OP_STATUS (4 + (3 - 1)) = false) ∧
    (let f := taken (tArm (tOp 2 2 0 false {}) 0x2102 1 1) .mgmt
     1 ≠ f.rd O.OP_OVERRIDE ∧ 1 - 1 < f.op ∧ f.flag O.OP_STATUS 8 = false ∧ f.flag O.OP_STATUS (4 + (1 - 1)) = false) ∧
    armedFor (tArm (tMode 1 [(O.BLOCK_CLOCK_ENABLE, 1)]) 0x2110 1 3) .mgmt 0x2110 1 3 ∧
    ((taken (tArm (tMode 1 [(O.BLOCK_CLOCK_ENABLE, 1)]) 0x2110 1 3) .mgmt).rd O.BLOCK_CLOCK_ENABLE ^^^ 3) &&& 0xF0000000 = 0 ∧
    ((taken (tArm (tMode 1 [(O.BLOCK_CLOCK_ENABLE, 1)]) 0x2110 1 0x80000001) .mgmt).rd O.BLOCK_CLOCK_ENABLE ^^^ 0x80000001) &&& 0xF0000000 ≠ 0 ∧
    (tMode 1 []).traffic = false ∧ (tMode 2 []).traffic = true := by unfold armedFor reachable outOfBoot; decide +kernel

/-- An event of LOF on port 63. -/
def tEvent (source : BitVec 16) : EventOp :=
  { source := source, level := 3, addr := 0, detail := 2, clear := false, forced := false, injected := false }

/-- A window whose pulse is the last reaction left. -/
def tWindow : Window := { seq := 0, source := 0x63F, injected := false, want := 1, ran := 15, pulse := true }

theorem wit_FaultCollection : sourceExists (tEvent 0x640).source.toNat = false ∧ sourceExists (tEvent 0x63F).source.toNat = true ∧
    (tEvent 0x63F).source.toNat / 256 ≠ 1 ∧ (tMode 1 []).collecting = true ∧ (tMode 1 []).coma.windows = [] ∧
    smLook (0, 0) (tMode 1 []).coma.counts 0x63F = (0, 0) ∧ (tMode 1 []).severeN 6 ≠ 1 ∧
    (tMode 1 [(keyAt O.SEVERE_N 6, 1)]).severeN 6 = 1 ∧ (tMode 1 []).coma.windows.any (fun w => w.injected == false && w.pulse) = false ∧
    (({ tMode 1 [] with coma := { windows := [tWindow] } } : Dev).coma.windows = [tWindow] ∧ tWindow.pulse = true ∧
     tWindow.want &&& (15 ^^^ tWindow.ran) = 0 ∧ tWindow.acked = false) ∧
    (disarmed (tSt (tMode 1 [])) .spi).inBisque = false ∧ (disarmed (tSt (tMode 5 [(O.INJECT_SOURCE, 0x63F)])) .spi).inBisque = true ∧
    sourceExists ((disarmed (tSt (tMode 5 [(O.INJECT_SOURCE, 0x63F)])) .spi).rd O.INJECT_SOURCE % 65536) = true ∧
    ((disarmed (tSt (tMode 1 [])) .spi).rd O.FAULT_N_CTRL ^^^ (8#8).toNat) &&& 0xF0 = 0 ∧
    armedFor (tArm (tMode 1 []) (0x2340 + 12) 3 15) .mgmt (0x2340 + 12) 3 15 ∧
    ((taken (tArm (tMode 1 []) (0x2340 + 12) 3 15) .mgmt).rd (keyAt O.REACTION 12) ^^^ 15) &&& 0xF0 = 0 := by
  unfold armedFor reachable outOfBoot; decide +kernel

/-- A host scan set up over a range, with a scan in progress or none. -/
def tScan (ctrl start len : Nat) (c : Cvu) : State :=
  tSt { tMode 1 [(O.SCAN_CTRL, ctrl), (O.SCAN_START, start), (O.SCAN_LENGTH, len)] with cvu := c }

/-- A scan of the body of bank A. -/
def tRun : Scan := { alg := 0, start := 0x40, len := 0x1FFFC0, frozen := false, init := true }

theorem wit_CheckValueUnit_scan : (disarmed (tSt (tMode 1 [(O.BLOCK_CLOCK_STATE, 0)])) .spi).gateOn gCheck = false ∧
    (let f := disarmed (tScan 1 0x40 0x1FFFC0 {}) .spi
     f.gateOn gCheck = true ∧ bits (f.rd O.SCAN_CTRL) 2 2 ≠ 3 ∧ bit (f.rd O.SCAN_CTRL) 5 = false ∧ bit (f.rd O.SCAN_CTRL) 4 = false ∧
     f.cvu.host = none ∧ f.rd O.SCAN_START % 8 = 0 ∧ f.rd O.SCAN_LENGTH % 8 = 0 ∧ 8 ≤ f.rd O.SCAN_LENGTH ∧
     scanRegion (f.rd O.SCAN_START) (f.rd O.SCAN_LENGTH) = some 0 ∧ bit (f.rd O.SCAN_CTRL) 1 = false ∧ f.channelBusy 3 = false) ∧
    (disarmed (tScan 1 0x40 8 { host := some tRun }) .spi).cvu.host.isSome = true ∧
    (disarmed (tScan 1 0x40 8 { host := some tRun }) .spi).channelBusy 3 = true ∧
    (disarmed (tScan 1 0x44 8 {}) .spi).rd O.SCAN_START % 8 ≠ 0 ∧ (disarmed (tScan 1 0x40 7 {}) .spi).rd O.SCAN_LENGTH % 8 ≠ 0 ∧
    (disarmed (tScan 1 0x40 0 {}) .spi).rd O.SCAN_LENGTH < 8 ∧ scanRegion 0x1FFFF8 16 = none ∧
    (let f := disarmed (tScan 3 0x800000 8 {}) .spi
     bit (f.rd O.SCAN_CTRL) 1 = true ∧ scanRegion 0x800000 8 = some 2 ∧ f.isPendingRegion 2 = false) ∧
    (let f := disarmed (tScan 3 0x400040 8 {}) .spi
     scanRegion 0x400040 8 = some 1 ∧ f.isPendingRegion 1 = true ∧ f.rd O.PENDING_STATE = 0) ∧
    (let f := disarmed (tScan 3 0x1400000 8 {}) .spi
     bit (f.rd O.SCAN_CTRL) 1 = true ∧ scanRegion 0x1400000 8 = some 4) := by decide +kernel

theorem wit_CheckValueUnit_checks :
    (let d := (tScan 1 0x40 8 { host := some tRun }).dev
     d.cvu.host = some tRun ∧ d.displaced = false ∧ tRun.alg = 0 ∧ tRun.init = true ∧ tRun.len = 0x1FFFC0 ∧ tRun.start = 0x40) ∧
    (tScan 1 0x40 8 { host := some tRun, integ := true }).dev.displaced = true ∧ (tScan 1 0x40 8 {}).dev.integDisplaced = false ∧
    ({ (tCheck none) with cvu := { integ := true } } : Dev).integDisplaced = true ∧
    (let d := tMode 1 [(O.INTEGRITY_PERIOD, 1)]
     d.inBoot = false ∧ d.clamped = false ∧ d.gateOn gCheck = true ∧ d.cvu.integ = false ∧ d.rd O.INTEGRITY_PERIOD ≠ 0) ∧
    (let d := (tScan 0 0 0 { integ := true }).dev
     d.cvu.integ = true ∧ d.active.genCrc.toNat = (0#32).toNat ∧ d.active.genCrc.toNat ≠ (1#32).toNat ∧ d.flag O.CV_STATUS 8 = false) := by
  decide +kernel

/-- A device in a lifecycle state and mode, the management master armed. -/
def tLife (lifecycle mode n v : Nat) : State := tArm (tMode mode [(O.LIFECYCLE, lifecycle)]) 0x2201 n v

theorem wit_Lifecycle : armedFor (tLife 0 1 1 1) .mgmt 0x2201 1 1 ∧ (taken (tLife 0 1 1 1) .mgmt).lifecycle = 0 ∧
    (taken (tLife 0 1 1 1) .mgmt).inInert = true ∧ (taken (tLife 1 1 1 1) .mgmt).lifecycle ≠ 0 ∧ armedFor (tLife 3 1 2 0xA5) .mgmt 0x2201 2 0xA5 ∧
    (taken (tLife 3 1 2 0xA5) .mgmt).lifecycle = 3 ∧ (taken (tLife 1 2 2 0xA5) .mgmt).lifecycle ≠ 3 ∧ (taken (tLife 1 2 2 0xA5) .mgmt).inInert = false ∧
    modeRefusal (taken (tLife 1 2 2 0xA5) .mgmt) 1 (modeNeedsGuard (taken (tLife 1 2 2 0xA5) .mgmt).modeCode 1) = 0 ∧
    (let f := taken (tArm { tMode 1 [(O.ROLLBACK_COUNTER, 4)] with mode := { slotRb := 5 } } 0x2201 3 5) .mgmt
     f.rd O.ROLLBACK_COUNTER < 5 ∧ 5 ≤ f.mode.slotRb ∧ 4 ≤ f.rd O.ROLLBACK_COUNTER ∧ f.mode.slotRb < 6) ∧ (tMode 1 []).sec.burns = [] ∧
    ({ tMode 1 [] with sec := { burns := [.lifecycle 3, .rollback 5, .owner []] } } : Dev).sec.burns = [.lifecycle 3, .rollback 5, .owner []] := by
  unfold armedFor reachable outOfBoot; decide +kernel

/-- A token of a kind with a nonce of zeros. -/
def tToken (kind : Byte) : List Byte := [1, kind] ++ List.replicate 276 0

/-- The management master with a valid token of that kind and a nonce of zeros, armed to apply it. -/
def tApply (kind : Byte) (result : Nat) : State :=
  tSt { tMode 1 [(O.LIFECYCLE, 1), (keyOf O.TOKEN_RESULT 3, result)] with
    mgmt := { arm := some { idx := 0x2201, sub := 4, value := kind.toNat } }, sec := { mgmt := { nonceOk := true, token := tToken kind } } }

theorem wit_Tokens : (tToken 1).length = 278 ∧ ([] : List Byte).length ≠ 278 ∧ (tMode 1 []).rd (keyOf O.TOKEN_RESULT 3) ≠ 1 ∧
    (tApply 1 1).dev.rd (keyOf O.TOKEN_RESULT 3) = 1 ∧ armedFor (tApply 1 2) .mgmt 0x2201 4 1 ∧
    (∀ kind ∈ [(1 : Byte), 2, 3], let f := taken (tApply kind 2) .mgmt
      f.rd (keyOf O.TOKEN_RESULT 3) = 2 ∧ tokenNum (f.secOf .mgmt).token 1 1 = kind.toNat ∧ f.nonceIs .mgmt (f.secOf .mgmt).token = true ∧
      f.mode.trans = none ∧ f.kindAllowed kind.toNat = true ∧ tokenNum (f.secOf .mgmt).token 2 1 ≤ f.applyCap ∧ f.inInert = true) ∧
    (taken (tApply 1 1) .mgmt).rd (keyOf O.TOKEN_RESULT 3) ≠ 2 := by unfold armedFor reachable outOfBoot; decide +kernel

theorem wit_SecPolicy : armedFor (tArm (tMode 1 []) 0x2202 1 3) .mgmt 0x2202 1 3 ∧
    ((tMode 1 []).bankHeld && !(tMode 1 []).inShadow) = false ∧ (taken (tArm (tMode 1 []) 0x2202 1 3) .mgmt).editRefused = false ∧
    ((taken (tArm (tMode 1 []) 0x2202 1 3) .mgmt).genP O.SEC_POLICY ^^^ 3) &&& 0xFC = 0 ∧
    armedFor (tArm (tMode 3 []) 0x2202 1 3) .mgmt 0x2202 1 3 ∧ ((tMode 3 []).bankHeld && !(tMode 3 []).inShadow) = false ∧
    (taken (tArm (tMode 3 []) 0x2202 1 3) .mgmt).editRefused = true := by unfold armedFor reachable outOfBoot; decide +kernel

theorem wit_DebugSessionsAttestation : (tMode 1 []).sec.lifetime = none ∧
    ({ tMode 1 [] with sec := { lifetime := some 9 } } : Dev).sec.lifetime.isSome = true ∧ (tMode 1 []).sec.response = none ∧
    ({ tMode 1 [] with sec := { response := some [] } } : Dev).sec.response = some [] ∧
    (disarmed (tSt { tMode 1 [] with bankA := tBank [(O.SEC_POLICY, 0)] }) .can).genBit O.SEC_POLICY 1 = false ∧
    (let f := disarmed (tSt { tMode 1 [] with bankA := tBank [(O.SEC_POLICY, 2)] }) .can
     f.genBit O.SEC_POLICY 1 = true ∧ f.sec.lockout = false) ∧ (List.replicate 171 (0 : Byte)).length = 171 ∧
    (List.replicate 32 (0 : Byte)).length ≤ 32 ∧ 32 < (List.replicate 33 (0 : Byte)).length ∧ (tMode 1 [(O.LIFECYCLE, 3)]).lifecycle = 3 ∧
    (tMode 1 []).lifecycle ≠ 3 ∧ (305 : Nat) < 306 := by decide +kernel

theorem wit_TestAccess : (tMode 1 []).testTakesPins = true ∧ (tMode 2 []).testTakesPins = false ∧ (tMode 1 []).claimIn = false ∧
    (tMode 1 [(O.PAIR_STATUS, 0x200)]).claimIn = true ∧ (tMode 1 [(O.LIFECYCLE, 3)]).lifecycle = 3 ∧ (tMode 1 []).lifecycle ≠ 3 ∧
    privateLevel (0xFF#8).toNat = none ∧ (tMode 1 []).debug = 0 ∧ (tMode 1 []).undoc = false ∧
    ((tMode 1 []).setDebug 2 false).debug ≠ 0 ∧ 2 ≤ ((tMode 1 []).setDebug 2 false).debug ∧
    scanRegion (0x14FFFFF#32).toNat 1 ≠ none ∧ headerPlace (0x14FFFFF#32).toNat = none := by decide +kernel

end Sys2Proof.Tests
end

section
/-!
PROOFS. Edits of a generation by PATH_TYPE and PORT_TYPE (R8, R105, R175, R177), and the shape that they share with other host
writes: a master whose turn it is, an effect on the device without its arm, and the recorded answer.
-/
namespace Sys2Proof.Proofs
open Sys2Proof Sys2Proof.Machine

/-! ## Host accesses -/

theorem disarmed_undoc {s : State} {m : Master} (hr : reachable s m) : (disarmed s m).undoc = false := by
  obtain ⟨⟨-, hdoc⟩, -⟩ := hr
  simpa [disarmed] using hdoc

/-- A write row's command in its master's turn leaves what its effect makes of the disarmed device, with the answer recorded. -/
theorem leaves_of_hostNum {c : Instr} {s : State} {m : Master} {k : Key} {v code : Nat} {f : Dev → Dev × Nat} {d : Dev}
    (hc : exec c s = hostNum s m k v f) (hr : reachable s m) (hf : f (disarmed s m) = (d, code)) (hd : d.undoc = false) :
    leaves c s (answered d m code []) := by
  obtain ⟨⟨hboot, -⟩, hturn⟩ := hr
  have heffect : s.dev.plainWrite m f = (d, code) := by
    rw [Dev.plainWrite, hboot]; exact hf
  unfold leaves
  rw [hc, hostNum, hostWrite, hostTurn, heffect, hboot, hturn]
  simp only [Bool.false_eq_true, if_false, if_true, hostDone, hd]
  rfl

/-! ## Edits of the pending bank -/

theorem edit_undoc (d : Dev) (f : Bank → Bank) : (d.edit f).undoc = d.undoc := by simp

/-- An edit sees the pending bank alone: functions that agree there make the same edit. -/
theorem edit_congr {d : Dev} {f g : Bank → Bank} (h : f d.pendingBank = g d.pendingBank) : d.edit f = d.edit g := by
  unfold Dev.pendingBank at h
  unfold Dev.edit Dev.onPending
  split at h <;> simp_all

/-- What a write answers whose check of the pending bank gives `r`: the edit, or the device as it was with the abort code. -/
def bankAnswer (d : Dev) (r : Bank × Nat) : Dev × Nat := if r.2 == 0 then (d.edit (fun _ => r.1), 0) else (d, r.2)

theorem bankAnswer_zero (d : Dev) (f : Bank → Bank) : bankAnswer d (f d.pendingBank, 0) = (d.edit f, 0) := by
  have hedit : d.edit (fun _ => f d.pendingBank) = d.edit f := edit_congr rfl
  simp [bankAnswer, hedit]

theorem bankAnswer_ne_zero (d : Dev) (b : Bank) {code : Nat} (h : code ≠ 0) : bankAnswer d (b, code) = (d, code) := by
  simp [bankAnswer, h]

section
variable {c : Instr} {s : State} {m : Master} {k : Key} {v : Nat} {host : Dev → Dev × Nat} {r : Bank × Nat}

theorem accepts_of_bankAnswer {f : Bank → Bank} (hc : exec c s = hostNum s m k v host) (hr : reachable s m)
    (hhost : host (disarmed s m) = bankAnswer (disarmed s m) r) (hok : r = (f (disarmed s m).pendingBank, 0)) :
    accepts c s m ((disarmed s m).edit f) := by
  refine leaves_of_hostNum hc hr ?_ ((edit_undoc _ f).trans (disarmed_undoc hr))
  rw [hhost, hok, bankAnswer_zero]

theorem abortsWith_of_bankAnswer {b : Bank} {code : Nat} (hc : exec c s = hostNum s m k v host) (hr : reachable s m)
    (hhost : host (disarmed s m) = bankAnswer (disarmed s m) r) (hbad : r = (b, code)) (hcode : code ≠ 0) :
    abortsWith c s m code (disarmed s m) := by
  refine leaves_of_hostNum hc hr ?_ (disarmed_undoc hr)
  rw [hhost, hbad, bankAnswer_ne_zero _ _ hcode]

end

/-! ## PATH_TYPE (R175, R176, R178) -/

theorem pathTypeIn_zero {b : Bank} {a : Nat} (h : provisioned b a = false ∨ adLevel a = 1 ∨ under b a = []) :
    pathTypeIn b a 0 = (unprovision b a, 0) := by
  rcases h with h | h | h <;> simp [pathTypeIn, h]

theorem pathTypeIn_above {b : Bank} {a v : Nat} (h : 8 < v) : pathTypeIn b a v = (b, abRange) := by
  simp [pathTypeIn, h]

/-- A value that fits, at an address where nothing stands, takes the lowest free number of the level. -/
theorem pathTypeIn_new {b : Bank} {a v : Nat} (hlo : 1 ≤ v) (hhi : v ≤ 8) (hfits : fits b a v = true)
    (hparent : parentFits b a v = true) (hclash : ∀ c n, (c, n) ∈ b.numbers → clashes b a v c = false)
    (hnew : provisioned b a = false) (hroom : (numbersOf b (adLevel a)).length < (if adLevel a == 2 then 12288 else 49152)) :
    pathTypeIn b a v =
      (bankWr { b with numbers := smInsert a (lowestFree b (adLevel a)) b.numbers } (keyCtx O.PATH_TYPE a) v, 0) := by
  have hany : (b.numbers.map (·.1)).any (fun c => clashes b a v c) = false := by simpa using hclash
  have hle : ¬ 8 < v := by omega
  have hne : v ≠ 0 := by omega
  simp only [pathTypeIn, hany, hfits, hparent, hnew]
  simpa [hle, hne] using hroom

/-- Where nothing holds or refuses the edit, the answer is that of the check of the pending bank. -/
theorem pathTypeHost_eq {m : Master} {d : Dev} (v : Nat) (hgate : d.gateOn gPointer = true)
    (hlevel : adLevel (d.selected m) = 1 ∨ adLevel (d.selected m) = 2) (hheld : d.bankHeld = false)
    (hedit : d.editRefused = false) : pathTypeHost m v d = bankAnswer d (pathTypeIn d.pendingBank (d.selected m) v) := by
  have hcontext : (adLevel (d.selected m) != 1 && adLevel (d.selected m) != 2) = false := by
    rcases hlevel with h | h <;> rw [h] <;> rfl
  simp [pathTypeHost, pathTypeWrite, bankAnswer, hgate, hcontext, hheld, hedit]

/-! ## PORT_TYPE (R105, R177) -/

theorem portTypeIn_ok {b : Bank} {p v : Nat} (hv : v ≤ 6) (hquad : v = 6 → p % 4 = 0)
    (hfits : ∀ a n, (a, n) ∈ b.numbers → ownerPort b a = p ∨ ownerPort (bankWr b (keyAt O.PORT_TYPE p) v) a = p →
      fits (bankWr b (keyAt O.PORT_TYPE p) v) a (typeIn b a) = true) :
    portTypeIn b p v = (bankWr b (keyAt O.PORT_TYPE p) v, 0) := by
  have hbad : (b.numbers.map (·.1)).any (fun a => (ownerPort b a == p || ownerPort (bankWr b (keyAt O.PORT_TYPE p) v) a == p)
      && !fits (bankWr b (keyAt O.PORT_TYPE p) v) a (typeIn b a)) = false := by simpa using hfits
  have hle : ¬ 6 < v := by omega
  simp only [portTypeIn, hbad]
  simpa [hle] using hquad

theorem portTypeIn_range {b : Bank} {p v : Nat} (h : 6 < v ∨ (v = 6 ∧ p % 4 ≠ 0)) : portTypeIn b p v = (b, abRange) := by
  rcases h with h | ⟨rfl, h⟩ <;> simp [portTypeIn, h]

/-- Where nothing holds or refuses the edit, the answer is that of the check of the pending bank. -/
theorem portTypeHost_eq (m : Master) {d : Dev} {p : Nat} (v : Nat) (hgate : d.quadGate (p / 4) = true)
    (hheld : d.bankHeld = false) (hedit : d.editRefused = false) :
    portTypeHost m p v d = bankAnswer d (portTypeIn d.pendingBank p v) := by
  simp [portTypeHost, portTypeWrite, bankAnswer, hgate, hheld, hedit]

/-! ## The statement -/

/-- Settles O23: each case of the two checks of the pending bank, carried to `exec` by the answer that both writes give. -/
theorem typesProvision : Obligations.TypesProvision := by
  unfold Obligations.TypesProvision
  constructor
  · intro s m v hr d a b hgate hlevel hheld hedit
    have hexec : exec (.pathType m v) s = hostNum s m O.PATH_TYPE v.toNat (pathTypeHost m v.toNat) := rfl
    have hhost : pathTypeHost m v.toNat d = bankAnswer d (pathTypeIn b a v.toNat) := pathTypeHost_eq _ hgate hlevel hheld hedit
    refine ⟨?removed, ?provisioned, ?above⟩
    case removed =>
      rintro rfl hfree
      exact accepts_of_bankAnswer hexec hr hhost (pathTypeIn_zero hfree)
    case provisioned =>
      intro hlo hhi hfits hparent hclash hnew hroom
      exact accepts_of_bankAnswer hexec hr hhost (pathTypeIn_new hlo hhi hfits hparent hclash hnew hroom)
    case above =>
      intro habove
      exact abortsWith_of_bankAnswer hexec hr hhost (pathTypeIn_above habove) (by decide)
  · intro s m p v hr d b b' hgate hheld hedit
    have hexec : exec (.portType m p v) s = hostNum s m (keyAt O.PORT_TYPE p.val) v.toNat (portTypeHost m p.val v.toNat) := rfl
    have hhost : portTypeHost m p.val v.toNat d = bankAnswer d (portTypeIn b p.val v.toNat) := portTypeHost_eq m _ hgate hheld hedit
    refine ⟨?written, ?refused⟩
    case written =>
      intro hv hquad hfits
      exact accepts_of_bankAnswer hexec hr hhost (portTypeIn_ok hv hquad hfits)
    case refused =>
      intro hbad
      exact abortsWith_of_bankAnswer hexec hr hhost (portTypeIn_range hbad) (by decide)

end Sys2Proof.Proofs
end

section
/-!
PROOFS. What a raised event leaves of the actions in force (R16), and defect visits (R217, R218, R223, R228, R229): the reported
state, the consequent actions and the ends of error-rate blocks.
-/
namespace Sys2Proof.Proofs
open Sys2Proof Sys2Proof.Machine

/-! ## The actions in force under an event's reactions (R395)

An event may release a claim, drive FAULT_N and queue a message; none of these is an action of a record. -/

@[simp] theorem ite_acts (c : Prop) [Decidable c] (a b : Dev) : (if c then a else b).acts = if c then a.acts else b.acts :=
  apply_ite Dev.acts c a b

theorem when_acts (d : Dev) (c : Bool) {f : Dev → Dev} (hf : ∀ x : Dev, (f x).acts = x.acts) : (d.when c f).acts = d.acts := by
  cases c
  · rfl
  · exact hf d

@[simp] theorem count_acts (d : Dev) (k : Key) (n : Nat) : (d.count k n).acts = d.acts := by
  unfold Dev.count
  split
  · simp [Dev.countWrap, Dev.countSat]
  · rfl

@[simp] theorem sendMate_acts (d : Dev) (m : MateMsg) : (d.sendMate m).acts = d.acts := onOut_acts d _

@[simp] theorem sendCan_acts (d : Dev) (cob : Nat) (data : List Byte) : (d.sendCan cob data).acts = d.acts := by simp [Dev.sendCan]

@[simp] theorem upset_acts (d : Dev) (outcome : Nat) : (d.upset outcome).acts = d.acts := by simp [Dev.upset]

@[simp] theorem pmBreak_acts (d : Dev) : d.pmBreak.acts = d.acts := by simp [Dev.pmBreak]

@[simp] theorem setDebug_acts (d : Dev) (level : Nat) (forced : Bool) : (d.setDebug level forced).acts = d.acts := by
  simp [Dev.setDebug, Dev.privateStatus, when_acts]

@[simp] theorem recordMode_acts (d : Dev) (m : Nat) : (d.recordMode m).acts = d.acts := by simp [Dev.recordMode, Dev.capDebug]

@[simp] theorem setPairState_acts (d : Dev) (n : Nat) : (d.setPairState n).acts = d.acts := by simp [Dev.setPairState]

@[simp] theorem cancelSched_acts (d : Dev) (outcome : Nat) : (d.cancelSched outcome).acts = d.acts := by
  unfold Dev.cancelSched
  split
  · rfl
  · simp [Dev.unschedule, Dev.startLower, when_acts]

@[simp] theorem cancelEarly_acts (d : Dev) (outcome : Nat) : (d.cancelEarly outcome).acts = d.acts := by
  unfold Dev.cancelEarly
  split <;> simp

@[simp] theorem releaseClaim_acts (d : Dev) (cause : Nat) (own : Bool) : (d.releaseClaim cause own).acts = d.acts := by
  simp [Dev.releaseClaim, Dev.stopClaim, when_acts]

@[simp] theorem sendEmcy_acts (d : Dev) (data : List Byte) (seq : Option Nat) : (d.sendEmcy data seq).1.acts = d.acts := by
  unfold Dev.sendEmcy
  split
  · rfl
  · split <;> simp [when_acts]

@[simp] theorem putWindow_acts (d : Dev) (w : Window) : (d.putWindow w).acts = d.acts := onComa_acts d _

@[simp] theorem closeWindows_acts (d : Dev) : d.closeWindows.acts = d.acts := onComa_acts d _

@[simp] theorem reactEnd_acts (d : Dev) (seq : Nat) : (d.reactEnd seq).acts = d.acts := by
  unfold Dev.reactEnd
  split
  · rfl
  · dsimp only
    split
    · rfl
    · split
      · simp [when_acts]
      · split
        · split <;> simp [when_acts]
        · simp [when_acts]

@[simp] theorem react_acts (d : Dev) (seq : Nat) : (d.react seq).acts = d.acts := by
  unfold Dev.react
  split
  · rfl
  · simp [when_acts]

@[simp] theorem writeEntry_acts (d : Dev) (e : Ev) (severe forced : Bool) : (d.writeEntry e severe forced).acts = d.acts := by
  simp [Dev.writeEntry, when_acts]

/-- An event changes no action in force. -/
@[simp] theorem raise_acts (d : Dev) (e : Ev) : (d.raise e).acts = d.acts := by
  unfold Dev.raise
  split
  · rfl
  · dsimp only
    split <;> simp [when_acts]

theorem foldl_acts {α : Type} (l : List α) {f : Dev → α → Dev} (hf : ∀ x i, (f x i).acts = x.acts) (d : Dev) :
    (l.foldl f d).acts = d.acts := by
  induction l generalizing d with
  | nil => rfl
  | cons i r ih => rw [List.foldl_cons, ih, hf]

/-- The report of a changed state leaves the actions in force to the boundary (R16). -/
@[simp] theorem report_acts (d : Dev) (a new : Nat) : (d.report a new).acts = d.acts := by
  unfold Dev.report
  dsimp only
  split
  · rfl
  · rw [foldl_acts _ (fun x i => by simp)]
    simp

@[simp] theorem onPmAcc_acts (d : Dev) (a : Nat) (f : PmSec → PmSec) : (d.onPmAcc a f).acts = d.acts := by simp [Dev.onPmAcc]

/-! ## Masks and reported bits (R218) -/

theorem and_ne_zero_of_bit {v m i : Nat} (hv : bit v i = true) (hm : bit m i = true) : v &&& m ≠ 0 := by
  intro hzero
  have hbit : bit (v &&& m) i = true := (Nat.testBit_and v m i).trans (by rw [Bool.and_eq_true]; exact ⟨hv, hm⟩)
  simp [hzero, bit] at hbit

theorem and_ne_zero_of_submask {v m n : Nat} (hmn : n &&& m = m) (h : v &&& m ≠ 0) : v &&& n ≠ 0 := by
  intro hzero
  apply h
  rw [← hmn, ← Nat.and_assoc, hzero, Nat.zero_and]

/-- Setting the bits of a list that pass a test. -/
theorem bit_foldl_or (p : Nat → Bool) (l : List Nat) (m j : Nat) :
    bit (l.foldl (fun m i => if p i then m ||| 2 ^ i else m) m) j = (bit m j || (decide (j ∈ l) && p j)) := by
  induction l generalizing m with
  | nil => simp
  | cons i r ih =>
    rw [List.foldl_cons, ih]
    by_cases hij : i = j
    · subst hij
      cases hp : p i <;> simp [bit, Nat.testBit_or, Nat.testBit_two_pow_self]
    · have hother : bit (if p i then m ||| 2 ^ i else m) j = bit m j := by
        split <;> simp [bit, Nat.testBit_or, Nat.testBit_two_pow_of_ne hij]
      rw [hother]
      simp [Ne.symm hij]

/-- A bit is reported exactly when it is raw and no suppressor hides it. -/
theorem bit_reportedOf (sup : Nat → Nat) (eff raw i : Nat) :
    bit (reportedOf sup eff raw) i = (decide (i < 28) && (bit raw i && (eff &&& sup i == 0))) := by
  rw [reportedOf, bit_foldl_or]
  simp [bit]

/-! ## The words of the actions (Tables DF-4, DF-8) -/

/-- ACTION_STATUS of a port by its raw state and its AIS_OUT, MS-RDI, SM BDI and PM BDI. -/
def portActionWord (raw : Nat) (x : Bool × Bool × Bool × Bool) : Nat :=
  let sf := x.1 || bit raw 27
  ofBit (bit raw 26 && !sf) * 128 + ofBit sf * 64 + ofBit x.1 * 16 + ofBit x.2.1 * 8 + ofBit x.2.2.1 * 4 + ofBit x.2.2.2 * 2

theorem bit_portActionWord (raw : Nat) (x : Bool × Bool × Bool × Bool) :
    bit (portActionWord raw x) 4 = x.1 ∧ bit (portActionWord raw x) 3 = x.2.1 := by
  have hword : ∀ sd sf ais rdi sm pm : Bool,
      let w := ofBit sd * 128 + ofBit sf * 64 + ofBit ais * 16 + ofBit rdi * 8 + ofBit sm * 4 + ofBit pm * 2
      bit w 4 = ais ∧ bit w 3 = rdi := by decide
  exact hword _ _ _ _ _ _

/-- LOS, OOF, LOF and MS-AIS insert AIS downstream. -/
theorem portActions_ais {otu : Bool} {ctl raw : Nat} (h : raw &&& 0x27 ≠ 0) : (portActions otu ctl raw).1 = true := by
  have hmask : raw &&& maskOf [0, 1, 2, 3, 4, 5, 10, 11, 12, 16] ≠ 0 := and_ne_zero_of_submask (by decide) h
  simp [portActions, hmask]

/-- LOS, LOF and MS-AIS send MS-RDI. -/
theorem portActions_rdi {otu : Bool} {ctl raw : Nat} (h : raw &&& 0x25 ≠ 0) : (portActions otu ctl raw).2.1 = true := by
  have hmask : raw &&& (maskOf [0, 2, 3] ||| maskOf [5, 16]) ≠ 0 := and_ne_zero_of_submask (by decide) h
  have hsplit : raw &&& maskOf [0, 2, 3] ≠ 0 ∨ raw &&& maskOf [5, 16] ≠ 0 := by
    by_contra! hnone
    rw [Nat.and_or_distrib_left, hnone.1, hnone.2] at hmask
    exact hmask rfl
  rcases hsplit with h | h <;> simp [portActions, h]

/-- ACTION_STATUS of a path by its raw state, whether a selector takes it, its server signal fail, AIS_OUT and indication. -/
def pathActionWord (raw : Nat) (member ssf ais : Bool) (ind : Nat) : Nat :=
  let sf := ais || bit raw 27
  ofBit (member && bit raw 26 && !sf) * 128 + ofBit (member && sf) * 64 + ofBit ssf * 32 + ofBit ais * 16
    + ofBit (ind ≥ 2) * 8 + ind * 2

theorem bit_pathActionWord (raw : Nat) (member ssf ais : Bool) {ind : Nat} (hind : ind < 4) :
    let w := pathActionWord raw member ssf ais ind
    bit w 4 = ais ∧ bits w 1 2 = ind ∧ bit w 3 = decide (2 ≤ ind) := by
  have hword : ∀ (sd sf ssf ais : Bool) (i : Fin 4),
      let w := ofBit sd * 128 + ofBit sf * 64 + ofBit ssf * 32 + ofBit ais * 16 + ofBit (i.val ≥ 2) * 8 + i.val * 2
      bit w 4 = ais ∧ bits w 1 2 = i.val ∧ bit w 3 = decide (2 ≤ i.val) := by decide
  exact hword _ _ _ _ ⟨ind, hind⟩

theorem pathActions_indication_lt (ctl raw : Nat) (ssf : Bool) : (pathActions ctl raw ssf).2 < 4 := by
  simp only [pathActions]
  (repeat' split) <;> omega

/-- A server signal fail or AIS inserts AIS and indicates a server defect upstream. -/
theorem pathActions_server {ctl raw : Nat} {ssf : Bool} (h : ssf = true ∨ bit raw 17 = true) :
    (pathActions ctl raw ssf).1 = true ∧ (pathActions ctl raw ssf).2 = 2 := by
  have hserver : (ssf || raw &&& maskOf [17, 18] != 0) = true := by
    rcases h with rfl | h
    · rfl
    · simp [and_ne_zero_of_bit h (show bit (maskOf [17, 18]) 17 = true by decide)]
  simp only [pathActions, hserver]
  simp

/-! ## What a visit records -/

/-- The reported state of a port. -/
def portReported (d : Dev) (p : Nat) : Nat :=
  let otu := isOtu (d.portTy p)
  let ctl := d.genA (keyCtx O.DEFECT_CTRL (portAddr p))
  reportedOf (suppressPort otu (bits ctl 6 2)) (suppressors true ctl (d.rawPort p)) (d.rawPort p)

/-- The actions of a port. -/
def portActs (d : Dev) (p : Nat) : Nat :=
  portActionWord (d.rawPort p) (portActions (isOtu (d.portTy p)) (d.genA (keyCtx O.DEFECT_CTRL (portAddr p))) (d.rawPort p))

theorem defectPort_eq (d : Dev) (p : Nat) : d.defectPort p =
    let a := portAddr p
    let d1 := d.when (isOtu (d.portTy p) && bit (d.rawPort p) 10 && !d.clientOof p) (fun x => x.holdClient p)
    let e := ((d1.wr (keyCtx O.DEFECT_RAW a) (d.rawPort p)).wr (keyCtx O.ACTION_STATUS a) (portActs d p)).report a (portReported d p)
    e.verifyMark O.VERIFY_RDI_MAP p (e.rd (keyCtx O.DEFECT_REPORTED a) &&& 0x4240 != 0) := by
  unfold Dev.defectPort
  rfl

/-- The reported state of a path before the wait of a start in LOP. -/
def pathReportedFull (d : Dev) (a : Nat) : Nat :=
  reportedOf suppressPath (suppressors false (d.genA (keyCtx O.DEFECT_CTRL a)) (d.rawPath a) + ofBit (d.ssf a) * 2 ^ 31) (d.rawPath a)

/-- The reported state of a path: LOP waits after a start in LOP (R184). -/
def pathReported (d : Dev) (a : Nat) : Nat :=
  if d.fld (keyCtx O.PTR_STATUS a) 16 2 == 2 && (smLook {} d.ptrRx a).age < d.genFld (keyCtx O.PTR_CTRL a) 0 4 then
    pathReportedFull d a &&& (0xFFFFFFFF ^^^ maskOf [18])
  else pathReportedFull d a

/-- The upstream indication of a path: none where it does not terminate. -/
def pathIndication (d : Dev) (a : Nat) : Nat :=
  if d.terminates a then (pathActions (d.genA (keyCtx O.DEFECT_CTRL a)) (d.rawPath a) (d.ssf a)).2 else 0

/-- The actions of a path. -/
def pathActs (d : Dev) (a : Nat) : Nat :=
  pathActionWord (d.rawPath a) (d.isMember a) (d.ssf a)
    (pathActions (d.genA (keyCtx O.DEFECT_CTRL a)) (d.rawPath a) (d.ssf a)).1 (pathIndication d a)

/-- The defects that the second in progress takes from a visit (R217). -/
def defectSecond (ssf : Bool) (raw : Nat) (c : PmSec) : PmSec :=
  { c with neDef := c.neDef || ssf || raw &&& maskOf [17, 18, 19, 20] != 0, feDef := c.feDef || raw &&& maskOf [22, 23] != 0 }

theorem defectPath_eq (d : Dev) (a : Nat) : d.defectPath a =
    (((d.wr (keyCtx O.DEFECT_RAW a) (d.rawPath a)).wr (keyCtx O.ACTION_STATUS a) (pathActs d a)).report a (pathReported d a)).onPmAcc a
      (defectSecond (d.ssf a) (d.rawPath a)) := by
  unfold Dev.defectPath
  rfl

theorem onPmAcc_regs (d : Dev) (a : Nat) (f : PmSec → PmSec) : (d.onPmAcc a f).regs = d.regs := by
  unfold Dev.onPmAcc
  split <;> rfl

theorem bit_portReported (d : Dev) (p i : Nat) (hi : i < 28) :
    let ctl := d.genA (keyCtx O.DEFECT_CTRL (portAddr p))
    bit (portReported d p) i = (bit (d.rawPort p) i &&
      (suppressors true ctl (d.rawPort p) &&& suppressPort (isOtu (d.portTy p)) (bits ctl 6 2) i == 0)) := by
  simp [portReported, bit_reportedOf, hi]

theorem raw_of_pathReported {d : Dev} {a i : Nat} (h : bit (pathReported d a) i = true) : bit (d.rawPath a) i = true := by
  have hfull : bit (pathReportedFull d a) i = true := by
    unfold pathReported at h
    split at h
    · simp only [bit, Nat.testBit_and, Bool.and_eq_true] at h
      exact h.1
    · exact h
  simp only [pathReportedFull, bit_reportedOf, Bool.and_eq_true] at hfull
  obtain ⟨-, hraw, -⟩ := hfull
  exact hraw

theorem pathIndication_lt (d : Dev) (a : Nat) : pathIndication d a < 4 := by
  unfold pathIndication
  split
  · exact pathActions_indication_lt _ _ _
  · omega

theorem pathActs_server {d : Dev} {a : Nat} (h : d.ssf a = true ∨ bit (d.rawPath a) 17 = true) :
    bit (pathActs d a) 4 = true ∧ (d.terminates a = true → bits (pathActs d a) 1 2 = 2 ∧ bit (pathActs d a) 3 = true) := by
  obtain ⟨hais, hind⟩ := pathActions_server (ctl := d.genA (keyCtx O.DEFECT_CTRL a)) h
  obtain ⟨h4, h12, h3⟩ := bit_pathActionWord (d.rawPath a) (d.isMember a) (d.ssf a) true (pathIndication_lt d a)
  rw [pathActs, hais]
  refine ⟨h4, fun hterm => ?_⟩
  have hserver : pathIndication d a = 2 := by rw [pathIndication, if_pos hterm, hind]
  exact ⟨h12.trans hserver, by rw [h3, hserver]; rfl⟩

/-! ## The commands -/

theorem adLevel_portAddr (p : Fin 64) : adLevel (portAddr p.val) = 3 := by revert p; decide

theorem adPort_portAddr (p : Fin 64) : adPort (portAddr p.val) = p.val := by revert p; decide

theorem toNat_portAddr (p : Fin 64) : (BitVec.ofNat 32 (portAddr p.val)).toNat = portAddr p.val := by revert p; decide

theorem leaves_defectVisit_port {s : State} {p : Fin 64} (hruns : s.dev.runs gDefect = true)
    (hrec : s.dev.hasRecord (portAddr p.val) = true) :
    leaves (.defectVisit (BitVec.ofNat 32 (portAddr p.val))) s (s.dev.defectPort p.val) := by
  have hvisit : defectVisit s.dev (BitVec.ofNat 32 (portAddr p.val)).toNat = s.dev.defectPort p.val := by
    simp [-BitVec.toNat_ofNat, toNat_portAddr, defectVisit, hruns, hrec, adLevel_portAddr, adPort_portAddr]
  rw [← hvisit]
  rfl

theorem leaves_defectVisit_path {s : State} {a : Addr} (hruns : s.dev.runs gDefect = true) (hlevel : adLevel a.toNat ≠ 3)
    (hrec : s.dev.hasRecord a.toNat = true) : leaves (.defectVisit a) s (s.dev.defectPath a.toNat) := by
  have hvisit : defectVisit s.dev a.toNat = s.dev.defectPath a.toNat := by simp [defectVisit, hruns, hrec, hlevel]
  rw [← hvisit]
  rfl

/-- The end of an SD block tests the SD half of the record alone. -/
theorem leaves_berBlockEnd_sd {s : State} {a : Addr} {next : Ber} (hruns : s.dev.runs gDefect = true)
    (hrec : s.dev.hasRecord a.toNat = true) (hthresh : threshOf s.dev.active a.toNat false ≠ 0)
    (hnext : berEnd (smLook ({}, {}) s.dev.ber a.toNat).1 = next) :
    leaves (.berBlockEnd a false) s
      { s.dev with ber := smPut ({}, {}) s.dev.ber a.toNat (next, (smLook ({}, {}) s.dev.ber a.toNat).2) } := by
  have hend : berBlockEnd s.dev a.toNat false =
      { s.dev with ber := smPut ({}, {}) s.dev.ber a.toNat (next, (smLook ({}, {}) s.dev.ber a.toNat).2) } := by
    simp [berBlockEnd, hruns, hrec, hthresh, hnext]
  rw [← hend]
  rfl

/-! ## Error-rate blocks (R223) -/

theorem period_full {len : Nat} (errs : Nat) (b : Ber) (hlen : 0 < len) :
    (b.period len errs).full = if len ≤ b.periods + 1 then b.full ++ [b.errs + errs] else b.full := by
  have hne : (len == 0) = false := by simp; omega
  by_cases hdone : len ≤ b.periods + 1
  · simp [Ber.period, hne, hdone, Nat.not_lt.mpr hdone]
  · simp [Ber.period, hne, hdone, Nat.not_le.mp hdone]

/-- While nothing is declared, the test at the end of a block declares at 6 errors in 8 blocks. -/
theorem berEnd_of_undeclared {b : Ber} {errs : Nat} {r : List Nat} (hfull : b.full = errs :: r) (hdecl : b.declared = false) :
    berEnd b =
      let blocks := (errs :: b.blocks).take 8
      if 6 ≤ blocks.sum then { b with full := r, blocks := blocks, run := some (0, 0), declared := true }
      else { b with full := r, blocks := blocks } := by
  simp [berEnd, hfull, berStep, hdecl]

theorem berEnd_of_none {b : Ber} (hfull : b.full = []) : berEnd b = b := by simp [berEnd, hfull]

/-! ## The statement -/

/-- Settles O38: the words that a visit records, each bit by the lemma of its word, and the blocks by the test at their end. -/
theorem defectVisits : Obligations.DefectVisits := by
  unfold Obligations.DefectVisits
  refine ⟨fun len errs b hlen => period_full errs b hlen, ?_⟩
  intro s hruns d
  refine ⟨?port, ?path, ?blocks, ?counts⟩
  case port =>
    intro p hrec
    have hvisit := leaves_defectVisit_port hruns hrec
    rw [defectPort_eq] at hvisit
    obtain ⟨hais, hrdi⟩ := bit_portActionWord (d.rawPort p.val)
      (portActions (isOtu (d.portTy p.val)) (d.genA (keyCtx O.DEFECT_CTRL (portAddr p.val))) (d.rawPort p.val))
    exact ⟨portActs d p.val, portReported d p.val, hvisit, bit_portReported d p.val,
      fun h => hais.trans (portActions_ais h), fun h => hrdi.trans (portActions_rdi h)⟩
  case path =>
    intro a hlevel hrec
    have hvisit := leaves_defectVisit_path hruns hlevel hrec
    exact ⟨pathActs d a.toNat, pathReported d a.toNat, d.defectPath a.toNat, hvisit,
      by rw [defectPath_eq, onPmAcc_regs], by rw [defectPath_eq]; simp, fun _ => raw_of_pathReported, pathActs_server⟩
  case blocks =>
    intro a hrec hthresh b
    exact ⟨fun errs r hfull hdecl => leaves_berBlockEnd_sd hruns hrec hthresh (berEnd_of_undeclared hfull hdecl),
      fun hfull => leaves_berBlockEnd_sd hruns hrec hthresh (berEnd_of_none hfull)⟩
  case counts =>
    have hcounts : defectCounts s.dev = (d.wr O.HO_DEFECT_COUNT (d.defective 2)).wr O.LO_DEFECT_COUNT (d.defective 1) := by
      rw [defectCounts, if_pos hruns]
    rw [← hcounts]
    rfl

end Sys2Proof.Proofs
end

section
/-!
PROOFS. The words of a Milber transaction (R68, R69, Tables DI-8 and DI-9): the fields of a header word, the words between a header and
its trailer, and the command that they spell.
-/
namespace Sys2Proof.Proofs
open Sys2Proof Sys2Proof.Machine

/-! ## Header words (Table DI-8) -/

section
variable (op : BitVec 4) (index : BitVec 16) (sub : BitVec 8) (tag : BitVec 4)

/-- The bits of a header word, from its lowest field up. -/
theorem getLsbD_headerWord (i : Nat) : (headerWord op index sub tag).getLsbD i =
    if i < 4 then tag.getLsbD i else if i - 4 < 8 then sub.getLsbD (i - 4)
    else if i - 4 - 8 < 16 then index.getLsbD (i - 4 - 8) else op.getLsbD (i - 4 - 8 - 16) := by
  simp only [headerWord, BitVec.getLsbD_append]

@[simp] theorem headerOp_headerWord : headerOp (headerWord op index sub tag) = op := by
  ext i hi
  rw [headerOp, BitVec.getElem_extractLsb', getLsbD_headerWord, if_neg (by omega), if_neg (by omega), if_neg (by omega),
    show 28 + i - 4 - 8 - 16 = i by omega, BitVec.getLsbD_eq_getElem hi]

@[simp] theorem headerIndex_headerWord : headerIndex (headerWord op index sub tag) = index := by
  ext i hi
  rw [headerIndex, BitVec.getElem_extractLsb', getLsbD_headerWord, if_neg (by omega), if_neg (by omega), if_pos (by omega),
    show 12 + i - 4 - 8 = i by omega, BitVec.getLsbD_eq_getElem hi]

@[simp] theorem headerSub_headerWord : headerSub (headerWord op index sub tag) = sub := by
  ext i hi
  rw [headerSub, BitVec.getElem_extractLsb', getLsbD_headerWord, if_neg (by omega), if_pos (by omega), show 4 + i - 4 = i by omega,
    BitVec.getLsbD_eq_getElem hi]

@[simp] theorem headerTag_headerWord (t : Fin 16) : headerTag (headerWord op index sub (tagField t)) = t := by
  have hfield : (headerWord op index sub (tagField t)).extractLsb' 0 4 = tagField t := by
    ext i hi
    rw [BitVec.getElem_extractLsb', getLsbD_headerWord, if_pos (by omega), Nat.zero_add, BitVec.getLsbD_eq_getElem hi]
  rw [headerTag, hfield]
  rfl

end

/-! ## The words behind a header -/

/-- A word in front of a frame's data is the first word of its data. -/
theorem splitFrame_cons {x crc : BitVec 32} {r data : List (BitVec 32)} (h : splitFrame r = some (data, crc)) :
    splitFrame (x :: r) = some (x :: data, crc) := by
  match r, h with
  | _ :: _ :: _, h => simp [splitFrame, h]

/-- The data and the trailer of a frame are read back from its words, the accept word's dummy last. -/
@[simp] theorem splitFrame_append (data : List (BitVec 32)) (crc w : BitVec 32) : splitFrame (data ++ [crc, w]) = some (data, crc) := by
  induction data with
  | nil => rfl
  | cons x r ih => exact splitFrame_cons ih

/-! ## Transactions (Table DI-9) -/

theorem wf_milberInvalidOpcode (op : Fin 16) (words : Nat) : (Instr.milberInvalidOpcode op words).wf = decide (7 ≤ op.val) := rfl

/-- An opcode above 6 spells no command, whatever words follow. -/
theorem decodeMilber_invalid (e : Ecc) (w : Bool) (op : Fin 16) (hop : 7 ≤ op.val) (l : List (BitVec 32)) :
    decodeMilber e w (headerWord (BitVec.ofFin op) 0 0 0 :: l) = some (.milberInvalidOpcode op l.length) := by
  have hne : ∀ k : Nat, k < 7 → (op.val == k) = false := fun k hk => by simp; omega
  simp [decodeMilber, hne]

/-! ## The statement -/

/-- Settles O15: one case for each command that a frame spells; its header's fields and its data are read back. -/
theorem milberFramesDecode : Obligations.MilberFramesDecode := by
  unfold Obligations.MilberFramesDecode
  intro c l e w hwf henc hecc hwhole
  cases c <;> cases henc
  case milberNop => rfl
  case milberRead index sub tag len crc x => simp [decodeMilber, hecc index sub tag len crc x rfl]
  case milberWrite => simp [decodeMilber]
  case milberTableRead => simp [decodeMilber]
  case milberTableWrite => simp [decodeMilber]
  case milberFetch tag x => simp [decodeMilber, hwhole tag x rfl]
  case milberStatus => rfl
  case milberInvalidOpcode op words =>
    rw [wf_milberInvalidOpcode, decide_eq_true_eq] at hwf
    simpa using decodeMilber_invalid e w op hwf (List.replicate words 0)

end Sys2Proof.Proofs
end

section
/-!
PROOFS. Which operations leave the masters' request queues as they are (R49): one lemma per operation, by a name for the three queues that
simp does not unfold. What is missing here makes or takes a request: `queueReq`, `finish`, `goesOn`, `fetched`, `canHalt`, `sdoTimeout`
and their callers.
-/
namespace Sys2Proof.Machine

/-- The request queues of the three masters, by a name of their own. -/
def Dev.queues (d : Dev) : List Req × List Req × List Req := (d.spi.queue, d.canM.queue, d.mgmt.queue)

@[simp] theorem Dev.queues_eta (d : Dev) : (d.spi.queue, d.canM.queue, d.mgmt.queue) = d.queues := (rfl)

@[simp] theorem Dev.queues_mk
    regs strs bankA bankB elapsed frames spi canM mgmt can prov mode clk coma pair cvu sec jtag align line oh pairWait ptrRx ptrTx
    rxFrames pathRx pathTx acts poh captures ber pm cpm pmTime prot latched clients tfi tfiCh mateLanes pins mem out free reads
    undoc :
    Dev.queues (Dev.mk
    regs strs bankA bankB elapsed frames spi canM mgmt can prov mode clk coma pair cvu sec jtag align line oh pairWait ptrRx ptrTx
    rxFrames pathRx pathTx acts poh captures ber pm cpm pmTime prot latched clients tfi tfiCh mateLanes pins mem out free reads
    undoc) =
      (spi.queue, canM.queue, mgmt.queue) := (rfl)

@[simp] theorem ite_queues (c : Prop) [Decidable c] (a b : Dev) : (if c then a else b).queues = if c then a.queues else b.queues := by
  split <;> rfl
@[simp] theorem ite_fst_queues {α : Type} (c : Prop) [Decidable c] (a b : Dev × α) :
    (if c then a else b).1.queues = if c then a.1.queues else b.1.queues := by split <;> rfl
@[simp] theorem foldl_queues {α : Type} (l : List α) (f : Dev → α → Dev) (h : ∀ x a, (f x a).queues = x.queues) (d : Dev) :
    (l.foldl f d).queues = d.queues := by
  induction l generalizing d with
  | nil => rfl
  | cons a r ih => simp [List.foldl, ih, h]

/-! ## State operations -/

@[simp] theorem Dev.wr_queues (d : Dev) (k : Key) (v : Nat) : (d.wr k v).queues = d.queues := by simp [Dev.wr]
@[simp] theorem Dev.wrStr_queues (d : Dev) (k : Key) (v : List Byte) : (d.wrStr k v).queues = d.queues := by simp [Dev.wrStr]
@[simp] theorem Dev.putFld_queues (d : Dev) (k : Key) (lo w x : Nat) : (d.putFld k lo w x).queues = d.queues := by simp [Dev.putFld]
@[simp] theorem Dev.putFlag_queues (d : Dev) (k : Key) (i : Nat) (b : Bool) : (d.putFlag k i b).queues = d.queues := by
  simp [Dev.putFlag]
@[simp] theorem Dev.set1_queues (d : Dev) (k : Key) (i : Nat) : (d.set1 k i).queues = d.queues := by simp [Dev.set1]
@[simp] theorem Dev.countSat_queues (d : Dev) (k : Key) (w n : Nat) : (d.countSat k w n).queues = d.queues := by simp [Dev.countSat]
@[simp] theorem Dev.countWrap_queues (d : Dev) (k : Key) (w n : Nat) : (d.countWrap k w n).queues = d.queues := by simp [Dev.countWrap]
@[simp] theorem Dev.count_queues (d : Dev) (k : Key) (n : Nat) : (d.count k n).queues = d.queues := by
  unfold Dev.count
  split <;> simp
@[simp] theorem Dev.when_queues (d : Dev) (c : Bool) (f : Dev → Dev) (hf : ∀ x : Dev, (f x).queues = x.queues) :
    (d.when c f).queues = d.queues := by simp [Dev.when, hf]
@[simp] theorem Dev.fresh_queues (d : Dev) : d.fresh.queues = d.queues := by simp [Dev.fresh]
@[simp] theorem Dev.onSpi_queues (d : Dev) (f : MasterSt → MasterSt) (hf : ∀ x, (f x).queue = x.queue) :
    (d.onSpi f).queues = d.queues := by simp [Dev.onSpi, hf]
@[simp] theorem Dev.onCanM_queues (d : Dev) (f : MasterSt → MasterSt) (hf : ∀ x, (f x).queue = x.queue) :
    (d.onCanM f).queues = d.queues := by simp [Dev.onCanM, hf]
@[simp] theorem Dev.onMgmt_queues (d : Dev) (f : MasterSt → MasterSt) (hf : ∀ x, (f x).queue = x.queue) :
    (d.onMgmt f).queues = d.queues := by simp [Dev.onMgmt, hf]
@[simp] theorem Dev.onCan_queues (d : Dev) (f : Can → Can) : (d.onCan f).queues = d.queues := by simp [Dev.onCan]
@[simp] theorem Dev.onProv_queues (d : Dev) (f : Prov → Prov) : (d.onProv f).queues = d.queues := by simp [Dev.onProv]
@[simp] theorem Dev.onMode_queues (d : Dev) (f : ModeSt → ModeSt) : (d.onMode f).queues = d.queues := by simp [Dev.onMode]
@[simp] theorem Dev.onClk_queues (d : Dev) (f : Clk → Clk) : (d.onClk f).queues = d.queues := by simp [Dev.onClk]
@[simp] theorem Dev.onComa_queues (d : Dev) (f : Coma → Coma) : (d.onComa f).queues = d.queues := by simp [Dev.onComa]
@[simp] theorem Dev.onPair_queues (d : Dev) (f : PairSt → PairSt) : (d.onPair f).queues = d.queues := by simp [Dev.onPair]
@[simp] theorem Dev.onCvu_queues (d : Dev) (f : Cvu → Cvu) : (d.onCvu f).queues = d.queues := by simp [Dev.onCvu]
@[simp] theorem Dev.onSec_queues (d : Dev) (f : Sec → Sec) : (d.onSec f).queues = d.queues := by simp [Dev.onSec]
@[simp] theorem Dev.onJtag_queues (d : Dev) (f : Jtag → Jtag) : (d.onJtag f).queues = d.queues := by simp [Dev.onJtag]
@[simp] theorem Dev.onAlign_queues (d : Dev) (f : AlignSt → AlignSt) : (d.onAlign f).queues = d.queues := by simp [Dev.onAlign]
@[simp] theorem Dev.onLine_queues (d : Dev) (f : LineSt → LineSt) : (d.onLine f).queues = d.queues := by simp [Dev.onLine]
@[simp] theorem Dev.onOh_queues (d : Dev) (f : SecOh → SecOh) : (d.onOh f).queues = d.queues := by simp [Dev.onOh]
@[simp] theorem Dev.onOut_queues (d : Dev) (f : Out → Out) : (d.onOut f).queues = d.queues := by simp [Dev.onOut]
@[simp] theorem Dev.onMaster_queues (d : Dev) (m : Master) (f : MasterSt → MasterSt) (hf : ∀ x, (f x).queue = x.queue) :
    (d.onMaster m f).queues = d.queues := by
  unfold Dev.onMaster
  split <;> simp [hf]
@[simp] theorem Dev.onSecOf_queues (d : Dev) (m : Master) (f : SecMaster → SecMaster) : (d.onSecOf m f).queues = d.queues := by
  simp [Dev.onSecOf]
@[simp] theorem Dev.onPending_queues (d : Dev) (f : Bank → Bank) : (d.onPending f).queues = d.queues := by simp [Dev.onPending]
@[simp] theorem Dev.edit_queues (d : Dev) (f : Bank → Bank) : (d.edit f).queues = d.queues := by simp [Dev.edit]
@[simp] theorem Dev.advance_queues (d : Dev) (ns : Nat) : (d.advance ns).queues = d.queues := by simp [Dev.advance]
@[simp] theorem Dev.berAdd_queues (d : Dev) (a n : Nat) : (d.berAdd a n).queues = d.queues := by simp [Dev.berAdd]
@[simp] theorem Dev.onPmTime_queues (d : Dev) (f : PmTime → PmTime) : (d.onPmTime f).queues = d.queues := by simp [Dev.onPmTime]
@[simp] theorem Dev.pmBreak_queues (d : Dev) : d.pmBreak.queues = d.queues := by simp [Dev.pmBreak]
@[simp] theorem Dev.onPmAcc_queues (d : Dev) (a : Nat) (f : PmSec → PmSec) : (d.onPmAcc a f).queues = d.queues := by simp [Dev.onPmAcc]
@[simp] theorem Dev.onCpmAcc_queues (d : Dev) (c : Nat) (f : CpmSec → CpmSec) : (d.onCpmAcc c f).queues = d.queues := by
  simp [Dev.onCpmAcc]

/-! ## Shared by several families -/

@[simp] theorem Dev.sendCan_queues (d : Dev) (cob : Nat) (data : List Byte) : (d.sendCan cob data).queues = d.queues := by
  simp [Dev.sendCan]
@[simp] theorem Dev.queueTpdo_queues (d : Dev) (n : Nat) : (d.queueTpdo n).queues = d.queues := by simp [Dev.queueTpdo]
@[simp] theorem Dev.sendEmcy_queues (d : Dev) (data : List Byte) (seq : Option Nat) : (d.sendEmcy data seq).1.queues = d.queues := by
  simp [Dev.sendEmcy]
@[simp] theorem Dev.upset_queues (d : Dev) (outcome : Nat) : (d.upset outcome).queues = d.queues := by simp [Dev.upset]
@[simp] theorem Dev.switchPoint_queues (d : Dev) : d.switchPoint.queues = d.queues := by
  unfold Dev.switchPoint
  split <;> simp
@[simp] theorem Dev.privateStatus_queues (d : Dev) : d.privateStatus.queues = d.queues := by simp [Dev.privateStatus]
@[simp] theorem Dev.setDebug_queues (d : Dev) (level : Nat) (forced : Bool) : (d.setDebug level forced).queues = d.queues := by
  simp [Dev.setDebug]
@[simp] theorem Dev.capDebug_queues (d : Dev) (cap : Nat) : (d.capDebug cap).queues = d.queues := by simp [Dev.capDebug]
@[simp] theorem Dev.recordMode_queues (d : Dev) (m : Nat) : (d.recordMode m).queues = d.queues := by simp [Dev.recordMode]
@[simp] theorem Dev.startLower_queues (d : Dev) (target : Nat) : (d.startLower target).queues = d.queues := by simp [Dev.startLower]
@[simp] theorem Dev.unschedule_queues (d : Dev) (outcome : Nat) : (d.unschedule outcome).queues = d.queues := by simp [Dev.unschedule]
@[simp] theorem Dev.sendMate_queues (d : Dev) (m : MateMsg) : (d.sendMate m).queues = d.queues := by simp [Dev.sendMate]
@[simp] theorem Dev.cancelSched_queues (d : Dev) (outcome : Nat) : (d.cancelSched outcome).queues = d.queues := by
  unfold Dev.cancelSched
  split <;> simp
@[simp] theorem Dev.cancelRaise_queues (d : Dev) : d.cancelRaise.queues = d.queues := by
  unfold Dev.cancelRaise
  split <;> simp
@[simp] theorem Dev.cancelEarly_queues (d : Dev) (outcome : Nat) : (d.cancelEarly outcome).queues = d.queues := by
  unfold Dev.cancelEarly
  split <;> simp
@[simp] theorem Dev.channelUsed_queues (d : Dev) (n : Nat) : (d.channelUsed n).queues = d.queues := by simp [Dev.channelUsed]
@[simp] theorem Dev.scanHold_queues (d : Dev) : d.scanHold.queues = d.queues := by simp [Dev.scanHold]
@[simp] theorem Dev.mateVerify_queues (d : Dev) (beats : Nat) : (d.mateVerify beats).queues = d.queues := by simp [Dev.mateVerify]
@[simp] theorem Dev.stopClaim_queues (d : Dev) : d.stopClaim.queues = d.queues := by simp [Dev.stopClaim]
@[simp] theorem Dev.sendRequest_queues (d : Dev) (cause : Nat) : (d.sendRequest cause).queues = d.queues := by simp [Dev.sendRequest]
@[simp] theorem Dev.setPairState_queues (d : Dev) (s : Nat) : (d.setPairState s).queues = d.queues := by simp [Dev.setPairState]
@[simp] theorem Dev.verifyMark_queues (d : Dev) (o : ObjId) (i : Nat) (seen : Bool) : (d.verifyMark o i seen).queues = d.queues := by
  simp [Dev.verifyMark]
@[simp] theorem Dev.releaseClaim_queues (d : Dev) (cause : Nat) (own : Bool) : (d.releaseClaim cause own).queues = d.queues := by
  simp [Dev.releaseClaim]

/-! ## Fault collection -/

@[simp] theorem Dev.putWindow_queues (d : Dev) (w : Window) : (d.putWindow w).queues = d.queues := by simp [Dev.putWindow]
@[simp] theorem Dev.closeWindows_queues (d : Dev) : d.closeWindows.queues = d.queues := by simp [Dev.closeWindows]
@[simp] theorem Dev.reactEnd_queues (d : Dev) (seq : Nat) : (d.reactEnd seq).queues = d.queues := by
  simp only [Dev.reactEnd]
  (repeat' split) <;> simp
@[simp] theorem Dev.react_queues (d : Dev) (seq : Nat) : (d.react seq).queues = d.queues := by
  unfold Dev.react
  split <;> simp
@[simp] theorem Dev.writeEntry_queues (d : Dev) (e : Ev) (severe forced : Bool) : (d.writeEntry e severe forced).queues = d.queues := by
  simp [Dev.writeEntry]
@[simp] theorem Dev.raise_queues (d : Dev) (e : Ev) : (d.raise e).queues = d.queues := by
  simp only [Dev.raise]
  (repeat' split) <;> simp
@[simp] theorem Dev.clockEvent_queues (d : Dev) (code : Nat) (causes : Nat) (clear : Bool) :
    (d.clockEvent code causes clear).queues = d.queues := by simp [Dev.clockEvent]
@[simp] theorem Dev.pairEvent_queues (d : Dev) (detail : Nat) (forced : Bool) : (d.pairEvent detail forced).queues = d.queues := by
  simp [Dev.pairEvent]
@[simp] theorem Dev.endPulse_queues (d : Dev) (injected : Bool) : (d.endPulse injected).queues = d.queues := by
  unfold Dev.endPulse
  split <;> simp
@[simp] theorem Dev.emcyInhibitEnd_queues (d : Dev) : d.emcyInhibitEnd.queues = d.queues := by
  simp only [Dev.emcyInhibitEnd]
  (repeat' split) <;> simp
@[simp] theorem Dev.acknowledge_queues (d : Dev) (s : Nat) : (d.acknowledge s).queues = d.queues := by simp [Dev.acknowledge]
@[simp] theorem Dev.closeCounts_queues (d : Dev) (k : Nat) : (d.closeCounts k).queues = d.queues := by simp [Dev.closeCounts]
@[simp] theorem Dev.markRead_queues (d : Dev) (seqs : List Nat) : (d.markRead seqs).queues = d.queues := by simp [Dev.markRead]

/-! ## Masters and guards -/

@[simp] theorem Dev.guardDiscard_queues (d : Dev) (m : Master) (idx sub cause : Nat) :
    (d.guardDiscard m idx sub cause).queues = d.queues := by simp [Dev.guardDiscard]
@[simp] theorem Dev.dropArm_queues (d : Dev) (m : Master) (cause : Nat) : (d.dropArm m cause).queues = d.queues := by
  unfold Dev.dropArm
  split <;> simp
@[simp] theorem Dev.plainWrite_queues (d : Dev) (m : Master) (f : Dev → Dev × Nat) (hf : ∀ x : Dev, (f x).1.queues = x.queues) :
    (d.plainWrite m f).1.queues = d.queues := by simp [Dev.plainWrite, hf]
@[simp] theorem Dev.queuePeak_queues (d : Dev) (m : Master) : (d.queuePeak m).queues = d.queues := by simp [Dev.queuePeak]
@[simp] theorem Dev.overload_queues (d : Dev) (m : Master) : (d.overload m).queues = d.queues := by simp [Dev.overload]
@[simp] theorem Dev.armGuard_queues (d : Dev) (m : Master) (idx n v : Nat) (lenOk inRange : Bool) :
    (d.armGuard m idx n v lenOk inRange).1.queues = d.queues := by simp [Dev.armGuard]
@[simp] theorem trigger_queues (v : Nat) (d : Dev) (f : Dev → Dev × Nat) (hf : ∀ x : Dev, (f x).1.queues = x.queues) :
    (trigger v d f).1.queues = d.queues := by simp [trigger, hf]
@[simp] theorem Dev.ungated_queues (d : Dev) (gate : Nat) (f : Dev → Dev × Nat) (hf : ∀ x : Dev, (f x).1.queues = x.queues) :
    (d.ungated gate f).1.queues = d.queues := by simp [Dev.ungated, hf]
@[simp] theorem Dev.memoryError_queues (d : Dev) (region offset : Nat) : (d.memoryError region offset).queues = d.queues := by
  simp [Dev.memoryError]
@[simp] theorem Dev.memoryErrorSomewhere_queues (d : Dev) (region : Nat) : (d.memoryErrorSomewhere region).queues = d.queues := by
  simp [Dev.memoryErrorSomewhere]
@[simp] theorem Dev.eccCorrected_queues (d : Dev) (region : Nat) : (d.eccCorrected region).queues = d.queues := by
  simp [Dev.eccCorrected]
@[simp] theorem Dev.eccHit_queues (d : Dev) (region : Nat) (e : Ecc) : (d.eccHit region e).queues = d.queues := by
  unfold Dev.eccHit
  split <;> simp

/-! ## Frame alignment -/

@[simp] theorem Dev.putSyz_queues (d : Dev) (k : Nat) (z : Syzygy) : (d.putSyz k z).queues = d.queues := by simp [Dev.putSyz]
@[simp] theorem Dev.alignEvent_queues (d : Dev) (p code : Nat) : (d.alignEvent p code).queues = d.queues := by simp [Dev.alignEvent]
@[simp] theorem Dev.freshSearch_queues (d : Dev) (k : Nat) : (d.freshSearch k).queues = d.queues := by simp [Dev.freshSearch]
@[simp] theorem Dev.cutFrame_queues (d : Dev) (k : Nat) : (d.cutFrame k).queues = d.queues := by simp [Dev.cutFrame]
@[simp] theorem Dev.resumeSearch_queues (d : Dev) (k : Nat) : (d.resumeSearch k).queues = d.queues := by simp [Dev.resumeSearch]
@[simp] theorem Dev.holdClient_queues (d : Dev) (p : Nat) : (d.holdClient p).queues = d.queues := by simp [Dev.holdClient]
@[simp] theorem Dev.alignStatusStart_queues (d : Dev) (p : Nat) (never : Bool) : (d.alignStatusStart p never).queues = d.queues := by
  simp [Dev.alignStatusStart]
@[simp] theorem Dev.alignEnable_queues (d : Dev) (p : Nat) : (d.alignEnable p).queues = d.queues := by simp [Dev.alignEnable]
@[simp] theorem Dev.alignResume_queues (d : Dev) (p : Nat) : (d.alignResume p).queues = d.queues := by simp [Dev.alignResume]
@[simp] theorem Dev.alignStop_queues (d : Dev) (p : Nat) : (d.alignStop p).queues = d.queues := by simp [Dev.alignStop]
@[simp] theorem Dev.alignStart_queues (d : Dev) : d.alignStart.queues = d.queues := by simp [Dev.alignStart]
@[simp] theorem Dev.breakRuns_queues (d : Dev) (k : Nat) : (d.breakRuns k).queues = d.queues := by simp [Dev.breakRuns]
@[simp] theorem Dev.declareOof_queues (d : Dev) (k : Nat) : (d.declareOof k).queues = d.queues := by
  simp only [Dev.declareOof]
  (repeat' split) <;> simp
@[simp] theorem Dev.oofCheck_queues (d : Dev) (k : Nat) : (d.oofCheck k).queues = d.queues := by simp [Dev.oofCheck]
@[simp] theorem Dev.losForcesOof_queues (d : Dev) (l : Nat) : (d.losForcesOof l).queues = d.queues := by simp [Dev.losForcesOof]
@[simp] theorem patternSeen_queues (d : Dev) (k phase : Nat) (correct : Bool) : (patternSeen d k phase correct).queues = d.queues := by
  simp only [patternSeen]
  (repeat' split) <;> simp
@[simp] theorem Dev.bitsPassed_queues (d : Dev) (k n : Nat) : (d.bitsPassed k n).queues = d.queues := by simp [Dev.bitsPassed]
@[simp] theorem framingSeen_queues (d : Dev) (k n : Nat) (w : BitVec 48) : (framingSeen d k n w).queues = d.queues := by
  simp [framingSeen]
@[simp] theorem Dev.changeOfAlignment_queues (d : Dev) (p lane shift : Nat) : (d.changeOfAlignment p lane shift).queues = d.queues := by
  simp [Dev.changeOfAlignment]
@[simp] theorem laneInFrame_queues (d : Dev) (k : Nat) (z : Syzygy) (slot phase : Nat) :
    (laneInFrame d k z slot phase).queues = d.queues := by simp [laneInFrame]
@[simp] theorem windowEnd_queues (d0 : Dev) (k : Nat) : (windowEnd d0 k).queues = d0.queues := by
  simp only [windowEnd]
  (repeat' split) <;> simp
@[simp] theorem lofDeclared_queues (d : Dev) (k : Nat) : (lofDeclared d k).queues = d.queues := by simp [lofDeclared]
@[simp] theorem lofCleared_queues (d : Dev) (k : Nat) : (lofCleared d k).queues = d.queues := by simp [lofCleared]
@[simp] theorem lomDeclared_queues (d : Dev) (p : Nat) : (lomDeclared d p).queues = d.queues := by simp [lomDeclared]
@[simp] theorem lomCleared_queues (d : Dev) (p : Nat) : (lomCleared d p).queues = d.queues := by simp [lomCleared]
@[simp] theorem Dev.thresholds_queues (d : Dev) (p : Nat) : (d.thresholds p).queues = d.queues := by simp [Dev.thresholds]
@[simp] theorem Dev.alignTick_queues (d : Dev) : d.alignTick.queues = d.queues := by simp [Dev.alignTick]
@[simp] theorem Dev.alignKept_queues (d : Dev) (p : Nat) : (d.alignKept p).queues = d.queues := by simp [Dev.alignKept]
@[simp] theorem inMultiframe_queues (d : Dev) (p : Nat) : (inMultiframe d p).queues = d.queues := by simp [inMultiframe]
@[simp] theorem oomDeclared_queues (d : Dev) (p : Nat) : (oomDeclared d p).queues = d.queues := by simp [oomDeclared]
@[simp] theorem Dev.mfasSeen_queues (d : Dev) (p mfas : Nat) (marked : Bool) : (d.mfasSeen p mfas marked).queues = d.queues := by
  simp [Dev.mfasSeen]

/-! ## Mode requests -/

@[simp] theorem Dev.refuseMode_queues (d : Dev) (cause : Nat) : (d.refuseMode cause).queues = d.queues := by simp [Dev.refuseMode]
@[simp] theorem Dev.startTransition_queues (d : Dev) (target : Nat) : (d.startTransition target).queues = d.queues := by
  simp [Dev.startTransition]
@[simp] theorem Dev.requestMode_queues (d : Dev) (target : Nat) (guarded : Bool) :
    (d.requestMode target guarded).1.queues = d.queues := by simp [Dev.requestMode]
@[simp] theorem Dev.wake_queues (d : Dev) : d.wake.queues = d.queues := by simp [Dev.wake]

/-! ## Lines -/

@[simp] theorem Dev.spoilGate_queues (d : Dev) (l : Nat) : (d.spoilGate l).queues = d.queues := by simp [Dev.spoilGate]
@[simp] theorem cdrLocked_queues (d : Dev) (l : Nat) : (cdrLocked d l).queues = d.queues := by simp [cdrLocked]
@[simp] theorem cdrUnlocked_queues (d : Dev) (l : Nat) : (cdrUnlocked d l).queues = d.queues := by simp [cdrUnlocked]
@[simp] theorem Dev.losSeen_queues (d : Dev) (l : Nat) (amplitude transitions : Bool) :
    (d.losSeen l amplitude transitions).queues = d.queues := by simp [Dev.losSeen]
@[simp] theorem losDeclared_queues (d : Dev) (l : Nat) (amplitude transitions : Bool) :
    (losDeclared d l amplitude transitions).queues = d.queues := by simp [losDeclared]
@[simp] theorem losCleared_queues (d : Dev) (l : Nat) (amplitude transitions : Bool) :
    (losCleared d l amplitude transitions).queues = d.queues := by simp [losCleared]
@[simp] theorem Dev.quadEvent_queues (d : Dev) (q code : Nat) : (d.quadEvent q code).queues = d.queues := by simp [Dev.quadEvent]
@[simp] theorem quadLocked_queues (d : Dev) (q : Nat) : (quadLocked d q).queues = d.queues := by simp [quadLocked]
@[simp] theorem quadLost_queues (d : Dev) (q : Nat) : (quadLost d q).queues = d.queues := by simp [quadLost]
@[simp] theorem Dev.quadSettle_queues (d : Dev) : d.quadSettle.queues = d.queues := by simp [Dev.quadSettle]
@[simp] theorem freqGateEnd_queues (d : Dev) (l count : Nat) (valid : Bool) : (freqGateEnd d l count valid).queues = d.queues := by
  simp [freqGateEnd]
@[simp] theorem rxAdapted_queues (d : Dev) (l : RxLane) (v : Nat) : (rxAdapted d l v).queues = d.queues := by simp [rxAdapted]
@[simp] theorem Dev.quadWrite_queues (d : Dev) (m : Master) (l : Nat) (f : Dev → Dev × Nat)
    (hf : ∀ x : Dev, (f x).1.queues = x.queues) :
    (d.quadWrite m l f).1.queues = d.queues := by simp [Dev.quadWrite, hf]
@[simp] theorem squelchWrite_queues (p v : Nat) (d : Dev) : (squelchWrite p v d).1.queues = d.queues := by simp [squelchWrite]
@[simp] theorem prbsWrite_queues (l v : Nat) (d : Dev) : (prbsWrite l v d).1.queues = d.queues := by simp [prbsWrite]
@[simp] theorem Dev.prbsCheck_queues (d : Dev) (l : Nat) (bytes : List Byte) : (d.prbsCheck l bytes).queues = d.queues := by
  simp [Dev.prbsCheck]
@[simp] theorem Dev.prbsSend_queues (d : Dev) (l n : Nat) : (d.prbsSend l n).1.queues = d.queues := by simp [Dev.prbsSend]
@[simp] theorem lolDeclared_queues (d : Dev) (q : Nat) : (lolDeclared d q).queues = d.queues := by simp [lolDeclared]
@[simp] theorem lolCleared_queues (d : Dev) (q : Nat) : (lolCleared d q).queues = d.queues := by simp [lolCleared]
@[simp] theorem Dev.laneMarked_queues (d : Dev) (l skew : Nat) (bytes : List Byte) : (d.laneMarked l skew bytes).queues = d.queues := by
  unfold Dev.laneMarked
  (repeat' split) <;> simp
@[simp] theorem Dev.lolFrame_queues (d : Dev) (q : Nat) : (d.lolFrame q).queues = d.queues := by simp [Dev.lolFrame]
@[simp] theorem Dev.otlReceive_queues (d : Dev) (q : Nat) (raw : List Byte) (skews : List (BitVec 12)) :
    (d.otlReceive q raw skews).1.queues = d.queues := by simp [Dev.otlReceive]

/-! ## Section overhead, received -/

@[simp] theorem Dev.onSecRx_queues (d : Dev) (p : Nat) (f : SecRx → SecRx) : (d.onSecRx p f).queues = d.queues := by simp [Dev.onSecRx]
@[simp] theorem Dev.onSecTx_queues (d : Dev) (p : Nat) (f : SecTx → SecTx) : (d.onSecTx p f).queues = d.queues := by simp [Dev.onSecTx]
@[simp] theorem Dev.putDccRx_queues (d : Dev) (q : Nat) (l : List Byte) : (d.putDccRx q l).queues = d.queues := by simp [Dev.putDccRx]
@[simp] theorem Dev.putDccTx_queues (d : Dev) (q : Nat) (l : List Byte) : (d.putDccTx q l).queues = d.queues := by simp [Dev.putDccTx]
@[simp] theorem Dev.dccCapture_queues (d : Dev) (p : Nat) (multiplex : Bool) (l : List Byte) :
    (d.dccCapture p multiplex l).queues = d.queues := by simp [Dev.dccCapture]
@[simp] theorem Dev.dccDrop_queues (d : Dev) (q n : Nat) : (d.dccDrop q n).queues = d.queues := by simp [Dev.dccDrop]
@[simp] theorem Dev.dccConsume_queues (d : Dev) (q upTo : Nat) : (d.dccConsume q upTo).queues = d.queues := by simp [Dev.dccConsume]
@[simp] theorem Dev.dccSend_queues (d : Dev) (p : Nat) (multiplex : Bool) (n : Nat) :
    (d.dccSend p multiplex n).1.queues = d.queues := by simp [Dev.dccSend]
@[simp] theorem Dev.onRxFrame_queues (d : Dev) (p : Nat) (f : RxFrame → RxFrame) : (d.onRxFrame p f).queues = d.queues := by
  simp [Dev.onRxFrame]
@[simp] theorem Dev.takeFrame_queues (d : Dev) (p n : Nat) (g : List Byte) : (d.takeFrame p n g).queues = d.queues := by
  simp [Dev.takeFrame]
@[simp] theorem sdhReceive_queues (d : Dev) (p : Nat) (raw : List Byte) : (sdhReceive d p raw).queues = d.queues := by simp [sdhReceive]
@[simp] theorem Dev.comparePt_queues (d : Dev) (p : Nat) : (d.comparePt p).queues = d.queues := by simp [Dev.comparePt]
@[simp] theorem Dev.payloadType_queues (d : Dev) (p v : Nat) : (d.payloadType p v).queues = d.queues := by simp [Dev.payloadType]
@[simp] theorem Dev.opuJoin_queues (d : Dev) (p : Nat) (l : List Byte) : (d.opuJoin p l).queues = d.queues := by simp [Dev.opuJoin]
theorem Dev.clientFrame_queues {d x : Dev} {p : Nat} {f : List Byte} (h : Dev.clientFrame d p = some (f, x)) : x.queues = d.queues := by
  simp only [Dev.clientFrame] at h
  split at h
  · cases h
  · cases h; simp
@[simp] theorem otuReceive_queues (d0 : Dev) (p : Nat) (raw : List Byte) : (otuReceive d0 p raw).queues = d0.queues := by
  simp [otuReceive]
@[simp] theorem Dev.cutPassed_queues (d : Dev) (k : Nat) : (d.cutPassed k).queues = d.queues := by simp [Dev.cutPassed]
@[simp] theorem lineReceive_queues (d : Dev) (p : Nat) (signal : RxSignal) : (lineReceive d p signal).queues = d.queues := by
  unfold lineReceive
  dsimp only
  (repeat' split) <;> first
    | (simp; done)
    | (rename_i h; simp [Dev.clientFrame_queues h])
@[simp] theorem Dev.compareJ0_queues (d : Dev) (p : Nat) : (d.compareJ0 p).queues = d.queues := by simp [Dev.compareJ0]
@[simp] theorem Dev.compareTti_queues (d : Dev) (p : Nat) : (d.compareTti p).queues = d.queues := by simp [Dev.compareTti]
@[simp] theorem Dev.acceptStr_queues (d : Dev) (k status : Key) (ev : Nat) (v : Option (List Byte)) :
    (d.acceptStr k status ev v).queues = d.queues := by
  unfold Dev.acceptStr
  split <;> simp
@[simp] theorem Dev.acceptVal_queues (d : Dev) (k status : Key) (ev : Nat) (v : Nat) :
    (d.acceptVal k status ev v).queues = d.queues := by simp [Dev.acceptVal]
@[simp] theorem Dev.berPeriod_queues (d : Dev) (a errs : Nat) : (d.berPeriod a errs).queues = d.queues := by simp [Dev.berPeriod]
@[simp] theorem sdhVisit_queues (p : Nat) (d : Dev) (r : SdhRec) : (sdhVisit p d r).queues = d.queues := by simp [sdhVisit]
@[simp] theorem otnVisit_queues (p : Nat) (d : Dev) (r : OtnRec) : (otnVisit p d r).queues = d.queues := by simp [otnVisit]
@[simp] theorem recVisit_queues (p : Nat) (d : Dev) (z0 : RxRec) : (recVisit p d z0).queues = d.queues := by
  unfold recVisit
  split <;> simp
@[simp] theorem Dev.sectionWork_queues (d : Dev) (p : Nat) : (d.sectionWork p).queues = d.queues := by simp [Dev.sectionWork]
@[simp] theorem Dev.sectionStart_queues (d : Dev) (p : Nat) : (d.sectionStart p).queues = d.queues := by simp [Dev.sectionStart]

/-! ## Section overhead, sent -/

@[simp] theorem Dev.signBytes_queues (d : Dev) (src : Nat) (l : List Byte) : (d.signBytes src l).queues = d.queues := by
  simp [Dev.signBytes]
@[simp] theorem Dev.latchSignatures_queues (d : Dev) (frame : Nat) : (d.latchSignatures frame).queues = d.queues := by
  simp [Dev.latchSignatures]
@[simp] theorem Dev.writeTogether_queues (d : Dev) (w : PairedWrite) (check : Nat) (apply : Dev → Dev)
    (happly : ∀ x : Dev, (apply x).queues = x.queues) :
    (d.writeTogether w check apply).1.queues = d.queues := by simp [Dev.writeTogether, happly]
@[simp] theorem soTestApply_queues (p v : Nat) (d : Dev) : (soTestApply p v d).queues = d.queues := by simp [soTestApply]
@[simp] theorem dccTxApply_queues (p : Nat) (multiplex : Bool) (data : List Byte) (d : Dev) :
    (dccTxApply p multiplex data d).queues = d.queues := by simp [dccTxApply]
@[simp] theorem dccTxWrite_queues (p : Nat) (multiplex : Bool) (data : List Byte) (d : Dev) :
    (dccTxWrite p multiplex data d).1.queues = d.queues := by simp [dccTxWrite]
@[simp] theorem sdhTransmit_queues (d : Dev) (p : Nat) (payload : List Byte) : (sdhTransmit d p payload).1.queues = d.queues := by
  simp [sdhTransmit]
@[simp] theorem otuTransmit_queues (d : Dev) (p : Nat) (payload : List Byte) : (otuTransmit d p payload).1.queues = d.queues := by
  simp [otuTransmit]

/-! ## Paths -/

@[simp] theorem Dev.onPathRx_queues (d : Dev) (a : Nat) (f : PathRx → PathRx) : (d.onPathRx a f).queues = d.queues := by
  simp [Dev.onPathRx]
@[simp] theorem Dev.onPathTx_queues (d : Dev) (a : Nat) (f : PathTx → PathTx) : (d.onPathTx a f).queues = d.queues := by
  simp [Dev.onPathTx]
@[simp] theorem Dev.onClient_queues (d : Dev) (c : Nat) (f : ClientSt → ClientSt) : (d.onClient c f).queues = d.queues := by
  simp [Dev.onClient]
@[simp] theorem Dev.onCh_queues (d : Dev) (a : Nat) (f : TfiCh → TfiCh) : (d.onCh a f).queues = d.queues := by simp [Dev.onCh]
@[simp] theorem Dev.clientWrite_queues (d : Dev) (c : Nat) (l : List Bool) : (d.clientWrite c l).queues = d.queues := by
  simp [Dev.clientWrite]
@[simp] theorem Dev.deliverTo_queues (d : Dev) (w : Nat) (c : List Byte) : (d.deliverTo w c).queues = d.queues := by
  simp [Dev.deliverTo]
@[simp] theorem Dev.deliver_queues (d : Dev) (a : Nat) (c : List Byte) : (d.deliver a c).queues = d.queues := by simp [Dev.deliver]

/-! ## Pointers -/

@[simp] theorem Dev.onPtrTx_queues (d : Dev) (a : Nat) (f : PtrTx → PtrTx) : (d.onPtrTx a f).queues = d.queues := by simp [Dev.onPtrTx]
@[simp] theorem Dev.recentre_queues (d : Dev) (a : Nat) : (d.recentre a).queues = d.queues := by simp [Dev.recentre]
@[simp] theorem Dev.moveFill_queues (d : Dev) (a : Nat) (n : Int) : (d.moveFill a n).queues = d.queues := by simp [Dev.moveFill]
@[simp] theorem Dev.contStart_queues (d : Dev) (a off : Nat) : (d.contStart a off).queues = d.queues := by simp [Dev.contStart]
@[simp] theorem Dev.generate_queues (d : Dev) (a : Nat) (first : Bool) : (d.generate a first).queues = d.queues := by
  simp [Dev.generate]
@[simp] theorem pointerWord_queues (d : Dev) (a word : Nat) (members : List Nat) :
    (pointerWord d a word members).queues = d.queues := by simp [pointerWord]
@[simp] theorem pathPeriod_queues (d : Dev) (a : Nat) : (pathPeriod d a).queues = d.queues := by
  unfold pathPeriod
  (repeat' split) <;> simp
@[simp] theorem Dev.pointerStart_queues (d : Dev) (a : Nat) : (d.pointerStart a).queues = d.queues := by simp [Dev.pointerStart]

/-! ## Path overhead -/

@[simp] theorem Dev.onPohCtx_queues (d : Dev) (a : Nat) (f : PohCtx → PohCtx) : (d.onPohCtx a f).queues = d.queues := by
  simp [Dev.onPohCtx]
@[simp] theorem Dev.comparePath_queues (d : Dev) (a : Nat) : (d.comparePath a).queues = d.queues := by simp [Dev.comparePath]
@[simp] theorem Dev.capture_queues (d : Dev) (a : Nat) (v : List Byte) : (d.capture a v).queues = d.queues := by simp [Dev.capture]
@[simp] theorem Dev.h4Work_queues (d : Dev) (a v : Nat) : (d.h4Work a v).queues = d.queues := by simp [Dev.h4Work]
@[simp] theorem Dev.markerRx_queues (d : Dev) (a t : Nat) (v : Bool) : (d.markerRx a t v).queues = d.queues := by simp [Dev.markerRx]
@[simp] theorem Dev.pohPeriod_queues (d : Dev) (a : Nat) (l : List Byte) (computed : Option Byte) (t : Nat) :
    (d.pohPeriod a l computed t).queues = d.queues := by
  simp only [Dev.pohPeriod]
  (repeat' split) <;> simp
@[simp] theorem Dev.tuDeliver_queues (d : Dev) (a t : Nat) (raw : List Byte) : (d.tuDeliver a t raw).queues = d.queues := by
  simp [Dev.tuDeliver]
@[simp] theorem pohVisit_queues (d : Dev) (a : Nat) : (pohVisit d a).queues = d.queues := by simp [pohVisit]
@[simp] theorem markerTick_queues (d : Dev) (a : Nat) : (markerTick d a).queues = d.queues := by simp [markerTick]
@[simp] theorem markerLost_queues (d : Dev) (a : Nat) : (markerLost d a).queues = d.queues := by simp [markerLost]
@[simp] theorem Dev.markerRestart_queues (d : Dev) (a : Nat) : (d.markerRestart a).queues = d.queues := by simp [Dev.markerRestart]
@[simp] theorem Dev.h4Start_queues (d : Dev) (a : Nat) : (d.h4Start a).queues = d.queues := by simp [Dev.h4Start]
@[simp] theorem Dev.pohStart_queues (d : Dev) (a : Nat) : (d.pohStart a).queues = d.queues := by simp [Dev.pohStart]
@[simp] theorem Dev.onContext_queues (d : Dev) (m : Master) (gate : Nat) (levels : List Nat) (f : Nat → Dev → Dev × Nat)
    (hf : ∀ (v : Nat) (x : Dev), (f v x).1.queues = x.queues) :
    (d.onContext m gate levels f).1.queues = d.queues := by simp [Dev.onContext, hf]
@[simp] theorem traceCaptureWrite_queues (m : Master) (v : Nat) (d : Dev) : (traceCaptureWrite m v d).1.queues = d.queues := by
  simp [traceCaptureWrite]
@[simp] theorem pohTestApply_queues (a v : Nat) (d : Dev) : (pohTestApply a v d).queues = d.queues := by simp [pohTestApply]

/-! ## Transmitted paths -/

@[simp] theorem Dev.gapBytes_queues (d : Dev) (a n : Nat) : (d.gapBytes a n).1.queues = d.queues := by simp [Dev.gapBytes]
@[simp] theorem Dev.clientMap_queues (d : Dev) (a c : Nat) : (d.clientMap a c).1.queues = d.queues := by simp [Dev.clientMap]
@[simp] theorem Dev.markerTx_queues (d : Dev) (a : Nat) : (d.markerTx a).queues = d.queues := by simp [Dev.markerTx]
@[simp] theorem Dev.ownPoh_queues (d : Dev) (a : Nat) : (d.ownPoh a).1.queues = d.queues := by simp [Dev.ownPoh]
@[simp] theorem Dev.sealCont_queues (d : Dev) (a : Nat) (own : Bool) (body : List Byte) :
    (d.sealCont a own body).1.queues = d.queues := by simp [Dev.sealCont]
@[simp] theorem Dev.buildLeaf_queues (d : Dev) (a : Nat) : (d.buildLeaf a).1.queues = d.queues := by
  unfold Dev.buildLeaf
  (repeat' split) <;> simp
@[simp] theorem Dev.nextCont_queues (build : Dev → Nat → Dev × List Byte) (d : Dev) (a : Nat) (hbuild : ∀ (x : Dev)
    (w0 : Nat), (build x w0).1.queues = x.queues) :
    (Dev.nextCont build d a).1.queues = d.queues := by
  unfold Dev.nextCont
  split <;> simp [hbuild]
@[simp] theorem Dev.pull_queues (build : Dev → Nat → Dev × List Byte) (hbuild : ∀ (x : Dev)
    (w0 : Nat), (build x w0).1.queues = x.queues) (fuel : Nat) (d : Dev) (a n : Nat) :
    (Dev.pull build fuel d a n).1.queues = d.queues := by
  induction fuel generalizing d n with
  | zero => rfl
  | succ k ih =>
    unfold Dev.pull
    dsimp only
    (repeat' split) <;> simp [ih, hbuild]
@[simp] theorem Dev.bytesOf_queues (build : Dev → Nat → Dev × List Byte) (d : Dev) (a n : Nat) (ais : Bool) (hbuild : ∀ (x : Dev)
    (w0 : Nat), (build x w0).1.queues = x.queues) :
    (Dev.bytesOf build d a n ais).1.queues = d.queues := by simp [Dev.bytesOf, hbuild]
@[simp] theorem Dev.sentNow_queues (d : Dev) (a : Nat) : (d.sentNow a).queues = d.queues := by simp [Dev.sentNow]
@[simp] theorem Dev.sendPeriod_queues (build : Dev → Nat → Dev × List Byte) (d : Dev) (a n0 n1 : Nat) (hbuild : ∀ (x : Dev)
    (w0 : Nat), (build x w0).1.queues = x.queues) :
    (Dev.sendPeriod build d a n0 n1).1.queues = d.queues := by simp [Dev.sendPeriod, hbuild]
@[simp] theorem Dev.tuQuarter_queues (d : Dev) (a v : Nat) : (d.tuQuarter a v).1.queues = d.queues := by simp [Dev.tuQuarter]
@[simp] theorem Dev.gather_queues {α : Type} (d : Dev) (l : List Nat) (f : Dev → Nat → Dev × α) (hf : ∀ (x : Dev)
    (i : Nat), (f x i).1.queues = x.queues) :
    (d.gather l f).1.queues = d.queues := by
  suffices h : ∀ s : Dev × List α, (l.foldl (fun s i => let r := f s.1 i; (r.1, s.2 ++ [r.2])) s).1.queues = s.1.queues from h (d, [])
  induction l with
  | nil => intro s; rfl
  | cons i r ih => intro s; rw [List.foldl_cons, ih]; exact hf _ _
@[simp] theorem Dev.tug2Bytes_queues (d : Dev) (par k l v : Nat) : (d.tug2Bytes par k l v).1.queues = d.queues := by
  unfold Dev.tug2Bytes
  dsimp only
  rw [Dev.gather_queues]
  intro x i
  split <;> simp
@[simp] theorem Dev.tug2Rows_queues (d : Dev) (par k v : Nat) : (d.tug2Rows par k v).1.queues = d.queues := by simp [Dev.tug2Rows]
@[simp] theorem Dev.tug3Send_queues (d : Dev) (par k v : Nat) : (d.tug3Send par k v).1.queues = d.queues := by
  unfold Dev.tug3Send
  (repeat' split) <;> simp
@[simp] theorem Dev.buildStructured_queues (d : Dev) (a : Nat) : (d.buildStructured a).1.queues = d.queues := by
  simp [Dev.buildStructured]
@[simp] theorem Dev.buildAny_queues (d : Dev) (a : Nat) : (d.buildAny a).1.queues = d.queues := by simp [Dev.buildAny]
@[simp] theorem Dev.auSend_queues (d : Dev) (a : Nat) : (d.auSend a).1.queues = d.queues := by simp [Dev.auSend]
@[simp] theorem Dev.au3Send_queues (d : Dev) (p : Nat) (at_ : Option Nat) : (d.au3Send p at_).1.queues = d.queues := by
  unfold Dev.au3Send
  split <;> simp
@[simp] theorem Dev.ausSend_queues (p : Nat) (live : List Nat) (fuel : Nat) (d : Dev) (i n : Nat) :
    (Dev.ausSend p live fuel d i n).1.queues = d.queues := by
  induction fuel generalizing d i with
  | zero => rfl
  | succ k ih =>
    unfold Dev.ausSend
    dsimp only
    (repeat' split) <;> simp [ih]
@[simp] theorem Dev.stmPayload_queues (d : Dev) (p : Nat) (moves : List (Addr × Int)) : (d.stmPayload p moves).1.queues = d.queues := by
  simp [Dev.stmPayload]
@[simp] theorem Dev.stmSend_queues (d : Dev) (p : Nat) (moves : List (Addr × Int)) : (d.stmSend p moves).1.queues = d.queues := by
  simp [Dev.stmSend]
@[simp] theorem Dev.stmClientSend_queues (d : Dev) (p : Nat) (moves : List (Addr × Int)) :
    (d.stmClientSend p moves).queues = d.queues := by simp [Dev.stmClientSend]
@[simp] theorem Dev.otuSend_queues (d : Dev) (p : Nat) (moves : List (Addr × Int)) : (d.otuSend p moves).1.queues = d.queues := by
  simp [Dev.otuSend]
@[simp] theorem Dev.laneSend_queues (d : Dev) (l : Nat) (bytes : List Byte) : (d.laneSend l bytes).queues = d.queues := by
  simp [Dev.laneSend]
@[simp] theorem Dev.pinsSend_queues (d : Dev) (p mfas : Nat) (f : List Byte) : (d.pinsSend p mfas f).queues = d.queues := by
  simp [Dev.pinsSend]
@[simp] theorem transmitFrame_queues (d : Dev) (p : Nat) (client : Bool) (moves : List (Addr × Int)) :
    (transmitFrame d p client moves).queues = d.queues := by simp [transmitFrame]

/-! ## Defects and actions -/

@[simp] theorem Dev.report_queues (d : Dev) (a new : Nat) : (d.report a new).queues = d.queues := by simp [Dev.report]
@[simp] theorem Dev.defectPort_queues (d : Dev) (p : Nat) : (d.defectPort p).queues = d.queues := by simp [Dev.defectPort]
@[simp] theorem Dev.defectPath_queues (d : Dev) (a : Nat) : (d.defectPath a).queues = d.queues := by simp [Dev.defectPath]
@[simp] theorem defectVisit_queues (d : Dev) (a : Nat) : (defectVisit d a).queues = d.queues := by simp [defectVisit]
@[simp] theorem berBlockEnd_queues (d : Dev) (a : Nat) (sf : Bool) : (berBlockEnd d a sf).queues = d.queues := by simp [berBlockEnd]
@[simp] theorem defectCounts_queues (d : Dev) : (defectCounts d).queues = d.queues := by simp [defectCounts]
@[simp] theorem Dev.defectStart_queues (d : Dev) (a : Nat) : (d.defectStart a).queues = d.queues := by simp [Dev.defectStart]

/-! ## Performance monitoring -/

@[simp] theorem Dev.tick_queues (d : Dev) (irregular : Bool) (number : Option Nat) : (d.tick irregular number).queues = d.queues := by
  simp [Dev.tick]
@[simp] theorem Dev.ppsLost_queues (d : Dev) : d.ppsLost.queues = d.queues := by simp [Dev.ppsLost]
@[simp] theorem ppsEdge_queues (d : Dev) (falling : Bool) (interval since : Nat) :
    (ppsEdge d falling interval since).queues = d.queues := by simp [ppsEdge]
@[simp] theorem flywheelTick_queues (d : Dev) : (flywheelTick d).queues = d.queues := by simp [flywheelTick]
@[simp] theorem ppsLoss_queues (d : Dev) : (ppsLoss d).queues = d.queues := by simp [ppsLoss]
@[simp] theorem tickEffect_queues (d : Dev) : (tickEffect d).queues = d.queues := by simp [tickEffect]
@[simp] theorem closePath_queues (d : Dev) (a : Nat) : (closePath d a).queues = d.queues := by
  simp only [closePath]
  (repeat' split) <;> simp
@[simp] theorem Dev.cpmEvent_queues (d : Dev) (c detail : Nat) (clear : Bool) : (d.cpmEvent c detail clear).queues = d.queues := by
  simp [Dev.cpmEvent]
@[simp] theorem Dev.cpmAlerts_queues (d : Dev) (c : Nat) : (d.cpmAlerts c).queues = d.queues := by simp [Dev.cpmAlerts]
@[simp] theorem Dev.cpmChange_queues (d : Dev) (c : Nat) (last : List (Bool × Bool)) (un : Bool) :
    (d.cpmChange c last un).queues = d.queues := by simp [Dev.cpmChange]
@[simp] theorem closeClient_queues (d : Dev) (c : Nat) : (closeClient d c).queues = d.queues := by
  simp only [closeClient]
  (repeat' split) <;> simp
@[simp] theorem Dev.binSpoil_queues (d : Dev) (a i : Nat) : (d.binSpoil a i).queues = d.queues := by simp [Dev.binSpoil]
@[simp] theorem Dev.visitEcc_queues (d : Dev) (a i : Nat) (ecc : Ecc) : (d.visitEcc a i ecc).queues = d.queues := by simp [Dev.visitEcc]
@[simp] theorem closeOut_queues (d : Dev) (ecc : Ecc) (i : Nat) (t : PmTarget) : (closeOut d ecc i t).queues = d.queues := by
  unfold closeOut
  split <;> simp
@[simp] theorem managementRollover_queues (d : Dev) : (managementRollover d).queues = d.queues := by simp [managementRollover]
@[simp] theorem Dev.pmRelease_queues (d : Dev) : d.pmRelease.queues = d.queues := by simp [Dev.pmRelease]
@[simp] theorem Dev.pmInvalidate_queues (d : Dev) : d.pmInvalidate.queues = d.queues := by simp [Dev.pmInvalidate]
@[simp] theorem Dev.pmStart_queues (d : Dev) (a : Nat) : (d.pmStart a).queues = d.queues := by simp [Dev.pmStart]
@[simp] theorem Dev.cpmStart_queues (d : Dev) (c : Nat) : (d.cpmStart c).queues = d.queues := by simp [Dev.cpmStart]
@[simp] theorem Dev.cpmDelay_queues (d : Dev) (c delay : Nat) (asym : Int) : (d.cpmDelay c delay asym).queues = d.queues := by
  simp [Dev.cpmDelay]
@[simp] theorem pmSecondWrite_queues (v : Nat) (coincident : Bool) (d : Dev) : (pmSecondWrite v coincident d).1.queues = d.queues := by
  simp [pmSecondWrite]
@[simp] theorem pmClear_queues (m : Master) (v : Nat) (d : Dev) : (pmClear m v d).1.queues = d.queues := by simp [pmClear]
@[simp] theorem cpmClear_queues (c v : Nat) (d : Dev) : (cpmClear c v d).1.queues = d.queues := by simp [cpmClear]
@[simp] theorem pmBlockDone_queues (d : Dev) (m : Master) (n : Nat) : (pmBlockDone d m n).queues = d.queues := by simp [pmBlockDone]
@[simp] theorem pmSnapshot_queues (d : Dev) : (pmSnapshot d).queues = d.queues := by simp [pmSnapshot]

/-! ## Protection -/

@[simp] theorem Dev.onProt_queues (d : Dev) (w : Nat) (f : Prot → Prot) : (d.onProt w f).queues = d.queues := by simp [Dev.onProt]
@[simp] theorem Dev.latchTriggers_queues (d : Dev) : d.latchTriggers.queues = d.queues := by simp [Dev.latchTriggers]
@[simp] theorem Dev.showCommand_queues (d : Dev) (w : Nat) : (d.showCommand w).queues = d.queues := by simp [Dev.showCommand]
@[simp] theorem selectorVisit_queues (d : Dev) (w : Nat) : (selectorVisit d w).queues = d.queues := by simp [selectorVisit]
@[simp] theorem mspDecide_queues (d : Dev) (w : Nat) : (mspDecide d w).queues = d.queues := by simp [mspDecide]
@[simp] theorem sectionVisit_queues (d : Dev) (p : Nat) : (sectionVisit d p).queues = d.queues := by simp [sectionVisit]
@[simp] theorem Dev.protEvent_queues (d : Dev) (code n a : Nat) : (d.protEvent code n a).queues = d.queues := by simp [Dev.protEvent]
@[simp] theorem fopDeclare_queues (d : Dev) (w : Nat) (f : ApsFailure) : (fopDeclare d w f).queues = d.queues := by simp [fopDeclare]
@[simp] theorem apsClear_queues (d : Dev) (w : Nat) (f : ApsFailure) : (apsClear d w f).queues = d.queues := by simp [apsClear]
@[simp] theorem holdOffExpiry_queues (d : Dev) (w : Nat) (k : Member) : (holdOffExpiry d w k).queues = d.queues := by
  simp [holdOffExpiry]
@[simp] theorem wtrExpiry_queues (d : Dev) (w : Nat) : (wtrExpiry d w).queues = d.queues := by simp [wtrExpiry]
@[simp] theorem exerciseEnd_queues (d : Dev) (p : Nat) : (exerciseEnd d p).queues = d.queues := by simp [exerciseEnd]
@[simp] theorem commandApply_queues (w c : Nat) (d : Dev) : (commandApply w c d).queues = d.queues := by simp [commandApply]
@[simp] theorem commandWrite_queues (w c : Nat) (d : Dev) : (commandWrite w c d).1.queues = d.queues := by simp [commandWrite]
@[simp] theorem Dev.switchOne_queues (d : Dev) (w : Nat) : (d.switchOne w).queues = d.queues := by simp [Dev.switchOne]
@[simp] theorem Dev.applySelections_queues (d : Dev) : d.applySelections.queues = d.queues := by
  simp only [Dev.applySelections]
  (repeat' split) <;> simp
@[simp] theorem Dev.protStart_queues (d : Dev) (w : Nat) : (d.protStart w).queues = d.queues := by simp [Dev.protStart]
@[simp] theorem Dev.protGone_queues (d : Dev) (w : Nat) : (d.protGone w).queues = d.queues := by simp [Dev.protGone]

/-! ## Client ports -/

@[simp] theorem Dev.clientEvent_queues (d : Dev) (c detail : Nat) : (d.clientEvent c detail).queues = d.queues := by
  simp [Dev.clientEvent]
@[simp] theorem clientDeclare_queues (d : Dev) (c : Nat) (f : ClientDefect) : (clientDeclare d c f).queues = d.queues := by
  simp [clientDeclare]
@[simp] theorem clientClear_queues (d : Dev) (c : Nat) (f : ClientDefect) : (clientClear d c f).queues = d.queues := by
  simp [clientClear]
@[simp] theorem Dev.ingressPush_queues (d : Dev) (c : Nat) (data : List Byte) : (d.ingressPush c data).queues = d.queues := by
  simp [Dev.ingressPush]
@[simp] theorem clientReceive_queues (d : Dev) (c : Nat) (errored : Bool) (data : List Byte) :
    (clientReceive d c errored data).queues = d.queues := by simp [clientReceive]
@[simp] theorem Dev.slewChanged_queues (d : Dev) (c old : Nat) : (d.slewChanged c old).queues = d.queues := by simp [Dev.slewChanged]
@[simp] theorem Dev.slewTo_queues (d : Dev) (c t : Nat) : (d.slewTo c t).queues = d.queues := by simp [Dev.slewTo]
@[simp] theorem Dev.fillAtTarget_queues (d : Dev) (c t : Nat) : (d.fillAtTarget c t).queues = d.queues := by simp [Dev.fillAtTarget]
@[simp] theorem ingressSlip_queues (d : Dev) (c : Nat) : (ingressSlip d c).queues = d.queues := by simp [ingressSlip]
@[simp] theorem bufferStarved_queues (d : Dev) (c : Nat) : (bufferStarved d c).queues = d.queues := by simp [bufferStarved]
@[simp] theorem bufferOverflow_queues (d : Dev) (c : Nat) : (bufferOverflow d c).queues = d.queues := by simp [bufferOverflow]
@[simp] theorem starvationEnd_queues (d : Dev) (c : Nat) : (starvationEnd d c).queues = d.queues := by simp [starvationEnd]
@[simp] theorem Dev.clientSend_queues (d : Dev) (c : Nat) : (d.clientSend c).queues = d.queues := by simp [Dev.clientSend]
@[simp] theorem Dev.setPin_queues (d : Dev) (c st : Nat) : (d.setPin c st).queues = d.queues := by simp [Dev.setPin]
@[simp] theorem Dev.pinAt_queues (d : Dev) (c st : Nat) (fill : Int) (step : Bool) : (d.pinAt c st fill step).queues = d.queues := by
  simp [Dev.pinAt]
@[simp] theorem Dev.skewWork_queues (d : Dev) (c : Nat) : (d.skewWork c).queues = d.queues := by
  simp only [Dev.skewWork]
  (repeat' split) <;> simp
@[simp] theorem Dev.pinSwitch_queues (d : Dev) (c : Nat) : (d.pinSwitch c).queues = d.queues := by
  unfold Dev.pinSwitch
  dsimp only
  (repeat' split) <;> simp only [Dev.pinAt_queues, Dev.setPin_queues, Dev.set1_queues, Dev.onClient_queues]
@[simp] theorem Dev.holdEnds_queues (d : Dev) (c : Nat) : (d.holdEnds c).queues = d.queues := by
  simp only [Dev.holdEnds]
  (repeat' split) <;> simp
@[simp] theorem Dev.asymCheck_queues (d : Dev) (c : Nat) : (d.asymCheck c).queues = d.queues := by simp [Dev.asymCheck]
@[simp] theorem Dev.pinCompute_queues (d : Dev) (c reading : Nat) (far : FarReport) (fresh : Bool) :
    (d.pinCompute c reading far fresh).queues = d.queues := by simp [Dev.pinCompute]
@[simp] theorem Dev.pinOpen_queues (d : Dev) (c st : Nat) (step : Bool) : (d.pinOpen c st step).queues = d.queues := by
  simp [Dev.pinOpen]
@[simp] theorem Dev.pinRetarget_queues (d : Dev) (c : Nat) : (d.pinRetarget c).queues = d.queues := by
  unfold Dev.pinRetarget
  split <;> simp
@[simp] theorem Dev.pinClosed_queues (d : Dev) (c : Nat) : (d.pinClosed c).queues = d.queues := by simp [Dev.pinClosed]
@[simp] theorem Dev.farCheck_queues (d : Dev) (c : Nat) : (d.farCheck c).queues = d.queues := by simp [Dev.farCheck]
@[simp] theorem clientVisit_queues (d : Dev) (c : Nat) : (clientVisit d c).queues = d.queues := by simp [clientVisit]
@[simp] theorem farApply_queues (c : Nat) (l : List Byte) (d : Dev) : (farApply c l d).queues = d.queues := by simp [farApply]
@[simp] theorem farWrite_queues (c : Nat) (l : List Byte) (d : Dev) : (farWrite c l d).1.queues = d.queues := by simp [farWrite]
@[simp] theorem clientTestApply_queues (c v : Nat) (d : Dev) : (clientTestApply c v d).queues = d.queues := by simp [clientTestApply]
@[simp] theorem Dev.clientStart_queues (d : Dev) (c : Nat) : (d.clientStart c).queues = d.queues := by simp [Dev.clientStart]

/-! ## The tributary fabric -/

@[simp] theorem Dev.onTfi_queues (d : Dev) (l : Nat) (f : TfiLane → TfiLane) : (d.onTfi l f).queues = d.queues := by simp [Dev.onTfi]
@[simp] theorem Dev.onMateLane_queues (d : Dev) (k : Nat) (f : TfiLane → TfiLane) : (d.onMateLane k f).queues = d.queues := by
  simp [Dev.onMateLane]
@[simp] theorem Dev.tfiEvent_queues (d : Dev) (l detail level a : Nat) : (d.tfiEvent l detail level a).queues = d.queues := by
  simp [Dev.tfiEvent]
@[simp] theorem Dev.onCellLane_queues (d : Dev) (c : CellLane) (f : TfiLane → TfiLane) : (d.onCellLane c f).queues = d.queues := by
  unfold Dev.onCellLane
  split <;> simp
@[simp] theorem Dev.setDelin_queues (d : Dev) (c : CellLane) (st : Nat) : (d.setDelin c st).queues = d.queues := by
  unfold Dev.setDelin
  split <;> simp
@[simp] theorem blockLock_queues (d : Dev) (c : CellLane) : (blockLock d c).queues = d.queues := by simp [blockLock]
@[simp] theorem blockLockLoss_queues (d : Dev) (c : CellLane) : (blockLockLoss d c).queues = d.queues := by simp [blockLockLoss]
@[simp] theorem Dev.delineate_queues (d : Dev) (c : CellLane) (ok : Bool) : (d.delineate c ok).queues = d.queues := by
  simp [Dev.delineate]
@[simp] theorem Dev.playEmpty_queues (d : Dev) (a : Nat) : (d.playEmpty a).queues = d.queues := by simp [Dev.playEmpty]
@[simp] theorem Dev.setIn_queues (d : Dev) (a st : Nat) : (d.setIn a st).queues = d.queues := by simp [Dev.setIn]
@[simp] theorem Dev.playOut_queues (d : Dev) (a fuel : Nat) : (d.playOut a fuel).queues = d.queues := by
  induction fuel generalizing d with
  | zero => rfl
  | succ k ih =>
    unfold Dev.playOut
    dsimp only
    split <;> simp [ih]
@[simp] theorem Dev.tfiReturn_queues (d : Dev) (a : Nat) (was : Bool) : (d.tfiReturn a was).queues = d.queues := by simp [Dev.tfiReturn]
@[simp] theorem Dev.underrun_queues (d : Dev) (a l : Nat) : (d.underrun a l).queues = d.queues := by simp [Dev.underrun]
@[simp] theorem Dev.waitCell_queues (d : Dev) (a cso : Nat) (payload : List Byte) : (d.waitCell a cso payload).queues = d.queues := by
  simp [Dev.waitCell]
@[simp] theorem Dev.dataCell_queues (d : Dev) (a l cso seq : Nat) (ais : Bool) (payload : List Byte) :
    (d.dataCell a l cso seq ais payload).queues = d.queues := by simp [Dev.dataCell]
@[simp] theorem Dev.cellDeliver_queues (d : Dev) (l : Nat) (head trail : Nat) (payload : List Byte) :
    (d.cellDeliver l head trail payload).queues = d.queues := by
  unfold Dev.cellDeliver
  (repeat' split) <;> simp
@[simp] theorem cellReceived_queues (d : Dev) (c : CellLane) (raw : List Byte) (syncOk : Bool) :
    (cellReceived d c raw syncOk).queues = d.queues := by
  unfold cellReceived
  (repeat' split) <;> simp
@[simp] theorem cellSend_queues (d : Dev) (l : Nat) : (cellSend d l).queues = d.queues := by
  simp only [cellSend]
  (repeat' split) <;> simp
@[simp] theorem creditStall_queues (d : Dev) (l : Nat) : (creditStall d l).queues = d.queues := by simp [creditStall]
@[simp] theorem Dev.dropped_queues (d : Dev) (l : Nat) (c : Cell) : (d.dropped l c).queues = d.queues := by
  unfold Dev.dropped
  split <;> simp
@[simp] theorem Dev.enqueue_queues (d : Dev) (l : Nat) (c : Cell) : (d.enqueue l c).queues = d.queues := by
  simp only [Dev.enqueue]
  (repeat' split) <;> simp
@[simp] theorem cellGenerate_queues (d : Dev) (a : Nat) : (cellGenerate d a).queues = d.queues := by simp [cellGenerate]
@[simp] theorem playoutUnderrun_queues (d : Dev) (a : Nat) : (playoutUnderrun d a).queues = d.queues := by simp [playoutUnderrun]
@[simp] theorem Dev.tfiTick_queues (d : Dev) : d.tfiTick.queues = d.queues := by
  unfold Dev.tfiTick
  apply foldl_queues
  intro x a
  split <;> simp
@[simp] theorem Dev.tfiLaneStart_queues (d : Dev) (l : Nat) : (d.tfiLaneStart l).queues = d.queues := by simp [Dev.tfiLaneStart]
@[simp] theorem Dev.mateLaneStart_queues (d : Dev) (k : Nat) : (d.mateLaneStart k).queues = d.queues := by simp [Dev.mateLaneStart]
@[simp] theorem Dev.tfiChStart_queues (d : Dev) (a : Nat) : (d.tfiChStart a).queues = d.queues := by simp [Dev.tfiChStart]
@[simp] theorem Dev.tfiChNew_queues (d : Dev) (a : Nat) : (d.tfiChNew a).queues = d.queues := by simp [Dev.tfiChNew]
@[simp] theorem Dev.tfiChGone_queues (d : Dev) (a entry ctl : Nat) : (d.tfiChGone a entry ctl).queues = d.queues := by
  simp [Dev.tfiChGone]

/-! ## Starts and swaps -/

@[simp] theorem Dev.eachPort_queues (d : Dev) (f : Dev → Nat → Dev) (hf : ∀ (x : Dev) (v : Nat), (f x v).queues = x.queues) :
    (d.eachPort f).queues = d.queues := by simp [Dev.eachPort, hf]
@[simp] theorem Dev.eachContext_queues (d : Dev) (f : Dev → Nat → Dev) (hf : ∀ (x : Dev) (v : Nat), (f x v).queues = x.queues) :
    (d.eachContext f).queues = d.queues := by simp [Dev.eachContext, hf]
@[simp] theorem Dev.eachProt_queues (d : Dev) (f : Dev → Nat → Dev) (hf : ∀ (x : Dev) (v : Nat), (f x v).queues = x.queues) :
    (d.eachProt f).queues = d.queues := by simp [Dev.eachProt, hf]
@[simp] theorem Dev.eachClient_queues (d : Dev) (f : Dev → Nat → Dev) (hf : ∀ (x : Dev) (v : Nat), (f x v).queues = x.queues) :
    (d.eachClient f).queues = d.queues := by simp [Dev.eachClient, hf]
@[simp] theorem Dev.actionsStart_queues (d : Dev) : d.actionsStart.queues = d.queues := by simp [Dev.actionsStart]
@[simp] theorem Dev.tfiStart_queues (d : Dev) : d.tfiStart.queues = d.queues := by simp [Dev.tfiStart]
@[simp] theorem Dev.clearedStart_queues (d : Dev) : d.clearedStart.queues = d.queues := by simp [Dev.clearedStart]
@[simp] theorem Dev.receiveStart_queues (d : Dev) : d.receiveStart.queues = d.queues := by simp [Dev.receiveStart]
@[simp] theorem Dev.quadStart_queues (d : Dev) (q : Nat) : (d.quadStart q).queues = d.queues := by simp [Dev.quadStart]
@[simp] theorem Dev.blockStart_queues (d : Dev) (mask : Nat) : (d.blockStart mask).queues = d.queues := by simp [Dev.blockStart]
@[simp] theorem Dev.berSwap_queues (d : Dev) (old : Bank) (a : Nat) : (d.berSwap old a).queues = d.queues := by simp [Dev.berSwap]
@[simp] theorem Dev.alignSwap_queues (d : Dev) (p : Nat) : (d.alignSwap p).queues = d.queues := by simp [Dev.alignSwap]
@[simp] theorem Dev.laneSwap_queues (d : Dev) (old : Bank) (l : Nat) : (d.laneSwap old l).queues = d.queues := by simp [Dev.laneSwap]
@[simp] theorem Dev.portSwap_queues (d : Dev) (old : Bank) (p : Nat) : (d.portSwap old p).queues = d.queues := by simp [Dev.portSwap]
@[simp] theorem Dev.quadSwap_queues (d0 : Dev) (old : Bank) (q : Nat) : (d0.quadSwap old q).queues = d0.queues := by simp [Dev.quadSwap]
@[simp] theorem Dev.dropCaptures_queues (d : Dev) (a : Nat) : (d.dropCaptures a).queues = d.queues := by simp [Dev.dropCaptures]
@[simp] theorem Dev.contextNew_queues (d : Dev) (a : Nat) : (d.contextNew a).queues = d.queues := by simp [Dev.contextNew]
@[simp] theorem Dev.contextGone_queues (d : Dev) (old : Bank) (a : Nat) : (d.contextGone old a).queues = d.queues := by
  simp [Dev.contextGone]
@[simp] theorem Dev.contextKept_queues (d : Dev) (old : Bank) (a : Nat) : (d.contextKept old a).queues = d.queues := by
  simp [Dev.contextKept]
@[simp] theorem Dev.contextSwap_queues (d : Dev) (old : Bank) (a : Nat) : (d.contextSwap old a).queues = d.queues := by
  simp [Dev.contextSwap]
@[simp] theorem Dev.protSwap_queues (d : Dev) (old : Bank) (w : Nat) : (d.protSwap old w).queues = d.queues := by simp [Dev.protSwap]
@[simp] theorem Dev.pinSwap_queues (d : Dev) (old : Bank) (c : Nat) : (d.pinSwap old c).queues = d.queues := by simp [Dev.pinSwap]
@[simp] theorem Dev.clientSwap_queues (d0 : Dev) (old : Bank) (c : Nat) : (d0.clientSwap old c).queues = d0.queues := by
  simp [Dev.clientSwap]
@[simp] theorem Dev.tfiSwap_queues (d : Dev) (was : Nat → Bool) (l : Nat) : (d.tfiSwap was l).queues = d.queues := by simp [Dev.tfiSwap]
@[simp] theorem Dev.swapEffects_queues (d : Dev) (old : Bank) : (d.swapEffects old).queues = d.queues := by simp [Dev.swapEffects]

/-! ## Pair redundancy -/

@[simp] theorem Dev.startClaim_queues (d : Dev) (cause : Nat) : (d.startClaim cause).queues = d.queues := by simp [Dev.startClaim]
@[simp] theorem Dev.enterJoin_queues (d : Dev) : d.enterJoin.queues = d.queues := by simp [Dev.enterJoin]
@[simp] theorem Dev.shadowAlone_queues (d : Dev) : d.shadowAlone.queues = d.queues := by simp [Dev.shadowAlone]
@[simp] theorem heartbeatIn_queues (d : Dev) (h : Heartbeat) : (heartbeatIn d h).queues = d.queues := by simp [heartbeatIn]
@[simp] theorem heartbeatOut_queues (d : Dev) : (heartbeatOut d).queues = d.queues := by simp [heartbeatOut]
@[simp] theorem heartbeatLost_queues (d : Dev) : (heartbeatLost d).queues = d.queues := by simp [heartbeatLost]
@[simp] theorem claimSeen_queues (d : Dev) : (claimSeen d).queues = d.queues := by simp [claimSeen]
@[simp] theorem claimGone_queues (d : Dev) : (claimGone d).queues = d.queues := by
  unfold claimGone
  (repeat' split) <;> simp
@[simp] theorem Dev.startVerify_queues (d : Dev) : d.startVerify.queues = d.queues := by simp [Dev.startVerify]
@[simp] theorem Dev.verifySample_queues (d : Dev) : d.verifySample.queues = d.queues := by simp [Dev.verifySample]
@[simp] theorem claimGranted_queues (d : Dev) : (claimGranted d).queues = d.queues := by simp [claimGranted]
@[simp] theorem interlockFault_queues (d : Dev) : (interlockFault d).queues = d.queues := by simp [interlockFault]
@[simp] theorem phaseLocked_queues (d : Dev) (f : FrameMark) : (phaseLocked d f).queues = d.queues := by simp [phaseLocked]
@[simp] theorem phaseLost_queues (d : Dev) : (phaseLost d).queues = d.queues := by simp [phaseLost]
@[simp] theorem frameMarked_queues (d : Dev) (f : FrameMark) : (frameMarked d f).queues = d.queues := by simp [frameMarked]
@[simp] theorem joinStarted_queues (d : Dev) : (joinStarted d).queues = d.queues := by simp [joinStarted]
@[simp] theorem Dev.progress_queues (d : Dev) (part bytes : Nat) : (d.progress part bytes).queues = d.queues := by simp [Dev.progress]
@[simp] theorem Dev.copyRec_queues (d : Dev) (r : CopyRec) : (d.copyRec r).queues = d.queues := by
  unfold Dev.copyRec
  split <;> simp
@[simp] theorem Dev.copyPm_queues (d : Dev) (r : Addr × PmCtx) : (d.copyPm r).queues = d.queues := by simp [Dev.copyPm]
@[simp] theorem copied_queues (d : Dev) (p : CopyPart) : (copied d p).queues = d.queues := by
  unfold copied
  (repeat' split) <;> simp
@[simp] theorem partEnded_queues (d : Dev) (p : PartName) (crcOk : Bool) : (partEnded d p crcOk).queues = d.queues := by
  unfold partEnded
  (repeat' split) <;> simp
@[simp] theorem Dev.restartRevert_queues (d : Dev) : d.restartRevert.queues = d.queues := by simp [Dev.restartRevert]
@[simp] theorem Dev.startCheck_queues (d : Dev) : d.startCheck.queues = d.queues := by simp [Dev.startCheck]
@[simp] theorem signaturesIn_queues (d : Dev) (frame : Nat) (values : List (BitVec 32)) :
    (signaturesIn d frame values).queues = d.queues := by
  simp only [signaturesIn]
  (repeat' split) <;> simp
@[simp] theorem Dev.checkEvent_queues (d : Dev) (forced : Bool) : (d.checkEvent forced).queues = d.queues := by simp [Dev.checkEvent]
@[simp] theorem Dev.checkOutcome_queues (d : Dev) (own mate : Bool) : (d.checkOutcome own mate).queues = d.queues := by
  simp [Dev.checkOutcome]
@[simp] theorem Dev.checkDecide_queues (d : Dev) : d.checkDecide.queues = d.queues := by
  unfold Dev.checkDecide
  split <;> simp
@[simp] theorem selfCheckIn_queues (d : Dev) (mate : Option CheckResult) : (selfCheckIn d mate).queues = d.queues := by
  unfold selfCheckIn
  (repeat' split) <;> simp
@[simp] theorem selfCheckOwn_queues (d : Dev) (own : CheckResult) : (selfCheckOwn d own).queues = d.queues := by simp [selfCheckOwn]
@[simp] theorem selfCheckLate_queues (d : Dev) : (selfCheckLate d).queues = d.queues := by simp [selfCheckLate]
@[simp] theorem releaseIn_queues (d : Dev) (cause : Nat) : (releaseIn d cause).queues = d.queues := by simp [releaseIn]
@[simp] theorem revertDue_queues (d : Dev) : (revertDue d).queues = d.queues := by simp [revertDue]
@[simp] theorem revertRequested_queues (d : Dev) (boundary cause : Nat) : (revertRequested d boundary cause).queues = d.queues := by
  simp [revertRequested]
@[simp] theorem revertGranted_queues (d : Dev) (b : Nat) : (revertGranted d b).queues = d.queues := by
  unfold revertGranted
  split <;> simp
@[simp] theorem grantLate_queues (d : Dev) : (grantLate d).queues = d.queues := by
  unfold grantLate
  split <;> simp
@[simp] theorem handoverAt_queues (d : Dev) : (handoverAt d).queues = d.queues := by
  unfold handoverAt
  (repeat' split) <;> simp
@[simp] theorem forceHandover_queues (d : Dev) : (forceHandover d).1.queues = d.queues := by simp [forceHandover]
@[simp] theorem verifyEnd_queues (d : Dev) : (verifyEnd d).queues = d.queues := by simp [verifyEnd]

/-! ## The check-value unit -/

@[simp] theorem Dev.abortScan_queues (d : Dev) (cause : Nat) : (d.abortScan cause).queues = d.queues := by
  unfold Dev.abortScan
  split <;> simp
@[simp] theorem Dev.abortScans_queues (d : Dev) (cause : Nat) : (d.abortScans cause).queues = d.queues := by simp [Dev.abortScans]
@[simp] theorem startScan_queues (d : Dev) (v : Nat) : (startScan d v).1.queues = d.queues := by
  simp only [startScan]
  (repeat' split) <;> simp
@[simp] theorem scanDone_queues (d : Dev) (touched : Bool) (ecc : Ecc) : (scanDone d touched ecc).queues = d.queues := by
  unfold scanDone
  split <;> simp
@[simp] theorem runningWrite_queues (d : Dev) (n v : Nat) : (runningWrite d n v).1.queues = d.queues := by simp [runningWrite]
@[simp] theorem integrityStart_queues (d : Dev) : (integrityStart d).queues = d.queues := by simp [integrityStart]
@[simp] theorem attemptReport_queues (bank : Nat) (d : Dev) (z0 : Attempt) : (attemptReport bank d z0).queues = d.queues := by
  unfold attemptReport
  split <;> simp
@[simp] theorem integrityEnd_queues (d : Dev) (attempts : List Attempt) (corrected : Nat) :
    (integrityEnd d attempts corrected).queues = d.queues := by simp [integrityEnd]

/-! ## Kiln -/

@[simp] theorem Dev.forcedSwitch_queues (d : Dev) (stopped : Bool) : (d.forcedSwitch stopped).queues = d.queues := by
  simp [Dev.forcedSwitch]
@[simp] theorem Dev.mgmtFallback_queues (d : Dev) (stopped : Bool) : (d.mgmtFallback stopped).queues = d.queues := by
  simp [Dev.mgmtFallback]
@[simp] theorem Dev.switchRef_queues (d : Dev) (r : Nat) (stopped : Bool) : (d.switchRef r stopped).queues = d.queues := by
  simp [Dev.switchRef]
@[simp] theorem Dev.enterClamp_queues (d : Dev) (causes : Nat) : (d.enterClamp causes).queues = d.queues := by simp [Dev.enterClamp]
@[simp] theorem Dev.causeEnds_queues (d : Dev) (mask : Nat) : (d.causeEnds mask).queues = d.queues := by simp [Dev.causeEnds]
@[simp] theorem monitorTrip_queues (d : Dev) (s : Source) (stopped : Bool) : (monitorTrip d s stopped).queues = d.queues := by
  simp [monitorTrip]
@[simp] theorem sourceQualified_queues (d : Dev) (s : Source) : (sourceQualified d s).queues = d.queues := by
  unfold sourceQualified
  split <;> simp
@[simp] theorem Dev.zeroiseBurn_queues (d : Dev) : d.zeroiseBurn.queues = d.queues := by simp [Dev.zeroiseBurn]
@[simp] theorem clampReleased_queues (d : Dev) : (clampReleased d).queues = d.queues := by simp [clampReleased]
@[simp] theorem referenceReturn_queues (d : Dev) (s : Source) : (referenceReturn d s).queues = d.queues := by
  unfold referenceReturn
  split <;> simp
@[simp] theorem mgmtReturn_queues (d : Dev) : (mgmtReturn d).queues = d.queues := by simp [mgmtReturn]
@[simp] theorem Dev.startRaise_queues (d : Dev) (target : Nat) : (d.startRaise target).queues = d.queues := by simp [Dev.startRaise]
@[simp] theorem voltageSettled_queues (d : Dev) (mv : Nat) : (voltageSettled d mv).queues = d.queues := by simp [voltageSettled]
@[simp] theorem divisorChanged_queues (d : Dev) : (divisorChanged d).queues = d.queues := by simp [divisorChanged]
@[simp] theorem voltageLowered_queues (d : Dev) (mv : Nat) : (voltageLowered d mv).queues = d.queues := by simp [voltageLowered]
@[simp] theorem avsFailed_queues (d : Dev) : (avsFailed d).queues = d.queues := by simp [avsFailed]
@[simp] theorem opOverrideApply_queues (v : Nat) (d : Dev) : (opOverrideApply v d).1.queues = d.queues := by simp [opOverrideApply]
@[simp] theorem opRetry_queues (d : Dev) : (opRetry d).1.queues = d.queues := by simp [opRetry]
@[simp] theorem blocksResume_queues (d : Dev) : (blocksResume d).queues = d.queues := by simp [blocksResume]
@[simp] theorem timeStepWrite_queues (d : Dev) (v : Nat) : (timeStepWrite d v).1.queues = d.queues := by simp [timeStepWrite]
@[simp] theorem Dev.applyStep_queues (d : Dev) : d.applyStep.queues = d.queues := by
  unfold Dev.applyStep
  split <;> simp
@[simp] theorem refGateEnd_queues (d : Dev) (s : Source) (count : Nat) (valid : Bool) :
    (refGateEnd d s count valid).queues = d.queues := by
  unfold refGateEnd
  (repeat' split) <;> simp

/-! ## The CAN layer -/

@[simp] theorem Dev.endSession_queues (d : Dev) (cause : Nat) : (d.endSession cause).queues = d.queues := by simp [Dev.endSession]
@[simp] theorem Dev.dropEmcy_queues (d : Dev) : d.dropEmcy.queues = d.queues := by simp [Dev.dropEmcy]
@[simp] theorem Dev.canBootUp_queues (d : Dev) : d.canBootUp.queues = d.queues := by simp [Dev.canBootUp]
@[simp] theorem Dev.canInit_queues (d : Dev) : d.canInit.queues = d.queues := by simp [Dev.canInit]
@[simp] theorem canDetected_queues (d : Dev) (code : Nat) : (canDetected d code).queues = d.queues := by simp [canDetected]
@[simp] theorem nmtStart_queues (d : Dev) : (nmtStart d).queues = d.queues := by simp [nmtStart]
@[simp] theorem nmtPreOperational_queues (d : Dev) : (nmtPreOperational d).queues = d.queues := by simp [nmtPreOperational]
@[simp] theorem canHeartbeat_queues (d : Dev) : (canHeartbeat d).queues = d.queues := by simp [canHeartbeat]
@[simp] theorem tpdoInhibitEnd_queues (d : Dev) (n : Nat) : (tpdoInhibitEnd d n).queues = d.queues := by simp [tpdoInhibitEnd]
@[simp] theorem tpdoTimer_queues (d : Dev) (n : Nat) : (tpdoTimer d n).queues = d.queues := by simp [tpdoTimer]
@[simp] theorem syncIn_queues (d : Dev) : (syncIn d).queues = d.queues := by simp [syncIn]

/-! ## Modes and Boot -/

@[simp] theorem modeRequestWrite_queues (v : Nat) (d : Dev) : (modeRequestWrite v d).1.queues = d.queues := by simp [modeRequestWrite]
@[simp] theorem modeGuardedApply_queues (v : Nat) (d : Dev) : (modeGuardedApply v d).1.queues = d.queues := by simp [modeGuardedApply]
@[simp] theorem Dev.serdesDown_queues (d : Dev) (quiesce : Bool) : (d.serdesDown quiesce).queues = d.queues := by simp [Dev.serdesDown]
@[simp] theorem Dev.pairIdle_queues (d : Dev) : d.pairIdle.queues = d.queues := by simp [Dev.pairIdle]
@[simp] theorem Dev.enterClaim_queues (d : Dev) (target : Nat) : (d.enterClaim target).queues = d.queues := by simp [Dev.enterClaim]
@[simp] theorem modeChange_queues (d : Dev) : (modeChange d).queues = d.queues := by
  unfold modeChange
  split <;> simp
@[simp] theorem burnDone_queues (d : Dev) (b : Burn) : (burnDone d b).queues = d.queues := by
  unfold burnDone
  split <;> simp
@[simp] theorem sramCleared_queues (d : Dev) : (sramCleared d).queues = d.queues := by simp [sramCleared]
@[simp] theorem slotVerified_queues (d : Dev) (c : SlotContent) : (slotVerified d c).queues = d.queues := by simp [slotVerified]
@[simp] theorem bootEnded_queues (d : Dev) (ms : Nat) : (bootEnded d ms).queues = d.queues := by simp [bootEnded]

/-! ## Generations -/

@[simp] theorem pathTypeWrite_queues (m : Master) (v : Nat) (d : Dev) : (pathTypeWrite m v d).1.queues = d.queues := by
  simp [pathTypeWrite]
@[simp] theorem portTypeWrite_queues (p v : Nat) (d : Dev) : (portTypeWrite p v d).1.queues = d.queues := by simp [portTypeWrite]
@[simp] theorem Dev.admitting_queues (d : Dev) (s : AdmSnap) : (d.admitting s).queues = d.queues := by simp [Dev.admitting]
@[simp] theorem commitFire_queues (m : Master) (d : Dev) : (commitFire m d).1.queues = d.queues := by simp [commitFire]
@[simp] theorem Dev.figures_queues (d : Dev) (b : Bank) (sf : Nat) (paired : Bool) (o : AdmOutcome) :
    (d.figures b sf paired o).queues = d.queues := by simp [Dev.figures]
@[simp] theorem Dev.cancelUpset_queues (d : Dev) : d.cancelUpset.queues = d.queues := by
  unfold Dev.cancelUpset
  split <;> simp
@[simp] theorem Dev.accept_queues (d : Dev) (s : AdmSnap) (o : AdmOutcome) (boundary : Nat) :
    (d.accept s o boundary).queues = d.queues := by simp [Dev.accept]
@[simp] theorem Dev.refuse_queues (d : Dev) : d.refuse.queues = d.queues := by
  unfold Dev.refuse
  split <;> simp
@[simp] theorem admissionEnded_queues (d : Dev) (mate : MateAdmission) : (admissionEnded d mate).queues = d.queues := by
  unfold admissionEnded
  split <;> simp
@[simp] theorem commitBank_queues (d : Dev) (b : Bank) (crcOk : Bool) : (commitBank d b crcOk).queues = d.queues := by simp [commitBank]
@[simp] theorem commitIn_queues (d : Dev) (m : CommitMsg) : (commitIn d m).queues = d.queues := by
  unfold commitIn
  split <;> simp
@[simp] theorem pendingResetFire_queues (d : Dev) : (pendingResetFire d).1.queues = d.queues := by simp [pendingResetFire]
@[simp] theorem bankCopied_queues (d : Dev) : (bankCopied d).queues = d.queues := by simp [bankCopied]
@[simp] theorem cancelFire_queues (d : Dev) : (cancelFire d).1.queues = d.queues := by
  unfold cancelFire
  split <;> simp
@[simp] theorem Dev.pinsSwap_queues (d : Dev) (old : Bank) : (d.pinsSwap old).queues = d.queues := by simp [Dev.pinsSwap]
@[simp] theorem Dev.refSwap_queues (d : Dev) : d.refSwap.queues = d.queues := by simp [Dev.refSwap]
@[simp] theorem Dev.unitSwap_queues (d : Dev) (old : Bank) : (d.unitSwap old).queues = d.queues := by simp [Dev.unitSwap]
@[simp] theorem Dev.swap_queues (d : Dev) (s : Sched) : (d.swap s).queues = d.queues := by simp [Dev.swap]
@[simp] theorem switchedIn_queues (d : Dev) : (switchedIn d).queues = d.queues := by
  unfold switchedIn
  split <;> simp
@[simp] theorem mapSelectWrite_queues (m : Master) (v : Nat) (d : Dev) : (mapSelectWrite m v d).1.queues = d.queues := by
  simp [mapSelectWrite]
@[simp] theorem Dev.mapAdvance_queues (d : Dev) (m : Master) (n : Nat) : (d.mapAdvance m n).queues = d.queues := by
  simp [Dev.mapAdvance]
@[simp] theorem mapBlockWrite_queues (m : Master) (data : List Byte) (d : Dev) : (mapBlockWrite m data d).1.queues = d.queues := by
  simp [mapBlockWrite]

/-! ## The frame boundary -/

@[simp] theorem plainApply_queues (k : Key) (v : Nat) (d : Dev) : (plainApply k v d).queues = d.queues := by simp [plainApply]
@[simp] theorem sectionApply_queues (p sub : Nat) (data : List Byte) (d : Dev) : (sectionApply p sub data d).queues = d.queues := by
  simp [sectionApply]
@[simp] theorem applyPaired_queues (d : Dev) (w : PairedWrite) : (applyPaired d w).queues = d.queues := by simp [applyPaired]
@[simp] theorem Dev.applyWaiting_queues (d : Dev) : d.applyWaiting.queues = d.queues := by simp [Dev.applyWaiting]
@[simp] theorem pairedWriteIn_queues (d : Dev) (w : PairedWrite) : (pairedWriteIn d w).queues = d.queues := by simp [pairedWriteIn]
@[simp] theorem Dev.latchActions_queues (d : Dev) : d.latchActions.queues = d.queues := by simp [Dev.latchActions]
@[simp] theorem Dev.leaveAis_queues (old d : Dev) : (Dev.leaveAis old d).queues = d.queues := by simp [Dev.leaveAis]
@[simp] theorem Dev.clientFrames_queues (d : Dev) : d.clientFrames.queues = d.queues := by simp [Dev.clientFrames]
@[simp] theorem Dev.boundarySelections_queues (d : Dev) : d.boundarySelections.queues = d.queues := by simp [Dev.boundarySelections]
@[simp] theorem Dev.pairTick_queues (d : Dev) : d.pairTick.queues = d.queues := by simp [Dev.pairTick]
@[simp] theorem Dev.boundaryPair_queues (d : Dev) (f : Nat) : (d.boundaryPair f).queues = d.queues := by simp [Dev.boundaryPair]
@[simp] theorem Dev.boundaryCheck_queues (d : Dev) : d.boundaryCheck.queues = d.queues := by simp [Dev.boundaryCheck]
@[simp] theorem frameBoundary_queues (d : Dev) : (frameBoundary d).queues = d.queues := by simp [frameBoundary]

/-! ## Commands of fault collection -/

@[simp] theorem eventIn_queues (d : Dev) (e : EventOp) : (eventIn d e).queues = d.queues := by simp [eventIn]
@[simp] theorem injectFire_queues (d : Dev) : (injectFire d).1.queues = d.queues := by simp [injectFire]
@[simp] theorem severeNWrite_queues (k v : Nat) (d : Dev) : (severeNWrite k v d).1.queues = d.queues := by simp [severeNWrite]
@[simp] theorem severeWindowWrite_queues (k v : Nat) (d : Dev) : (severeWindowWrite k v d).1.queues = d.queues := by
  simp [severeWindowWrite]

/-! ## Saggar -/

@[simp] theorem lifecycleApply_queues (v : Nat) (d : Dev) : (lifecycleApply v d).1.queues = d.queues := by simp [lifecycleApply]
@[simp] theorem zeroiseApply_queues (v : Nat) (d : Dev) : (zeroiseApply v d).1.queues = d.queues := by simp [zeroiseApply]
@[simp] theorem Dev.forget_queues (d : Dev) (m : Master) : (d.forget m).queues = d.queues := by simp [Dev.forget]
@[simp] theorem Dev.eraseSecrets_queues (d : Dev) : d.eraseSecrets.queues = d.queues := by simp [Dev.eraseSecrets]
@[simp] theorem Dev.eraseBanks_queues (d : Dev) : d.eraseBanks.queues = d.queues := by simp [Dev.eraseBanks]
@[simp] theorem burnEnded_queues (d : Dev) : (burnEnded d).queues = d.queues := by
  unfold burnEnded
  (repeat' split) <;> simp
@[simp] theorem rollbackApply_queues (v : Nat) (d : Dev) : (rollbackApply v d).1.queues = d.queues := by simp [rollbackApply]
@[simp] theorem nonceNew_queues (m : Master) (d : Dev) : (nonceNew m d).1.queues = d.queues := by simp [nonceNew]
@[simp] theorem Dev.nonceGone_queues (d : Dev) (m : Master) : (d.nonceGone m).queues = d.queues := by simp [Dev.nonceGone]
@[simp] theorem tokenWrite_queues (m : Master) (t : List Byte) (d : Dev) : (tokenWrite m t d).1.queues = d.queues := by
  simp [tokenWrite]
@[simp] theorem tokenChecked_queues (d : Dev) (m : Master) : (tokenChecked d m).queues = d.queues := by simp [tokenChecked]
@[simp] theorem Dev.consumeToken_queues (d : Dev) (m : Master) : (d.consumeToken m).queues = d.queues := by simp [Dev.consumeToken]
@[simp] theorem Dev.tokenActs_queues (d : Dev) (t : List Byte) (kind : Nat) : (d.tokenActs t kind).queues = d.queues := by
  simp [Dev.tokenActs]
@[simp] theorem tokenApply_queues (m : Master) (kind : Nat) (d : Dev) : (tokenApply m kind d).1.queues = d.queues := by
  simp [tokenApply]
@[simp] theorem debugClose_queues (d : Dev) : (debugClose d).1.queues = d.queues := by simp [debugClose]
@[simp] theorem lifetimeEnd_queues (d : Dev) : (lifetimeEnd d).queues = d.queues := by simp [lifetimeEnd]
@[simp] theorem challengeNew_queues (d : Dev) : (challengeNew d).1.queues = d.queues := by simp [challengeNew]
@[simp] theorem canOnly_queues (m : Master) (d : Dev) (f : Dev → Dev × Nat) (hf : ∀ x : Dev, (f x).1.queues = x.queues) :
    (canOnly m d f).1.queues = d.queues := by simp [canOnly, hf]
@[simp] theorem Dev.sessionFailed_queues (d : Dev) : d.sessionFailed.queues = d.queues := by simp [Dev.sessionFailed]
@[simp] theorem sessionResponse_queues (m : Master) (r : List Byte) (d : Dev) : (sessionResponse m r d).1.queues = d.queues := by
  simp [sessionResponse]
@[simp] theorem responseChecked_queues (d : Dev) : (responseChecked d).queues = d.queues := by
  unfold responseChecked
  split <;> simp
@[simp] theorem sessionEndFire_queues (d : Dev) : (sessionEndFire d).1.queues = d.queues := by simp [sessionEndFire]
@[simp] theorem attestNonceWrite_queues (m : Master) (l : List Byte) (d : Dev) : (attestNonceWrite m l d).1.queues = d.queues := by
  simp [attestNonceWrite]
@[simp] theorem attestRead_queues (d : Dev) (m : Master) (maxLen : Nat) : (attestRead d m maxLen).1.queues = d.queues := by
  simp [attestRead]

/-! ## Reads -/

@[simp] theorem domValue_queues (d : Dev) (m : Master) (idx sub n : Nat) : (domValue d m idx sub n).1.queues = d.queues := by
  simp [domValue]
@[simp] theorem Dev.freeUsed_queues (d : Dev) (id : Nat) : (d.freeUsed id).queues = d.queues := by simp [Dev.freeUsed]
@[simp] theorem valueOf_queues (d : Dev) (m : Master) (o : ObjDef) (idx sub a : Nat) (len : Option Nat) :
    (valueOf d m o idx sub a len).1.queues = d.queues := by
  unfold valueOf
  split <;> simp
@[simp] theorem Dev.readError_queues (d : Dev) (m : Master) (region idx sub a : Nat) :
    (d.readError m region idx sub a).queues = d.queues := by simp [Dev.readError]
@[simp] theorem readAt_queues (d : Dev) (m : Master) (idx sub a : Nat) (len : Option Nat) (ecc : Ecc) :
    (readAt d m idx sub a len ecc).1.queues = d.queues := by
  unfold readAt
  (repeat' split) <;> simp
@[simp] theorem Dev.readObj_queues (d : Dev) (m : Master) (idx sub : Nat) (len : Option Nat) (ecc : Ecc) :
    (d.readObj m idx sub len ecc).1.queues = d.queues := by simp [Dev.readObj]
@[simp] theorem Dev.completed_queues (d : Dev) (z0 : Completion) : (d.completed z0).queues = d.queues := by
  unfold Dev.completed
  split <;> simp

/-! ## Writes -/

@[simp] theorem contextSelect_queues (m : Master) (a : Nat) (d : Dev) : (contextSelect m a d).1.queues = d.queues := by
  simp [contextSelect]
@[simp] theorem selectStep_queues (m : Master) (v : Nat) (d : Dev) : (selectStep m v d).1.queues = d.queues := by
  simp only [selectStep]
  (repeat' split) <;> simp

/-! ## Transports -/

@[simp] theorem Dev.slotError_queues (d : Dev) (b : ReqBody) : (d.slotError b).queues = d.queues := by simp [Dev.slotError]
@[simp] theorem Dev.miso_queues (d : Dev) (l : List (BitVec 32)) : (d.miso l).queues = d.queues := by simp [Dev.miso]
@[simp] theorem acceptWord_queues (d : Dev) (n code : Nat) : (acceptWord d n code).queues = d.queues := by simp [acceptWord]
@[simp] theorem acceptAll_queues (d : Dev) (n later code : Nat) : (acceptAll d n later code).queues = d.queues := by simp [acceptAll]
@[simp] theorem frameError_queues (d : Dev) : (frameError d).queues = d.queues := by simp [frameError]

/-! ## The test access port -/

@[simp] theorem Dev.tapLoad_queues (d : Dev) (code : Nat) (out : List Byte) : (d.tapLoad code out).queues = d.queues := by
  simp [Dev.tapLoad]
@[simp] theorem testScan_queues (d : Dev) (code : Nat) (shift pins : List Bool) : (testScan d code shift pins).queues = d.queues := by
  simp [testScan]
@[simp] theorem samplePreload_queues (d : Dev) (shift pins : List Bool) : (samplePreload d shift pins).queues = d.queues := by
  simp [samplePreload]
@[simp] theorem privateRun_queues (d : Dev) (code : Nat) (f : Dev → Dev) (hf : ∀ x : Dev, (f x).queues = x.queues) :
    (privateRun d code f).queues = d.queues := by simp [privateRun, hf]
@[simp] theorem traceRead_queues (d : Dev) : (traceRead d).queues = d.queues := by simp [traceRead]
@[simp] theorem shadowRead_queues (d : Dev) (idx sub inst : Nat) : (shadowRead d idx sub inst).queues = d.queues := by simp [shadowRead]
@[simp] theorem Dev.setBank_queues (d : Dev) (b : Bool) (x : Bank) : (d.setBank b x).queues = d.queues := by simp [Dev.setBank]
@[simp] theorem memoryRead_queues (a : Nat) (d : Dev) : (memoryRead a d).queues = d.queues := by simp [memoryRead]
@[simp] theorem memoryWrite_queues (a : Nat) (v : Byte) (d : Dev) : (memoryWrite a v d).queues = d.queues := by
  unfold memoryWrite
  (repeat' split) <;> simp

/-! ## Answers, and what a step owes the CAN layer -/

@[simp] theorem tpdoSweep_queues (a b : Dev) : (tpdoSweep a b).queues = b.queues := by simp [tpdoSweep]

/-! ## Host writes -/

@[simp] theorem rsvdCheck_queues (old v mask : Nat) (r : Dev × Nat) : (rsvdCheck old v mask r).1.queues = r.1.queues := by
  unfold rsvdCheck
  split <;> rfl
@[simp] theorem rxCollide_queues (l : RxLane) (v w : Nat) (d : Dev) : (rxCollide l v w d).1.queues = d.queues := by simp [rxCollide]
@[simp] theorem soTestWrite_queues (p v : Nat) (d : Dev) : (soTestWrite p v d).1.queues = d.queues := by simp [soTestWrite]
@[simp] theorem oneShot_queues (p i : Nat) (d : Dev) : (oneShot p i d).1.queues = d.queues := by simp [oneShot]
@[simp] theorem pohTestWrite_queues (a v : Nat) (d : Dev) : (pohTestWrite a v d).1.queues = d.queues := by simp [pohTestWrite]
@[simp] theorem oneBip_queues (m : Master) (d : Dev) : (oneBip m d).1.queues = d.queues := by simp [oneBip]
@[simp] theorem clientTestWrite_queues (c v : Nat) (d : Dev) : (clientTestWrite c v d).1.queues = d.queues := by simp [clientTestWrite]
@[simp] theorem pairCtrlApply_queues (v : Nat) (d : Dev) : (pairCtrlApply v d).1.queues = d.queues := by simp [pairCtrlApply]
@[simp] theorem scanCtrlWrite_queues (d : Dev) (v : Nat) : (scanCtrlWrite d v).1.queues = d.queues := by simp [scanCtrlWrite]
@[simp] theorem gatesApply_queues (v : Nat) (d : Dev) : (gatesApply v d).1.queues = d.queues := by simp [gatesApply]
@[simp] theorem wakeWrite_queues (v : Nat) (d : Dev) : (wakeWrite v d).1.queues = d.queues := by simp [wakeWrite]
@[simp] theorem faultNWrite_queues (v : Nat) (coincident : Bool) (d : Dev) : (faultNWrite v coincident d).1.queues = d.queues := by
  simp [faultNWrite]
@[simp] theorem reactionApply_queues (k v : Nat) (d : Dev) : (reactionApply k v d).1.queues = d.queues := by simp [reactionApply]
@[simp] theorem secPolicyApply_queues (v : Nat) (d : Dev) : (secPolicyApply v d).1.queues = d.queues := by simp [secPolicyApply]
@[simp] theorem kindWritten_queues (d : Dev) (o : ObjDef) (k : Key) (v hw : Nat) : (kindWritten d o k v hw).1.queues = d.queues := by
  simp [kindWritten]

end Sys2Proof.Machine
end

section
/-!
PROOFS. What every step keeps (R47, R49, R58): a step leaves the queue of waiting commands to the step function, a device that goes on is
documented where it was, and no master's queue outgrows its 16 entries.
-/
namespace Sys2Proof.Proofs
open Sys2Proof Sys2Proof.Machine

/-! ## Bounded queues -/

/-- Where the queues of a device are bounded, so are those of the device that an operation makes of it. -/
def Fits (d e : Dev) : Prop := queuesBounded d → queuesBounded e

theorem Fits.trans {d e f : Dev} (h : Fits d e) (h' : Fits e f) : Fits d f := fun hd => h' (h hd)

theorem fits_of_queues {d e : Dev} (h : e.queues = d.queues) : Fits d e := by
  simp only [Dev.queues, Prod.mk.injEq] at h
  obtain ⟨hspi, hcan, hmgmt⟩ := h
  intro hd
  rwa [queuesBounded, hspi, hcan, hmgmt]

theorem queuesBounded_master {d : Dev} (h : queuesBounded d) (m : Master) : (d.master m).queue.length ≤ 16 := by
  obtain ⟨hspi, hcan, hmgmt⟩ := h
  cases m <;> assumption

/-- An operation on one master's items fits where it leaves that master at most 16 requests. -/
theorem fits_onMaster {d : Dev} (m : Master) {f : MasterSt → MasterSt}
    (hf : (d.master m).queue.length ≤ 16 → (f (d.master m)).queue.length ≤ 16) : Fits d (d.onMaster m f) := by
  intro h
  have hm := hf (queuesBounded_master h m)
  obtain ⟨hspi, hcan, hmgmt⟩ := h
  cases m
  · exact ⟨hm, hcan, hmgmt⟩
  · exact ⟨hspi, hm, hmgmt⟩
  · exact ⟨hspi, hcan, hm⟩

/-- A request joins a queue of fewer than 16 entries only (R58). -/
theorem fits_queueReq (d : Dev) (m : Master) (r : Req) : Fits d (d.queueReq m r).1 := by
  unfold Dev.queueReq
  split
  · exact fits_of_queues (by simp)
  · next hfull =>
    refine Fits.trans (fits_onMaster m fun _ => ?_) (fits_of_queues (Dev.queuePeak_queues _ m))
    simp only [Dev.occupancy] at hfull
    simp only [List.length_append, List.length_singleton]
    omega

theorem fits_holdWrite (d : Dev) (m : Master) (idx sub : Nat) (data : List Byte) : Fits d (d.holdWrite m idx sub data).1 :=
  fits_queueReq d m _

theorem length_replaceNext_le (r : Option Req) (q : List Req) : (replaceNext r q).length ≤ q.length := by
  induction q with
  | nil => exact Nat.le_refl 0
  | cons x rest ih =>
    unfold replaceNext
    split
    · exact Nat.succ_le_succ ih
    · cases r
      · exact Nat.le_succ _
      · exact Nat.le_refl _

theorem fits_finish (d : Dev) (m : Master) (r : Req) (x : ReadAns) : Fits d (d.finish m r x) := by
  unfold Dev.finish
  split
  · exact fits_onMaster m fun h => (length_replaceNext_le _ _).trans h
  · have htaken : Fits d (d.onMaster m (fun s => { s with queue := replaceNext none s.queue, abort := x.abort, data := x.data })) :=
      fits_onMaster m fun h => (length_replaceNext_le _ _).trans h
    exact htaken.trans (fits_of_queues (by simp))

theorem fits_goesOn (d : Dev) (m : Master) (r : Req) (data : List Byte) : Fits d (d.goesOn m r data) :=
  fits_onMaster m fun h => (length_replaceNext_le _ _).trans h

theorem length_executing_le (q : List Req) : (executing q).length ≤ q.length := by
  unfold executing
  (repeat' split) <;> simp

theorem fits_canHalt (d : Dev) : Fits d d.canHalt := by
  have hqueue : Fits (d.onCan (fun c => { c with sdo := none, waiting := [] }))
      ((d.onCan (fun c => { c with sdo := none, waiting := [] })).onCanM (fun x => { x with queue := executing x.queue })) :=
    fits_onMaster .can fun h => (length_executing_le _).trans h
  exact ((fits_of_queues (Dev.onCan_queues d _)).trans hqueue).trans (fits_of_queues (Dev.dropArm_queues _ .can 7))

/-- A reset empties the queues. -/
theorem queues_rebooted (d : Dev) (cause straps : Nat) : (d.rebooted cause straps).queues = ([], [], []) := by
  simp only [Dev.rebooted, Dev.wr_queues, Dev.putFlag_queues, Dev.wrStr_queues]
  rfl

theorem fits_rebooted (d e : Dev) (cause straps : Nat) : Fits e (d.rebooted cause straps) := by
  have h := queues_rebooted d cause straps
  simp only [Dev.queues, Prod.mk.injEq] at h
  obtain ⟨hspi, hcan, hmgmt⟩ := h
  intro _
  simp [queuesBounded, hspi, hcan, hmgmt]

/-! ## Host writes -/

theorem fits_heldTrigger {m : Master} {sub v : Nat} {f : Dev → Dev × Nat} (hf : ∀ x : Dev, (f x).1.queues = x.queues) (d : Dev) :
    Fits d (heldTrigger m sub v f d).1 := by
  unfold heldTrigger
  split
  · exact fits_holdWrite d m 0x2601 sub _
  · exact fits_of_queues (by simp [hf])

theorem fits_pathTypeHost (m : Master) (v : Nat) (d : Dev) : Fits d (pathTypeHost m v d).1 := by
  unfold pathTypeHost
  split
  · exact fits_holdWrite d m _ _ _
  · exact fits_of_queues (by simp)

theorem fits_portTypeHost (m : Master) (p v : Nat) (d : Dev) : Fits d (portTypeHost m p v d).1 := by
  unfold portTypeHost
  split
  · exact fits_holdWrite d m _ _ _
  · exact fits_of_queues (by simp)

/-- What a group of objects makes of a write, where it holds the object, fits. -/
def ActedFits (d : Dev) (x : Acted) : Prop := ∀ r : Dev × Nat, x = some r → Fits d r.1

theorem actedFits_none (d : Dev) : ActedFits d none := fun _ h => nomatch h

theorem actedFits_some {d : Dev} {r : Dev × Nat} (h : Fits d r.1) : ActedFits d (some r) := fun _ e => Option.some.inj e ▸ h

theorem actedFits_ite {d : Dev} {c : Prop} [Decidable c] {x y : Acted} (hx : ActedFits d x) (hy : ActedFits d y) :
    ActedFits d (if c then x else y) := by
  split
  · exact hx
  · exact hy

/-- In a chain of objects, one whose effect leaves the queues fits where the rest of the chain does. -/
theorem actedFits_ite_of_queues {d : Dev} {c : Prop} [Decidable c] {r : Dev × Nat} {y : Acted} (hr : r.1.queues = d.queues)
    (hy : ActedFits d y) : ActedFits d (if c then some r else y) :=
  actedFits_ite (actedFits_some (fits_of_queues hr)) hy

theorem actedFits_unitWrite (d : Dev) (m : Master) (id i v hw : Nat) : ActedFits d (unitWrite d m id i v hw) := by
  unfold unitWrite
  iterate 3 refine actedFits_ite (actedFits_some (fits_heldTrigger (by simp) d)) ?_
  iterate 13 refine actedFits_ite_of_queues (by simp) ?_
  exact actedFits_none d

theorem actedFits_secWrite (d : Dev) (m : Master) (id v : Nat) (data : List Byte) : ActedFits d (secWrite d m id v data) := by
  unfold secWrite
  iterate 7 refine actedFits_ite_of_queues (by simp) ?_
  exact actedFits_none d

theorem actedFits_pairedObject (d : Dev) (idx sub id i a v : Nat) (data : List Byte) :
    ActedFits d (pairedObject d idx sub id i a v data) := by
  unfold pairedObject
  iterate 12 refine actedFits_ite_of_queues (by simp) ?_
  exact actedFits_none d

theorem actedFits_lineWrite (d : Dev) (m : Master) (id i v hw : Nat) : ActedFits d (lineWrite d m id i v hw) := by
  unfold lineWrite
  iterate 8 refine actedFits_ite_of_queues (by simp) ?_
  exact actedFits_none d

theorem fits_nowWrite (d : Dev) (m : Master) (o : ObjDef) (idx sub : Nat) (data : List Byte) (hw : Nat) :
    Fits d (nowWrite d m o idx sub data hw).1 := by
  unfold nowWrite
  dsimp only
  split
  · next h => exact actedFits_unitWrite d m _ _ _ _ _ h
  · next h => exact actedFits_secWrite d m _ _ _ _ h
  · next h => exact actedFits_pairedObject d _ _ _ _ _ _ _ _ h
  · next h => exact actedFits_lineWrite d m _ _ _ _ _ h
  · exact fits_of_queues (by simp)

@[simp] theorem genWrite_queues (d : Dev) (m : Master) (o : ObjDef) (idx sub : Nat) (data : List Byte) :
    (genWrite d m o idx sub data).1.queues = d.queues := by
  unfold genWrite
  dsimp only
  (repeat' split) <;> simp

theorem fits_guardApply (m : Master) (o : ObjDef) (i v : Nat) (d : Dev) : Fits d (guardApply m o i v d).1 := by
  unfold guardApply
  dsimp only
  split
  · exact fits_of_queues (by simp)
  · split
    · exact fits_rebooted d d _ _
    · (repeat' split) <;> exact fits_of_queues (by simp)

theorem fits_ite {d : Dev} {c : Prop} [Decidable c] {x y : Dev × Nat} (hx : Fits d x.1) (hy : Fits d y.1) :
    Fits d (if c then x else y).1 := by
  split
  · exact hx
  · exact hy

/-- A completing write breaks the arm, or takes it and applies its value (R52). -/
theorem fits_completeGuard {apply : Nat → Dev → Dev × Nat} (happly : ∀ v x, Fits x (apply v x).1) (d : Dev) (m : Master)
    (idx n w c : Nat) (lenOk : Bool) : Fits d (d.completeGuard m idx n w c lenOk apply).1 := by
  unfold Dev.completeGuard
  iterate 4 refine fits_ite (fits_of_queues (by simp)) ?_
  have htaken : Fits d (d.onMaster m (fun x => { x with arm := none })) := fits_of_queues (by simp)
  exact htaken.trans (happly _ _)

theorem fits_completing {apply : Nat → Dev → Dev × Nat} (happly : ∀ v x, Fits x (apply v x).1) (d : Dev) (m : Master)
    (idx n w v : Nat) : Fits d (d.completing m idx n w v apply).1 :=
  fits_ite (fits_of_queues rfl) (fits_completeGuard happly d m idx n w _ true)

theorem fits_openWrite (d : Dev) (m : Master) (o : ObjDef) (idx sub : Nat) (data : List Byte) (hw : Nat) (sized : Bool) :
    Fits d (openWrite d m o idx sub data hw sized).1 := by
  unfold openWrite
  iterate 6 refine fits_ite (fits_of_queues rfl) ?_
  exact fits_ite (fits_ite (fits_holdWrite d m idx sub data) (fits_of_queues (genWrite_queues d m o idx sub data)))
    (fits_nowWrite d m o idx sub data hw)

theorem fits_writeSized (d : Dev) (m : Master) (idx sub : Nat) (data : List Byte) (hw : Nat) (sized : Bool) :
    Fits d (d.writeSized m idx sub data hw sized).1 := by
  unfold Dev.writeSized
  refine fits_ite (fits_of_queues rfl) (fits_ite (fits_of_queues (by simp)) ?_)
  split
  · exact fits_of_queues (by simp)
  · next o _ =>
    refine fits_ite (fits_of_queues (by simp)) (fits_ite (fits_ite (fits_holdWrite d m idx sub data) ?_) ?_)
    · exact fits_completeGuard (fun v x => fits_guardApply m o _ v x) d m idx _ _ _ _
    · exact (fits_of_queues (Dev.dropArm_queues d m 4)).trans (fits_openWrite _ m o idx sub data hw sized)

theorem fits_writeObj (d : Dev) (m : Master) (idx sub : Nat) (data : List Byte) (hw : Nat) : Fits d (d.writeObj m idx sub data hw).1 :=
  fits_writeSized d m idx sub data hw true

/-! ## Waiting requests -/

theorem fits_selecting {α : Type} {f : Dev → Dev × α} (hf : ∀ x, Fits x (f x).1) (d : Dev) (m : Master) (a : Nat) :
    Fits d (d.selecting m a f).1 :=
  ((fits_of_queues (Dev.wr_queues d _ a)).trans (hf _)).trans (fits_of_queues (Dev.wr_queues _ _ _))

theorem fits_accessOf (d : Dev) (m : Master) (ecc : Ecc) (b : ReqBody) : Fits d (accessOf d m ecc b).1 := by
  cases b with
  | read idx sub n => exact fits_of_queues (Dev.readObj_queues d m idx sub _ ecc)
  | write idx sub data => exact fits_writeObj d m idx sub data 0
  | unsized idx sub data => exact fits_writeSized d m idx sub data 0 false
  | writeAt a idx sub data => exact fits_selecting (fun x => fits_writeObj x m idx sub data 0) d m a
  | tableRead idx sub start count => exact fits_of_queues rfl
  | tableWrite idx sub start count data => exact fits_of_queues (Dev.dropArm_queues d m 4)

theorem fits_drainQueue (m : Master) (n : Nat) (d : Dev) : Fits d (drainQueue m n d) := by
  induction n generalizing d with
  | zero => exact fits_of_queues rfl
  | succ n ih =>
    unfold drainQueue
    split
    · exact fits_of_queues rfl
    · split
      · exact fits_of_queues rfl
      · exact ((fits_accessOf d m _ _).trans (fits_finish _ m _ _)).trans (ih _)

theorem fits_drain (d : Dev) : Fits d d.drain :=
  ((fits_drainQueue .spi 16 d).trans (fits_drainQueue .can 16 _)).trans (fits_drainQueue .mgmt 16 _)

/-- One record of a table read leaves the transfer finished, or going on. -/
theorem fits_tableReadOne (d : Dev) (m : Master) (r : Req) (idx sub start count : Nat) (ecc : Ecc) :
    Fits d (tableReadOne d m r idx sub start count ecc) := by
  unfold tableReadOne
  dsimp only
  split
  · exact fits_finish d m r _
  · have hread := fits_of_queues (readAt_queues d m idx sub ‹_› none ecc)
    (repeat' split)
    · exact hread.trans (fits_finish _ m r _)
    · exact hread.trans (fits_finish _ m r _)
    · exact hread.trans (fits_goesOn _ m r _)

theorem fits_tableWriteOne (d : Dev) (m : Master) (r : Req) (idx sub start count : Nat) (wire : List Byte) :
    Fits d (tableWriteOne d m r idx sub start count wire) := by
  unfold tableWriteOne
  dsimp only
  split
  · exact fits_finish d m r _
  · next a _ =>
    have hwrite := fun v => fits_selecting (fun x => fits_writeObj x m idx sub v 0) d m a
    (repeat' split)
    · exact (hwrite _).trans (fits_finish _ m r _)
    · exact (hwrite _).trans (fits_finish _ m r _)
    · exact (hwrite _).trans (fits_goesOn _ m r _)

theorem fits_pmBlockOne (d : Dev) (m : Master) (r : Req) (n : Nat) (ecc : Ecc) : Fits d (pmBlockOne d m r n ecc) := by
  unfold pmBlockOne
  dsimp only
  split
  · refine Fits.trans (fits_of_queues ?_) (fits_finish _ m r _)
    split <;> simp
  · have hecc := fits_of_queues (Dev.eccHit_queues d 3 ecc)
    split
    · exact hecc.trans (fits_finish _ m r _)
    · exact hecc.trans (fits_goesOn _ m r _)

theorem fits_slotAccess (d : Dev) (m : Master) (r : Req) (ecc : Ecc) : Fits d (slotAccess d m r ecc) := by
  have haccess : ∀ (x : Dev) (e : Ecc) (b : ReqBody), Fits x ((accessOf x m e b).1.finish m r (accessOf x m e b).2) :=
    fun x e b => (fits_accessOf x m e b).trans (fits_finish _ m r _)
  unfold slotAccess
  split
  · exact fits_tableReadOne d m r _ _ _ _ ecc
  · split
    · exact fits_pmBlockOne d m r _ ecc
    · exact haccess d ecc _
  · split
    · exact (fits_of_queues (Dev.slotError_queues d _)).trans (fits_finish _ m r _)
    · have hecc := fits_of_queues (Dev.eccHit_queues d (slotRegion d r.body) ecc)
      dsimp only
      split
      · exact hecc.trans (fits_tableWriteOne _ m r _ _ _ _ _)
      · exact hecc.trans (haccess _ .clean _)

theorem fits_hostSlot (d : Dev) (m : Master) (collision : Bool) (ecc : Ecc) : Fits d (hostSlot d m collision ecc) := by
  unfold hostSlot
  split
  · exact fits_of_queues rfl
  · (repeat' split)
    · exact fits_of_queues rfl
    · exact fits_drain d
    · exact (fits_slotAccess d m _ ecc).trans (fits_drain _)

/-! ## Transports -/

theorem fits_milberQueue (d : Dev) (r : Req) (f : Frame) : Fits d (milberQueue d r f) := by
  unfold milberQueue
  dsimp only
  iterate 6
    split
    · exact fits_of_queues (by simp)
  exact ((fits_queueReq d .spi r).trans (fits_of_queues (acceptWord_queues _ _ _))).trans (fits_drain _)

theorem fits_fetched (d : Dev) (tag : Nat) (whole : Bool) : Fits d (fetched d tag whole) := by
  have hwords := fits_of_queues (Dev.miso_queues d (0 :: fetchWords d tag))
  unfold fetched
  dsimp only
  split
  · exact hwords
  · next r _ =>
    have hfreed : Fits d ((d.miso (0 :: fetchWords d tag)).onSpi (fun s => { s with
        queue := s.queue.filter (fun q => q.tag != tag), abort := r.abort, data := r.data })) :=
      hwords.trans (fits_onMaster .spi fun h => (List.length_filter_le _ _).trans h)
    (repeat' split)
    · exact hwords
    · exact hfreed.trans (fits_of_queues (Dev.completed_queues _ _))
    · exact hfreed

theorem fits_sdoRun (d : Dev) (r : SdoReq) : Fits d (sdoRun d r) := by
  unfold sdoRun
  dsimp only
  iterate 4
    split
    · exact fits_of_queues (by simp)
  have hrun : ∀ x : Dev, x.queues = d.queues → Fits d ((x.queueReq .can (sdoReq r)).1.drain) := fun x hx =>
    ((fits_of_queues hx).trans (fits_queueReq x .can _)).trans (fits_drain _)
  split
  · refine (hrun _ ?_).trans (fits_of_queues (Dev.onCanM_queues _ _ fun _ => rfl))
    simp
  · exact hrun _ (by simp)

theorem fits_sdoTimeout (d : Dev) : Fits d (sdoTimeout d) := by
  unfold sdoTimeout
  split
  · exact fits_of_queues (by simp)
  · split
    · exact fits_onMaster .can fun h => by simp only [List.length_drop]; omega
    · exact fits_of_queues rfl

theorem fits_nmtStop (d : Dev) : Fits d (nmtStop d) := by
  unfold nmtStop
  split
  · exact fits_of_queues rfl
  · exact (fits_canHalt d).trans (fits_of_queues (Dev.onCan_queues _ _))

theorem fits_nmtReset (d : Dev) : Fits d (nmtReset d) := by
  unfold nmtReset
  split
  · exact fits_of_queues rfl
  · exact (fits_canHalt d).trans (fits_of_queues (by simp))

/-! ## Outcomes -/

/-- Where a command's outcome goes on, the waiting commands are as they were, the device is documented if it was, and its queues are
bounded if they were. -/
def GoesOn (s : State) (o : Host.Outcome State Fault Refusal) : Prop :=
  ∀ t, o = .next t → t.pending = s.pending ∧ (documented s.dev → documented t.dev) ∧ Fits s.dev t.dev

section
variable {s : State} {d : Dev}

theorem goesOn_next (hdoc : documented s.dev → documented d) (hfits : Fits s.dev d) : GoesOn s (.next { s with dev := d }) := by
  rintro t ⟨⟩
  exact ⟨rfl, hdoc, hfits⟩

theorem goesOn_done (hdoc : documented s.dev → documented d) (hfits : Fits s.dev d) : GoesOn s (done s d) :=
  goesOn_next (fun h => by simpa [documented] using hdoc h) (hfits.trans (fits_of_queues (tpdoSweep_queues s.dev d)))

/-- A command whose effect leaves the mark and the queues as they are. -/
theorem goesOn_done_of_frames (hdoc : d.undocumented = s.dev.undocumented) (hqueues : d.queues = s.dev.queues) : GoesOn s (done s d) :=
  goesOn_done (fun h => by simpa [documented, hdoc] using h) (fits_of_queues hqueues)

/-- An effect that may execute waiting requests: a write that changes a `rsvd` field stops the machine (log entry 7). -/
theorem goesOn_stop (hfits : Fits s.dev d) : GoesOn s (if d.undoc then .fault .rsvdChanged else done s d) := by
  split
  · exact fun _ h => nomatch h
  · next h => exact goesOn_done (fun _ => by simpa [documented] using h) hfits

theorem goesOn_hostDone {m : Master} {r : Dev × Nat} {data : List Byte} (hfits : Fits s.dev r.1) : GoesOn s (hostDone s m r data) := by
  unfold hostDone
  split
  · exact fun _ h => nomatch h
  · next h =>
    refine goesOn_done (fun _ => by simpa [documented] using h) (hfits.trans (fits_of_queues ?_))
    simp

end

section
variable {s : State} {m : Master}

theorem goesOn_hostTurn {q : Req} {r : Dev × Nat} {data : List Byte} (hfits : Fits s.dev r.1) : GoesOn s (hostTurn s m q r data) := by
  unfold hostTurn
  split
  · exact goesOn_hostDone (fits_of_queues rfl)
  · split
    · exact goesOn_hostDone hfits
    · exact goesOn_hostDone (fits_queueReq s.dev m q)

theorem goesOn_hostWrite {idx sub : Nat} {data : List Byte} {f : Dev → Dev × Nat} (hf : ∀ x, Fits x (f x).1) :
    GoesOn s (hostWrite s m idx sub data f) :=
  goesOn_hostTurn (fits_ite (fits_of_queues rfl) ((fits_of_queues (Dev.dropArm_queues s.dev m 4)).trans (hf _)))

theorem goesOn_hostNum {k : Key} {v : Nat} {f : Dev → Dev × Nat} (hf : ∀ x, Fits x (f x).1) : GoesOn s (hostNum s m k v f) :=
  goesOn_hostWrite hf

/-- A host write whose effect leaves the queues as they are. -/
theorem goesOn_hostNum_of_queues {k : Key} {v : Nat} {f : Dev → Dev × Nat} (hf : ∀ x : Dev, (f x).1.queues = x.queues) :
    GoesOn s (hostNum s m k v f) :=
  goesOn_hostNum fun x => fits_of_queues (hf x)

theorem goesOn_hostGuard {idx n w v : Nat} {apply : Nat → Dev → Dev × Nat} (happly : ∀ v x, Fits x (apply v x).1) :
    GoesOn s (hostGuard s m idx n w v apply) :=
  goesOn_hostTurn (fits_completing happly s.dev m idx n w v)

theorem goesOn_hostRead {k : Key} {r : DomRead} : GoesOn s (hostRead s m k r) := by
  unfold hostRead
  dsimp only
  split
  · exact goesOn_hostDone (fits_queueReq s.dev m _)
  · refine goesOn_hostTurn (fits_of_queues ?_)
    simp

end

/-! ## Commands -/

theorem undocumented_rebooted (d : Dev) (cause straps : Nat) : (d.rebooted cause straps).undocumented = false := by
  simp only [Dev.rebooted, Dev.wr_undocumented, Dev.putFlag_undocumented, Dev.wrStr_undocumented]
  rfl

theorem documented_rebooted (d : Dev) (cause straps : Nat) : documented (d.rebooted cause straps) := by
  simp [documented, undocumented_rebooted]

theorem goesOn_resetN (s : State) (lowNs : Nat) (straps : Straps) : GoesOn s (exec (.resetN lowNs straps) s) := by
  refine goesOn_next ?_ ?_
  · simp only [documented, resetPulse]
    (repeat' split) <;> simp [undocumented_rebooted]
  · unfold resetPulse
    (repeat' split)
    · exact fits_of_queues rfl
    · exact fits_rebooted _ _ _ _
    · exact fits_rebooted _ _ _ _
    · exact fits_of_queues (Dev.fresh_queues _)

theorem goesOn_watchdogExpiry (s : State) (straps : Straps) : GoesOn s (exec (.watchdogExpiry straps) s) := by
  refine goesOn_next ?_ ?_
  · simp only [documented]
    split <;> simp [undocumented_rebooted]
  · split
    · exact fits_of_queues rfl
    · exact fits_rebooted _ _ _ _

theorem fits_debugControl (op : Nat) (d : Dev) : Fits d (debugControl op d) := by
  unfold debugControl
  (repeat' split)
  · exact fits_of_queues (by simp)
  · exact (fits_of_queues (Dev.putFlag_queues d _ _ _)).trans (fits_drain _)
  · exact fits_of_queues rfl

theorem fits_privateRun {f : Dev → Dev} (hf : ∀ x, Fits x (f x)) (d : Dev) (code : Nat) : Fits d (privateRun d code f) := by
  have hload := fits_of_queues (Dev.tapLoad_queues d code [])
  unfold privateRun Dev.when
  split
  · exact hload.trans (hf _)
  · exact hload

/-- An outcome that starts from a device with the same mark and queues that still fit. -/
theorem goesOn_of_dev {s : State} {d : Dev} {o : Host.Outcome State Fault Refusal} (hdoc : documented s.dev → documented d)
    (hfits : Fits s.dev d) (h : GoesOn { s with dev := d } o) : GoesOn s o := fun t ht => by
  obtain ⟨hp, hd, hq⟩ := h t ht
  exact ⟨hp, fun hs => hd (hdoc hs), hfits.trans hq⟩

theorem goesOn_rxAdaptation (s : State) (l : RxLane) (v : BitVec 25) (host : Option (Master × BitVec 32)) :
    GoesOn s (exec (.rxAdaptation l v host) s) := by
  match host with
  | none => exact goesOn_done_of_frames (by simp) (by simp)
  | some (m, w) =>
    show GoesOn s (if _ then hostWrite _ _ _ _ _ _ else hostWrite _ _ _ _ _ _)
    split
    · exact goesOn_hostWrite fun x => fits_of_queues (by simp)
    · exact goesOn_of_dev (by simp [documented]) (fits_of_queues (rxAdapted_queues s.dev l v.toNat))
        (goesOn_hostWrite fun x => fits_of_queues rfl)

theorem goesOn_hostCommand (s : State) (m : Master) (t : ProtTarget) (v : Nat) : GoesOn s (hostCommand s m t v) := by
  refine goesOn_hostTurn (fits_of_queues ?_)
  simp

theorem goesOn_dbgMem (s : State) (a : BitVec 32) (w : Option Byte) : GoesOn s (exec (.dbgMem a w) s) := by
  cases w <;> exact goesOn_done_of_frames (by simp) (by simp)

/-- Every command goes on in one of these shapes: transactions and requests that stop at a changed `rsvd` field, host accesses, resets, and
the commands that leave the masters' requests alone. -/
theorem exec_goesOn (c : Instr) (s : State) : GoesOn s (exec c s) := by
  cases c
  case milberNop | milberInvalidOpcode | spiFrameError | milberStatus => exact goesOn_stop (fits_of_queues (by simp))
  case milberRead | milberWrite | milberTableRead | milberTableWrite => exact goesOn_stop (fits_milberQueue s.dev _ _)
  case milberFetch => exact goesOn_stop (fits_fetched s.dev _ _)
  case sdoTransfer => exact goesOn_stop (fits_sdoRun s.dev _)
  case hostSlotAccess => exact goesOn_stop (fits_hostSlot s.dev _ _ _)
  case bankCopyEnd => exact goesOn_stop ((fits_of_queues (bankCopied_queues s.dev)).trans (fits_drain _))
  case dbgCtrl op => exact goesOn_stop (fits_privateRun (fits_debugControl op.val) s.dev _)
  case sdoTimeout => exact goesOn_done (by simp [documented]) (fits_sdoTimeout s.dev)
  case nmtStopRemoteNode => exact goesOn_done (by simp [documented]) (fits_nmtStop s.dev)
  case nmtResetNode | nmtResetCommunication => exact goesOn_done (by simp [documented]) (fits_nmtReset s.dev)
  case powerOn => exact goesOn_next (fun _ => documented_rebooted _ _ _) (fits_rebooted _ _ _ _)
  case resetN => exact goesOn_resetN _ _ _
  case watchdogExpiry => exact goesOn_watchdogExpiry _ _
  case rxAdaptation => exact goesOn_rxAdaptation _ _ _ _
  case registerWrite | guardArmingWrite => exact goesOn_hostTurn (fits_writeObj s.dev _ _ _ _ _)
  case txSquelch | prbsCtrl => exact goesOn_hostTurn (fits_of_queues (by simp))
  case secPolicy =>
    exact goesOn_hostTurn (fits_ite (fits_holdWrite s.dev _ _ _ _)
      (fits_completing (fun v x => fits_of_queues (by simp)) s.dev _ _ _ _ _))
  case clear | lockoutOfProtection | forcedSwitchToProtection | forcedSwitchToWorking | manualSwitchToProtection | manualSwitchToWorking |
      exercise => exact goesOn_hostCommand _ _ _ _
  case dccRxRead | mapBlockRead | mapBlockActiveRead | pmBlockRead | history | attestReport => exact goesOn_hostRead
  case pathType => exact goesOn_hostNum (fits_pathTypeHost _ _)
  case portType => exact goesOn_hostNum (fits_portTypeHost _ _ _)
  case commit | cancelSwitch | pendingReset => exact goesOn_hostNum (fits_heldTrigger (by simp))
  case mapBlockWrite => exact goesOn_hostWrite fun x => fits_ite (fits_holdWrite x _ _ _ _) (fits_of_queues (by simp))
  case dccTxWrite | farReport | token | sessionResponse | attestNonce => exact goesOn_hostWrite fun x => fits_of_queues (by simp)
  case unitReset => exact goesOn_hostGuard fun v x => fits_rebooted x x _ _
  case forceHandover | pairCtrl | modeGuardedInert | modeGuardedShadow | modeGuardedQuiesce | modeGuardedBisque | opOverride |
      blockClockEnable | reaction | lifecycleRequest | zeroise | rollbackAdvance | tokenApplyDebugUnlock | tokenApplyReturned |
      tokenApplyOwnerKey => exact goesOn_hostGuard fun v x => fits_of_queues (by simp)
  case severeSetting f _ => cases f <;> exact goesOn_hostNum_of_queues (by simp)
  case contextSelect | selectStep | mapBlockSelect | traceCapture | oneBip | pmSecond | pmClear15Min | pmClear24Hour | pmClearBoth |
      cpmClear | modeRequestInert | modeRequestService | modeRequestShadow | modeRequestQuiesce | wakeCtrl | opRetry | timeStep | ackSeq |
      injectFire | faultNCtrl | go | abort | running | nonceNew | debugClose | sessionChallengeNew | sessionEnd | oneB1 | oneB2 |
      oneSmBip | onePmBip => exact goesOn_hostNum_of_queues (by simp)
  case dbgMem => exact goesOn_dbgMem _ _ _
  all_goals exact goesOn_done_of_frames (by simp) (by simp)

theorem step_goesOn {s t : State} (h : step s = .next t) : (documented s.dev → documented t.dev) ∧ Fits s.dev t.dev := by
  unfold step at h
  split at h
  · have hidle : Fits s.dev (idle s).dev := (fits_of_queues (Dev.advance_queues s.dev _)).trans (fits_drain _)
    exact (goesOn_stop hidle t h).2
  · next c rest _ => exact (exec_goesOn c { s with pending := rest } t h).2

/-! ## What a step owes the CAN layer (R67) -/

/-- A device that differs from another in the CAN layer and its output alone. -/
def CanApart (d e : Dev) : Prop := ∃ (c : Can) (o : List CanMsg), e = { d with can := c, out := { d.out with can := o } }

theorem CanApart.refl (d : Dev) : CanApart d d := ⟨d.can, d.out.can, rfl⟩

theorem CanApart.trans {d e f : Dev} (h : CanApart d e) (h' : CanApart e f) : CanApart d f := by
  obtain ⟨c, o, rfl⟩ := h
  obtain ⟨c', o', rfl⟩ := h'
  exact ⟨c', o', rfl⟩

theorem canApart_onCan (d : Dev) (f : Can → Can) : CanApart d (d.onCan f) := ⟨f d.can, d.out.can, rfl⟩

theorem canApart_sendCan (d : Dev) (cob : Nat) (data : List Byte) : CanApart d (d.sendCan cob data) := by
  unfold Dev.sendCan
  dsimp only
  (repeat' split)
  · exact .refl d
  · exact canApart_onCan d _
  · exact ⟨d.can, _, rfl⟩

theorem canApart_queueTpdo (d : Dev) (n : Nat) : CanApart d (d.queueTpdo n) := by
  have hsend := canApart_sendCan d (d.rd (keyAt O.TPDO_COB_ID n)) (tpdoData d n)
  unfold Dev.queueTpdo
  dsimp only
  (repeat' split)
  · exact .refl d
  · exact canApart_onCan d _
  · exact hsend
  · exact hsend.trans (canApart_onCan _ _)

theorem canApart_when {f : Dev → Dev} (hf : ∀ x, CanApart x (f x)) (d : Dev) (c : Bool) : CanApart d (d.when c f) := by
  cases c
  · exact .refl d
  · exact hf d

theorem canApart_tpdoSweep (a b : Dev) : CanApart b (tpdoSweep a b) := by
  have hqueue := fun n x => canApart_queueTpdo x n
  exact (((canApart_when (hqueue 0) b _).trans (canApart_when (hqueue 1) _ _)).trans (canApart_when (hqueue 2) _ _)).trans
    (canApart_when (hqueue 3) _ _)

/-! ## The statements -/

/-- Settles O7: a step that goes on either leaves the mark as it is or has found it clear. -/
theorem stepsStayDocumented : Obligations.StepsStayDocumented := by
  unfold Obligations.StepsStayDocumented
  intro s t hdoc h
  exact (step_goesOn h).1 hdoc

/-- Settles O9: each effect of each command leaves the three queues, takes from one, or adds a request where an entry is free. -/
theorem queuesStayBounded : Obligations.QueuesStayBounded := by
  unfold Obligations.QueuesStayBounded
  intro s t hbounded h
  exact (step_goesOn h).2 hbounded

/-- Settles O4, by the shapes of outcomes and by what the TPDOs of a sweep change. -/
theorem outsideTheEffect : Obligations.OutsideTheEffect := by
  unfold Obligations.OutsideTheEffect
  constructor
  · intro c s t h
    exact (exec_goesOn c s t h).1
  · intro a b
    obtain ⟨c, o, h⟩ := canApart_tpdoSweep a b
    rw [h]

/-- Settles O2: the idle step is one cycle of the clock and the requests that go on. -/
theorem idleStep : Obligations.IdleStep := by
  unfold Obligations.IdleStep
  intro s hpending d
  have hstep : step s = if d.undoc then .fault .rsvdChanged else done s d := by
    unfold step
    rw [hpending]
    rfl
  constructor
  · intro hdoc
    rw [hstep, hdoc, ← hpending]
    rfl
  · intro hundoc
    rw [hstep, hundoc]
    rfl

/-- Settles O8: the reset state has no cell, no request and no changed field. -/
theorem invariantsAtReset : Obligations.InvariantsAtReset := by
  unfold Obligations.InvariantsAtReset
  exact ⟨wf_reset, ⟨Nat.zero_le 16, Nat.zero_le 16, Nat.zero_le 16⟩, rfl⟩

end Sys2Proof.Proofs
end

section
/-!
PROOFS. A master's privilege (R48) outlives a discarded guard sequence: its event may change the debug level and the mode, not the flag of
an authenticated session.
-/
namespace Sys2Proof.Machine

/-! ## Bits of a stored value -/

/-- A field's replacement leaves the bits below it. -/
theorem bit_putBits_of_lt (v w x : Nat) {lo i : Nat} (h : i < lo) : bit (putBits v lo w x) i = bit v i := by
  have hle : bits v lo w * 2 ^ lo ≤ v :=
    (Nat.mul_le_mul_right _ (Nat.mod_le _ _)).trans (Nat.div_mul_le_self v (2 ^ lo))
  have hmod : putBits v lo w x % 2 ^ lo = v % 2 ^ lo := by
    rw [putBits, Nat.add_mul_mod_self_right]
    conv_rhs => rw [← Nat.sub_add_cancel hle, Nat.add_mul_mod_self_right]
  have hbit := congrArg (fun n => n.testBit i) hmod
  simpa [bit, Nat.testBit_mod_two_pow, h] using hbit

theorem flag_putFlag_of_lt (d : Dev) (k : Key) (b : Bool) {i j : Nat} (h : i < j) (hi : i < 64) :
    (d.putFlag k j b).flag k i = d.flag k i := by
  have hput := bit_putBits_of_lt (d.rd k) 1 (ofBit b) h
  have hkept : (d.putFlag k j b).rd k = putBits (d.rd k) j 1 (ofBit b) % 2 ^ 64 := by rw [Dev.putFlag, Dev.putFld, rd_wr, if_pos rfl]
  rw [bit, bit] at hput
  rw [Dev.flag, Dev.flag, hkept, bit, bit, Nat.testBit_mod_two_pow, hput]
  simp [hi]

/-! ## The flag of an authenticated session (Table SE-9) -/

/-- SESSION_ACTIVE: the CAN master is privileged (R48, R433). -/
def Dev.session (d : Dev) : Bool := d.flag O.SEC_STATUS 2

theorem session_of_rd {d e : Dev} (h : e.rd O.SEC_STATUS = d.rd O.SEC_STATUS) : e.session = d.session := by
  simp only [Dev.session, Dev.flag, h]

theorem putFlag_session (d : Dev) (b : Bool) {i : Nat} (h : 2 < i) : (d.putFlag O.SEC_STATUS i b).session = d.session :=
  flag_putFlag_of_lt d O.SEC_STATUS b h (by decide)

theorem set1_session (d : Dev) {i : Nat} (h : 2 < i) : (d.set1 O.SEC_STATUS i).session = d.session := putFlag_session d true h

theorem when_session (d : Dev) (c : Bool) {f : Dev → Dev} (hf : ∀ x : Dev, (f x).session = x.session) :
    (d.when c f).session = d.session := by
  cases c
  · rfl
  · exact hf d

theorem setDebug_session (d : Dev) (level : Nat) (forced : Bool) : (d.setDebug level forced).session = d.session := by
  unfold Dev.setDebug Dev.privateStatus
  split
  · rfl
  · dsimp only
    rw [session_of_rd (rd_of_regs (onSec_regs _ _) _), putFlag_session _ _ (by decide),
      when_session _ _ fun x => putFlag_session x _ (by decide), when_session _ _ fun x => set1_session x (by decide),
      session_of_rd (rd_upset _ _ _), set1_session _ (by decide), session_of_rd (rd_wr_ne d level (by decide))]

theorem capDebug_session (d : Dev) (cap : Nat) : (d.capDebug cap).session = d.session := by
  unfold Dev.capDebug
  split
  · exact setDebug_session d cap true
  · rfl

/-- A change of mode lowers debug, and writes only its own record beside. -/
theorem recordMode_session (d : Dev) (m : Nat) : (d.recordMode m).session = d.session := by
  unfold Dev.recordMode
  dsimp only
  rw [session_of_rd (rd_pmBreak _ _), session_of_rd (rd_of_regs (onPair_regs _ _) _), session_of_rd (rd_wr_ne _ _ (by decide)),
    session_of_rd (rd_of_regs (onMode_regs _ _) _), capDebug_session, session_of_rd (rd_set1_ne _ _ (by decide)),
    session_of_rd (rd_count_ne _ _ (by decide)), session_of_rd (rd_wr_ne _ _ (by decide)), session_of_rd (rd_putFlag_ne _ _ _ (by decide)),
    session_of_rd (rd_putFld_ne _ _ _ _ (by decide)), session_of_rd (rd_putFld_ne _ _ _ _ (by decide))]

theorem releaseClaim_session (d : Dev) (cause : Nat) (own : Bool) : (d.releaseClaim cause own).session = d.session := by
  unfold Dev.releaseClaim
  dsimp only
  rw [when_session _ _ fun x => session_of_rd (rd_putFlag_ne x _ _ (by decide)), session_of_rd (rd_wr_ne _ _ (by decide)),
    session_of_rd (rd_setPairState _ _ (by decide)), recordMode_session,
    session_of_rd (rd_cancelEarly _ _ (by decide) (by decide) (by decide)), Dev.sendMate, session_of_rd (rd_of_regs (onOut_regs _ _) _),
    session_of_rd (rd_stopClaim _ (by decide))]

theorem react_session (d : Dev) (seq : Nat) : (d.react seq).session = d.session := by
  unfold Dev.react
  split
  · rfl
  · dsimp only
    rw [session_of_rd (rd_reactEnd_idle _ _ (by decide)), when_session _ _ fun x => releaseClaim_session x 4 false,
      session_of_rd (rd_putWindow _ _ _)]

theorem onComa_session (d : Dev) (f : Coma → Coma) : (d.onComa f).session = d.session := rfl

theorem whenComa_session (d : Dev) (c : Bool) (f : Coma → Coma) : (d.when c (fun x => x.onComa f)).session = d.session :=
  when_session d c fun x => onComa_session x f

theorem writeEntry_session (d : Dev) (e : Ev) (severe forced : Bool) : (d.writeEntry e severe forced).session = d.session := by
  unfold Dev.writeEntry
  dsimp only
  rw [when_session _ _ fun x => session_of_rd (rd_count_ne x _ (by decide)), onComa_session]

theorem raise_session (d : Dev) (e : Ev) : (d.raise e).session = d.session := by
  unfold Dev.raise
  split
  · rfl
  · dsimp only
    split <;> split
    · rw [react_session, session_of_rd (rd_putWindow _ _ _), whenComa_session, onComa_session, whenComa_session, whenComa_session]
    · rw [whenComa_session, onComa_session, whenComa_session, whenComa_session]
    · rw [react_session, onComa_session, whenComa_session, writeEntry_session, whenComa_session, whenComa_session]
    · rw [whenComa_session, writeEntry_session, whenComa_session, whenComa_session]

/-! ## Privilege -/

theorem privilege_of_frames {d e : Dev} (hstraps : e.rd O.STRAPS = d.rd O.STRAPS) (hsession : e.session = d.session) (m : Master) :
    e.privilege m = d.privilege m := by
  simp only [Dev.session] at hsession
  cases m
  · simp only [Dev.privilege, Dev.flag, hstraps]; rfl
  · simp only [Dev.privilege, hsession]
  · rfl

theorem guardDiscard_privilege (d : Dev) (m m' : Master) (idx sub cause : Nat) :
    (d.guardDiscard m idx sub cause).privilege m' = d.privilege m' := by
  refine privilege_of_frames ?_ ?_ m'
  · rw [Dev.guardDiscard, rd_raise _ _ (by decide), rd_wr_ne _ _ (by decide), rd_wr_ne _ _ (by decide), rd_count_ne _ _ (by decide)]
  · rw [Dev.guardDiscard, raise_session, session_of_rd (rd_wr_ne _ _ (by decide)), session_of_rd (rd_wr_ne _ _ (by decide)),
      session_of_rd (rd_count_ne d _ (by decide))]

theorem onMaster_regs (d : Dev) (m : Master) (f : MasterSt → MasterSt) : (d.onMaster m f).regs = d.regs := by cases m <;> rfl

theorem dropArm_privilege (d : Dev) (m m' : Master) (cause : Nat) : (d.dropArm m cause).privilege m' = d.privilege m' := by
  unfold Dev.dropArm
  split
  · rfl
  · rw [guardDiscard_privilege]
    exact privilege_of_frames (rd_of_regs (onMaster_regs d m _) _) (session_of_rd (rd_of_regs (onMaster_regs d m _) _)) m'

end Sys2Proof.Machine
end

section
/-!
PROOFS. Writes of the dictionary by a master: in its turn an access takes effect, behind its own requests it waits (R49, R58); the arming
write of a guard (R52, R53), the edit of a `gen` number (R43), and the context selector (R77, R79).
-/
namespace Sys2Proof.Proofs
open Sys2Proof Sys2Proof.Machine

/-! ## Host accesses -/

/-- A host access that changes no `rsvd` field goes on with its answer recorded. -/
theorem hostDone_of_undoc {s : State} {m : Master} {d : Dev} {code : Nat} (hd : d.undoc = false) :
    hostDone s m (d, code) = .next { s with dev := tpdoSweep s.dev (answered d m code []) } := by
  simp only [hostDone, hd]
  rfl

section
variable {c : Instr} {s : State} {m : Master} {q : Req} {r : Dev × Nat} {d : Dev} {code : Nat}

theorem leaves_of_hostTurn (hc : exec c s = hostTurn s m q r) (hr : reachable s m) (heffect : r = (d, code)) (hd : d.undoc = false) :
    leaves c s (answered d m code []) := by
  obtain ⟨⟨hboot, -⟩, hturn⟩ := hr
  rw [leaves, hc, hostTurn, hboot, hturn, heffect]
  exact hostDone_of_undoc hd

/-- An access out of its master's turn joins the queue as a request, or is refused there. -/
theorem leaves_of_hostWait (hc : exec c s = hostTurn s m q r) (hs : outOfBoot s) (hturn : s.dev.turnOf m = false)
    (hqueue : s.dev.queueReq m q = (d, code)) (hd : d.undoc = false) : leaves c s (answered d m code []) := by
  obtain ⟨hboot, -⟩ := hs
  rw [leaves, hc, hostTurn, hboot, hturn, hqueue]
  exact hostDone_of_undoc hd

end

/-! ## Guards (R52, R53) -/

section
variable {d : Dev} {m : Master} {idx n : Nat} {data : List Byte} {o : ObjDef}

/-- A write to a sub-index below 64 of a guarded object is an arming write. -/
theorem writeObj_arming (hw : Nat) (hboot : d.inBoot = false) (hobj : findObj idx n = some o) (hidx : indexExists idx = true)
    (hguard : o.guard = true) (hn : n < 64) : d.writeObj m idx n data hw =
      d.armGuard m idx n (ofBytesLE data) (lengthOk o.ty data.length) (guardRange d o (ofBytesLE data)) := by
  simp [Dev.writeObj, Dev.writeSized, hboot, hobj, hidx, hguard, hn]

theorem armGuard_unprivileged {v : Nat} {lenOk inRange : Bool} (h : d.privilege m = 0) :
    d.armGuard m idx n v lenOk inRange = ((d.dropArm m 4).guardDiscard m idx n 1, abGuard) := by
  simp [Dev.armGuard, h]

theorem armGuard_privileged {v : Nat} (h : d.privilege m ≠ 0) : d.armGuard m idx n v true true =
    ((d.dropArm m 4).onMaster m (fun x => { x with arm := some { idx := idx, sub := n, value := v } }), 0) := by
  simp [Dev.armGuard, h]

end

theorem dropArm_of_arm {d : Dev} {m : Master} {a : Arm} (cause : Nat) (h : (d.master m).arm = some a) :
    d.dropArm m cause = (d.onMaster m (fun x => { x with arm := none })).guardDiscard m a.idx a.sub cause := by
  simp only [Dev.dropArm, h]

theorem dropArm_of_none {d : Dev} {m : Master} (cause : Nat) (h : (d.master m).arm = none) : d.dropArm m cause = d := by
  simp only [Dev.dropArm, h]

/-- Settles O11: the master's privilege decides whether an arming write arms or is discarded, and the end of the window drops the arm. -/
theorem guardArms : Obligations.GuardArms := by
  unfold Obligations.GuardArms
  refine ⟨?_, ?_⟩
  · intro s m idx n data o hr hobj hidx hguard hn
    have hexec := writeObj_arming (m := m) (data := data) 0 hr.1.1 hobj hidx hguard hn
    have hundoc := disarmed_undoc hr
    constructor
    · intro hpriv _ hlen hrange
      refine leaves_of_hostTurn rfl hr ?_ (by simpa using hundoc)
      rw [hexec, hlen, hrange, armGuard_privileged hpriv]
      rfl
    · intro hpriv
      refine leaves_of_hostTurn rfl hr ?_ (by simpa using hundoc)
      rw [hexec, armGuard_unprivileged ((dropArm_privilege s.dev m m 4).symm.trans hpriv)]
      rfl
  · intro s m
    constructor
    · intro a ha
      exact congrArg (done s) (dropArm_of_arm 5 ha)
    · intro ha
      exact congrArg (done s) (dropArm_of_none 5 ha)

/-! ## Edits of `gen` numbers (R43) -/

/-- Settles O12: past the checks of a write, a `gen` number's value goes to the pending bank. -/
theorem genWriteEditsPending : Obligations.GenWriteEditsPending := by
  unfold Obligations.GenWriteEditsPending
  intro s m idx n data o hr
  dsimp only
  intro hobj hidx hguard hacc hgen hoct hpath hport hmap hbonded hgated hlen hctx hheld hrefused hrange hignored hrsvd
  have hundoc := disarmed_undoc hr
  have hedit := (edit_undoc (disarmed s m) fun b =>
    bankWr b (dictKey (disarmed s m) m idx.toNat n.toNat ((disarmed s m).selected m)) (ofBytesLE data)).trans hundoc
  have hopen : s.dev.writeObj m idx.toNat n.toNat data 0 = openWrite (disarmed s m) m o idx.toNat n.toNat data 0 true := by
    simp [Dev.writeObj, Dev.writeSized, hr.1.1, hobj, hidx, hguard, disarmed]
  have hwrite : openWrite (disarmed s m) m o idx.toNat n.toNat data 0 true = genWrite (disarmed s m) m o idx.toNat n.toNat data := by
    simp [openWrite, hbonded, hacc, hgated, hlen, hctx, hgen, hheld]
  have hkept : genWrite (disarmed s m) m o idx.toNat n.toNat data = ((disarmed s m).edit fun b =>
      bankWr b (dictKey (disarmed s m) m idx.toNat n.toNat ((disarmed s m).selected m)) (ofBytesLE data), 0) := by
    simp only [genWrite, beq_iff_eq, hpath, hport, hmap, hrefused, hoct, hrange, hignored, hrsvd, hundoc, Bool.not_true, Bool.false_eq_true,
      if_false, Bool.or_self]
    rw [← hedit]
  exact leaves_of_hostTurn rfl hr (hopen.trans (hwrite.trans hkept)) hedit

/-! ## The context selector (R77, R79) -/

theorem lowestOf_eq_none {l : List (Nat × Nat)} (h : lowestOf l = none) : l = [] := by
  cases l with
  | nil => rfl
  | cons e r =>
    simp only [lowestOf] at h
    split at h
    · split at h <;> contradiction
    · contradiction

/-- The entry of the lowest number is one of the list, and none lies below it. -/
theorem lowestOf_eq_some {l : List (Nat × Nat)} {x : Nat × Nat} (h : lowestOf l = some x) : x ∈ l ∧ ∀ e ∈ l, x.1 ≤ e.1 := by
  induction l generalizing x with
  | nil => contradiction
  | cons e r ih =>
    simp only [lowestOf] at h
    split at h
    next y hy =>
      obtain ⟨hmem, hle⟩ := ih hy
      split at h
      next hlt =>
        obtain rfl := Option.some.inj h
        refine ⟨List.mem_cons_of_mem e hmem, fun z hz => ?_⟩
        rcases List.mem_cons.mp hz with rfl | hz
        · exact Nat.le_of_lt hlt
        · exact hle z hz
      next hge =>
        obtain rfl := Option.some.inj h
        refine ⟨List.mem_cons_self, fun z hz => ?_⟩
        rcases List.mem_cons.mp hz with rfl | hz
        · exact Nat.le_refl _
        · exact (Nat.le_of_not_lt hge).trans (hle z hz)
    next hnone =>
      obtain rfl := Option.some.inj h
      simp [lowestOf_eq_none hnone]

theorem lowestOf_of_least {l : List (Nat × Nat)} {n : Nat × Nat} (hn : n ∈ l) (hleast : ∀ e ∈ l, e = n ∨ n.1 < e.1) :
    lowestOf l = some n := by
  cases h : lowestOf l with
  | none => rw [lowestOf_eq_none h] at hn; contradiction
  | some x =>
    obtain ⟨hmem, hle⟩ := lowestOf_eq_some h
    rcases hleast x hmem with rfl | hlt
    · rfl
    · exact absurd (hle n hn) (Nat.not_le_of_lt hlt)

section
variable {b : Bank} {a : Nat}

theorem nextContext_of_own {own : Nat × Nat} (hown : own ∈ numbering b (adLevel a)) (haddr : own.2 = a)
    (hunique : ∀ e ∈ numbering b (adLevel a), e.2 = a → e = own) :
    nextContext b a = (lowestOf ((numbering b (adLevel a)).filter (fun e => own.1 < e.1))).map (·.2) := by
  have hfind : (numbering b (adLevel a)).find? (fun e => e.2 == a) = some own := by
    cases h : (numbering b (adLevel a)).find? (fun e => e.2 == a) with
    | none => exact absurd haddr (by simpa using List.find?_eq_none.mp h own hown)
    | some e => rw [hunique e (List.mem_of_find?_eq_some h) (by simpa using List.find?_some h)]
  simp only [nextContext, hfind]

theorem nextContext_of_unnumbered (h : ∀ e ∈ numbering b (adLevel a), e.2 ≠ a) :
    nextContext b a = (lowestOf (numbering b (adLevel a))).map (·.2) := by
  have hfind : (numbering b (adLevel a)).find? (fun e => e.2 == a) = none := List.find?_eq_none.mpr (by simpa using h)
  simp only [nextContext, hfind]

end

section
variable {m : Master} {d : Dev}

theorem selectStep_of_some {n : Nat} (hsel : d.selected m ≠ 0) (hnext : nextContext d.active (d.selected m) = some n) :
    selectStep m 1 d = (d.wr (keyOf O.CONTEXT_SELECT (masterNo m)) n, 0) := by
  simp [selectStep, hsel, hnext]

theorem selectStep_of_none (h : d.selected m = 0 ∨ nextContext d.active (d.selected m) = none) : selectStep m 1 d = (d, abNoContext) := by
  rcases h with h | h
  · simp [selectStep, h]
  · simp only [selectStep, h]
    simp

theorem selectStep_range {v : Nat} (h : v ≠ 1) : selectStep m v d = (d, abRange) := by simp [selectStep, h]

end

/-- Settles O13: the next context is the least of those above the selected one, or of all where it has no number. -/
theorem selectStep : Obligations.SelectStep := by
  unfold Obligations.SelectStep
  intro s m hr
  dsimp only
  have hundoc := disarmed_undoc hr
  have hmoves : ∀ n : Nat, (disarmed s m).selected m ≠ 0 →
      nextContext (disarmed s m).active ((disarmed s m).selected m) = some n →
      accepts (.selectStep m 1) s m ((disarmed s m).wr (keyOf O.CONTEXT_SELECT (masterNo m)) n) := fun n hsel hnext =>
    leaves_of_hostNum rfl hr (selectStep_of_some hsel hnext) hundoc
  have hstays : (disarmed s m).selected m = 0 ∨ nextContext (disarmed s m).active ((disarmed s m).selected m) = none →
      abortsWith (.selectStep m 1) s m 0x08000024 (disarmed s m) := fun h =>
    leaves_of_hostNum rfl hr (selectStep_of_none h) hundoc
  refine ⟨?_, ?_, ?_, ?_, ?_, ?_⟩
  · intro own n hsel hown haddr hunique
    have hnext := nextContext_of_own hown haddr hunique
    constructor
    · intro hn hlt hleast
      have hlowest : lowestOf ((numbering (disarmed s m).active (adLevel ((disarmed s m).selected m))).filter
          (fun e => own.1 < e.1)) = some n := by
        refine lowestOf_of_least (by simp [hn, hlt]) fun e he => ?_
        obtain ⟨hmem, habove⟩ := List.mem_filter.mp he
        exact hleast e hmem (by simpa using habove)
      exact hmoves n.2 hsel (by rw [hnext, hlowest]; rfl)
    · intro hlast
      have hempty : (numbering (disarmed s m).active (adLevel ((disarmed s m).selected m))).filter (fun e => own.1 < e.1) = [] := by
        simpa using hlast
      exact hstays (.inr (by rw [hnext, hempty]; rfl))
  · intro n hsel hnone hn hleast
    exact hmoves n.2 hsel (by rw [nextContext_of_unnumbered hnone, lowestOf_of_least hn hleast]; rfl)
  · intro h
    refine hstays ?_
    rcases h with hempty | hsel
    · right
      rw [nextContext_of_unnumbered (by simp [hempty]), hempty]
      rfl
    · exact .inl hsel
  · intro v hv
    exact leaves_of_hostNum rfl hr (selectStep_range (by simpa [← BitVec.toNat_inj] using hv)) hundoc
  · intro x hx
    exact leaves_of_hostNum rfl hr (if_pos hx) hundoc
  · intro x hx
    exact leaves_of_hostNum rfl hr (if_neg (by simp [hx])) hundoc

/-! ## Accesses behind waiting requests (R49, R58) -/

theorem turnOf_of_waiting {d : Dev} {m : Master} (h : d.nextReq m ≠ none) : d.turnOf m = false := by
  cases hnext : d.nextReq m with
  | none => contradiction
  | some q => simp [Dev.turnOf, hnext]

theorem turnOf_of_full {d : Dev} {m : Master} (h : 16 ≤ d.occupancy m) : d.turnOf m = false := by
  have hfull : ¬ d.occupancy m < 16 := Nat.not_lt_of_le h
  simp [Dev.turnOf, hfull]

theorem queueReq_of_full {d : Dev} {m : Master} (q : Req) (h : 16 ≤ d.occupancy m) : d.queueReq m q = (d.overload m, abQueue) := if_pos h

theorem queueReq_of_room {d : Dev} {m : Master} (q : Req) (h : d.occupancy m < 16) :
    d.queueReq m q = ((d.onMaster m (fun x => { x with queue := x.queue ++ [q] })).queuePeak m, 0) := if_neg (Nat.not_le_of_lt h)

theorem master_onMaster (d : Dev) (m : Master) (f : MasterSt → MasterSt) : (d.onMaster m f).master m = f (d.master m) := by
  cases m <;> rfl

theorem master_onMaster_ne (d : Dev) {m m' : Master} (f : MasterSt → MasterSt) (h : m' ≠ m) :
    (d.onMaster m f).master m' = d.master m' := by
  cases m with
  | spi => cases m' with
    | spi => contradiction
    | can | mgmt => rfl
  | can => cases m' with
    | can => contradiction
    | spi | mgmt => rfl
  | mgmt => cases m' with
    | mgmt => contradiction
    | spi | can => rfl

theorem queuePeak_master (d : Dev) (m m' : Master) : (d.queuePeak m).master m' = d.master m' := by cases m' <;> rfl

theorem queuePeak_rd (d : Dev) (m : Master) {k : Key} (h : k ≠ O.QUEUE_PEAK) : (d.queuePeak m).rd k = d.rd k :=
  rd_putFld_ne d _ _ _ h.symm

/-- A request joins its master's queue at the end; beside it only the peak and the answer change. -/
def joined (d : Dev) (m : Master) (q : Req) : Dev :=
  answered ((d.onMaster m (fun x => { x with queue := x.queue ++ [q] })).queuePeak m) m 0 []

theorem joined_queue (d : Dev) (m : Master) (q : Req) : ((joined d m q).master m).queue = (d.master m).queue ++ [q] := by
  rw [joined, answered, master_onMaster, queuePeak_master, master_onMaster]

theorem joined_master_ne (d : Dev) {m m' : Master} (q : Req) (h : m' ≠ m) : (joined d m q).master m' = d.master m' := by
  rw [joined, answered, master_onMaster_ne _ _ h, queuePeak_master, master_onMaster_ne _ _ h]

theorem joined_banks (d : Dev) (m : Master) (q : Req) :
    (joined d m q).bankA = d.bankA ∧ (joined d m q).bankB = d.bankB ∧ (joined d m q).mem = d.mem := by
  cases m <;> exact ⟨rfl, rfl, rfl⟩

theorem joined_rd (d : Dev) (m : Master) (q : Req) {k : Key} (h : k ≠ O.QUEUE_PEAK) : (joined d m q).rd k = d.rd k := by
  rw [joined, answered, rd_of_regs (onMaster_regs _ _ _), queuePeak_rd _ _ h, rd_of_regs (onMaster_regs _ _ _)]

/-- What a step owes the CAN layer changes no master's items, no bank, no cell and no value. -/
theorem tpdoSweep_apart (a b : Dev) : (∀ m, (tpdoSweep a b).master m = b.master m) ∧ (tpdoSweep a b).bankA = b.bankA
    ∧ (tpdoSweep a b).bankB = b.bankB ∧ (tpdoSweep a b).mem = b.mem ∧ ∀ k, (tpdoSweep a b).rd k = b.rd k := by
  obtain ⟨c, o, h⟩ := canApart_tpdoSweep a b
  rw [h]
  exact ⟨fun m => by cases m <;> rfl, rfl, rfl, rfl, fun _ => rfl⟩

/-- Settles O14: a write out of its turn is a request at the end of its master's queue, or an overload. -/
theorem namedAccessWaits : Obligations.NamedAccessWaits := by
  unfold Obligations.NamedAccessWaits
  intro s m idx n data hw hs
  dsimp only
  constructor
  · intro hwait hroom c hc
    obtain ⟨r, hexec⟩ : ∃ r, exec c s = hostTurn s m (writeReq idx.toNat n.toNat data) r := by
      rcases hc with rfl | rfl <;> exact ⟨_, rfl⟩
    have hleaves : leaves c s (joined s.dev m (writeReq idx.toNat n.toNat data)) :=
      leaves_of_hostWait hexec hs (turnOf_of_waiting hwait) (queueReq_of_room _ hroom) (by simpa using hs.2)
    obtain ⟨hmaster, hA, hB, hmem, hrd⟩ := tpdoSweep_apart s.dev (joined s.dev m (writeReq idx.toNat n.toNat data))
    obtain ⟨hjA, hjB, hjmem⟩ := joined_banks s.dev m (writeReq idx.toNat n.toNat data)
    refine ⟨_, hleaves, ?_, fun m' hne => ?_, hA.trans hjA, hB.trans hjB, hmem.trans hjmem, fun k hk => ?_⟩
    · exact (congrArg MasterSt.queue (hmaster m)).trans (joined_queue s.dev m _)
    · exact (hmaster m').trans (joined_master_ne s.dev _ hne)
    · exact (hrd k).trans (joined_rd s.dev m _ hk)
  · intro hfull
    exact leaves_of_hostWait rfl hs (turnOf_of_full hfull) (queueReq_of_full _ hfull) (by simpa [Dev.overload] using hs.2)

end Sys2Proof.Proofs
end

section
/-!
PROOFS. Milber (R68 to R76): every transaction leaves what it makes of the device; the four queued opcodes share their checks (R71), FETCH
frees a finished request's entry (R72), and STATUS marks each tag in one of two masks (R74).
-/
namespace Sys2Proof.Proofs
open Sys2Proof Sys2Proof.Machine

theorem leaves_of_spiDone {c : Instr} {s : State} {d e : Dev} (hc : exec c s = spiDone s d) (he : d = e) (hd : e.undoc = false) :
    leaves c s e := by
  subst he
  rw [leaves, hc, spiDone, hd]
  rfl

/-! ## The four queued opcodes (R71) -/

section
variable {d : Dev} {r : Req} {f : Frame} (hboot : d.inBoot = false)
include hboot

theorem milberQueue_beyond (h : f.limits = false) : milberQueue d r f = acceptAll d f.head (f.body + 2) abLength := by
  simp [milberQueue, hboot, h]

variable (hlimits : f.limits = true)
include hlimits

theorem milberQueue_misfit (h : f.words = false) : milberQueue d r f = frameError d := by simp [milberQueue, hboot, hlimits, h]

variable (hwords : f.words = true)
include hwords

theorem milberQueue_trailer (h : f.crc.toNat ≠ crc32c f.sent) :
    milberQueue d r f = acceptWord (d.count O.SPI_FRAME_ERRORS 1) (f.head + f.body + 2) abCrc := by
  simp [milberQueue, hboot, hlimits, hwords, h]

variable (hcrc : f.crc.toNat = crc32c f.sent)
include hcrc

theorem milberQueue_full (h : 16 ≤ d.spi.queue.length) :
    milberQueue d r f = acceptWord (d.overload .spi) (f.head + f.body + 2) abQueue := by
  simp [milberQueue, hboot, hlimits, hwords, hcrc, h]

variable (hroom : d.spi.queue.length < 16)
include hroom

theorem milberQueue_tagged (h : d.spi.queue.any (fun q => q.tag == r.tag) = true) :
    milberQueue d r f = acceptWord d (f.head + f.body + 2) abSpecifier := by
  simp only [milberQueue, hboot, hlimits, hwords, hcrc, Nat.not_le_of_lt hroom, h]
  simp

theorem milberQueue_free (h : d.spi.queue.any (fun q => q.tag == r.tag) = false) :
    milberQueue d r f = (acceptWord (d.queueReq .spi r).1 (f.head + f.body + 2) 0).drain := by
  simp only [milberQueue, hboot, hlimits, hwords, hcrc, Nat.not_le_of_lt hroom, h]
  simp

end

/-- How a frame of `k` words within its limits is turned away: by its trailer, by a full queue, by its tag (R71). -/
def TurnedAway (c : Instr) (s : State) (tag k : Nat) (good : Prop) : Prop :=
  (¬ good → leaves c s (acceptWord (s.dev.count O.SPI_FRAME_ERRORS 1) k 0x05040004)) ∧
  (good → 16 ≤ s.dev.spi.queue.length → leaves c s (acceptWord (s.dev.overload .spi) k 0x08000020)) ∧
  (good → s.dev.spi.queue.length < 16 → s.dev.spi.queue.any (fun r => r.tag == tag) = true →
    leaves c s (acceptWord s.dev k 0x05040001))

section
variable {c : Instr} {s : State} {r : Req} {f : Frame} (hc : exec c s = spiDone s (milberQueue s.dev r f)) (hs : outOfBoot s)
include hc hs

theorem leaves_beyond (h : f.limits = false) : leaves c s (acceptAll s.dev f.head (f.body + 2) 0x06070010) :=
  leaves_of_spiDone hc (milberQueue_beyond hs.1 h) (by simpa [acceptAll] using hs.2)

variable (hlimits : f.limits = true)
include hlimits

theorem leaves_misfit (h : f.words = false) : leaves c s (frameError s.dev) :=
  leaves_of_spiDone hc (milberQueue_misfit hs.1 hlimits h) (by simpa [frameError] using hs.2)

variable (hwords : f.words = true) {k : Nat} (hk : k = f.head + f.body + 2)
include hwords hk

theorem turnedAway : TurnedAway c s r.tag k (f.crc.toNat = crc32c f.sent) := by
  subst hk
  refine ⟨fun h => ?_, fun h hfull => ?_, fun h hroom htag => ?_⟩
  · exact leaves_of_spiDone hc (milberQueue_trailer hs.1 hlimits hwords h) (by simpa [acceptWord] using hs.2)
  · exact leaves_of_spiDone hc (milberQueue_full hs.1 hlimits hwords h hfull) (by simpa [acceptWord, Dev.overload] using hs.2)
  · exact leaves_of_spiDone hc (milberQueue_tagged hs.1 hlimits hwords h hroom htag) (by simpa [acceptWord] using hs.2)

/-- A frame that passes every check joins the queue, whose requests go on. -/
theorem leaves_joined (hcrc : f.crc.toNat = crc32c f.sent)
    (hfree : s.dev.spi.queue.length < 16 ∧ s.dev.spi.queue.any (fun q => q.tag == r.tag) = false)
    (hdoc : (acceptWord (s.dev.queueReq .spi r).1 k 0).drain.undoc = false) :
    leaves c s (acceptWord (s.dev.queueReq .spi r).1 k 0).drain := by
  subst hk
  exact leaves_of_spiDone hc (milberQueue_free hs.1 hlimits hwords hcrc hfree.1 hfree.2) hdoc

end

/-- Settles O18: each queued opcode goes through the common checks with its own limits and words. -/
theorem milberRequests : Obligations.MilberRequests := by
  unfold Obligations.MilberRequests
  intro s i n tag hs
  dsimp only
  refine ⟨fun len crc e => ?_, fun len crc data => ?_, fun start count crc => ?_, fun start count crc data => ?_⟩
  · have hexec : exec (.milberRead i n tag len crc e) s = spiDone s (milberQueue s.dev _ _) := rfl
    refine ⟨leaves_beyond hexec hs, fun h => ⟨?_, ?_⟩⟩
    · exact turnedAway hexec hs h rfl rfl
    · exact leaves_joined hexec hs h rfl rfl
  · have hexec : exec (.milberWrite i n tag len data crc) s = spiDone s (milberQueue s.dev _ _) := rfl
    have hk : 4 + data.length = 2 + data.length + 2 := by omega
    refine ⟨leaves_beyond hexec hs, fun h hlen => leaves_misfit hexec hs h (by simpa using hlen), fun h hlen => ⟨?_, ?_⟩⟩
    · exact turnedAway hexec hs h (by simpa using hlen) hk
    · exact leaves_joined hexec hs h (by simpa using hlen) hk
  · have hexec : exec (.milberTableRead i n tag start count crc) s = spiDone s (milberQueue s.dev _ _) := rfl
    refine ⟨leaves_beyond hexec hs, fun h => ⟨?_, ?_⟩⟩
    · exact turnedAway hexec hs h rfl rfl
    · exact leaves_joined hexec hs h rfl rfl
  · have hexec : exec (.milberTableWrite i n tag start count data crc) s = spiDone s (milberQueue s.dev _ _) := rfl
    have hk : 5 + data.length = 3 + data.length + 2 := by omega
    refine ⟨leaves_beyond hexec hs, fun h hlen => leaves_misfit hexec hs h (by simpa using hlen), fun h hlen => ⟨?_, ?_⟩⟩
    · exact turnedAway hexec hs h (by simpa using hlen) hk
    · exact leaves_joined hexec hs h (by simpa using hlen) hk

/-! ## Frames that queue nothing -/

section
variable {d : Dev} {tag : Nat} {r : Req}

theorem fetched_of_none (whole : Bool) (h : d.spi.queue.find? (fun q => q.tag == tag) = none) :
    fetched d tag whole = d.miso (0 :: fetchWords d tag) := by
  simp only [fetched, h]

theorem fetched_of_pending (whole : Bool) (h : d.spi.queue.find? (fun q => q.tag == tag) = some r) (hr : r.done = false) :
    fetched d tag whole = d.miso (0 :: fetchWords d tag) := by
  simp [fetched, h, hr]

/-- A FETCH that ends early leaves the response in place. -/
theorem fetched_early : fetched d tag false = d.miso (0 :: fetchWords d tag) := by
  unfold fetched
  dsimp only
  split <;> simp

variable (h : d.spi.queue.find? (fun q => q.tag == tag) = some r) (hr : r.done = true)
include h hr

theorem fetched_of_aborted (habort : r.abort ≠ 0) : fetched d tag true = (d.miso (0 :: fetchWords d tag)).onSpi (fun x =>
    { x with queue := x.queue.filter (fun q => q.tag != tag), abort := r.abort, data := r.data }) := by
  simp [fetched, h, hr, habort]

theorem fetched_of_done (habort : r.abort = 0) : fetched d tag true = ((d.miso (0 :: fetchWords d tag)).onSpi (fun x =>
    { x with queue := x.queue.filter (fun q => q.tag != tag), abort := r.abort, data := r.data })).completed r.fin := by
  simp [fetched, h, hr, habort]

end

/-- Settles O16: NOP, an invalid opcode and a frame error answer alone; FETCH follows the first request of its tag. -/
theorem milberPlainFrames : Obligations.MilberPlainFrames := by
  unfold Obligations.MilberPlainFrames
  constructor
  · intro s hs
    obtain ⟨hboot, hdoc⟩ := hs
    refine ⟨?_, fun op n => ?_, ?_⟩
    · exact leaves_of_spiDone rfl rfl (by simpa using hdoc)
    · exact leaves_of_spiDone rfl (by rw [hboot]; rfl) (by simpa using hdoc)
    · exact leaves_of_spiDone rfl rfl (by simpa using hdoc)
  · intro s tag hs
    dsimp only
    refine ⟨fun h => ?_, fun r h hr => ?_, fun r h hr => ⟨?_, fun habort => ?_, fun habort => ?_⟩⟩
    · exact leaves_of_spiDone rfl (fetched_of_none true h) (by simpa using hs.2)
    · exact leaves_of_spiDone rfl (fetched_of_pending true h hr) (by simpa using hs.2)
    · exact leaves_of_spiDone rfl fetched_early (by simpa using hs.2)
    · exact leaves_of_spiDone rfl (fetched_of_aborted h hr habort) (by simpa using hs.2)
    · exact leaves_of_spiDone rfl (fetched_of_done h hr habort) (by simpa using hs.2)

/-! ## The status word (R74) -/

/-- The bit of the status word that a request with a Milber tag sets. -/
def statusBit (r : Req) : Nat := r.tag + (if r.done then 16 else 0)

theorem bit_foldl_status (q : List Req) (n j : Nat) :
    bit (q.foldl (fun n r => if r.tag < 16 then n ||| 2 ^ statusBit r else n) n) j =
      (bit n j || q.any (fun r => decide (r.tag < 16) && statusBit r == j)) := by
  induction q generalizing n with
  | nil => simp
  | cons r q ih =>
    rw [List.foldl_cons, ih, List.any_cons, ← Bool.or_assoc]
    congr 1
    by_cases htag : r.tag < 16
    · simp [htag, bit, Nat.testBit_two_pow, beq_eq_decide]
    · simp [htag]

theorem bit_statusWord (q : List Req) (j : Nat) :
    bit (statusWord q) j = q.any (fun r => decide (r.tag < 16) && statusBit r == j) :=
  (bit_foldl_status q 0 j).trans (by simp [bit])

theorem statusBit_executing {r : Req} {i : Nat} (hi : i < 16) : (decide (r.tag < 16) && statusBit r == i) = (r.tag == i && !r.done) := by
  rw [Bool.eq_iff_iff]
  cases hdone : r.done <;> simp [statusBit, hdone] <;> omega

theorem statusBit_ready {r : Req} {i : Nat} (hi : i < 16) : (decide (r.tag < 16) && statusBit r == i + 16) = (r.tag == i && r.done) := by
  rw [Bool.eq_iff_iff]
  cases hdone : r.done <;> simp [statusBit, hdone] <;> omega

/-- Settles O17: a request's bit lies in the upper half of the word once its response is ready, in the lower half before. -/
theorem milberStatusWord : Obligations.MilberStatusWord := by
  unfold Obligations.MilberStatusWord
  intro s hs
  obtain ⟨hboot, hdoc⟩ := hs
  refine ⟨?_, fun q i hi => ⟨?_, ?_⟩⟩
  · exact leaves_of_spiDone rfl (by rw [hboot]; rfl) (by simpa using hdoc)
  · simp only [bit_statusWord, statusBit_executing hi]
  · simp only [bit_statusWord, statusBit_ready hi]

end Sys2Proof.Proofs
end

section
/-!
PROOFS. SDO transfers (R49, R56, R58, R66, Table DI-6): the client's side decides whether a transfer makes a request, and of which kind.
-/
namespace Sys2Proof.Proofs
open Sys2Proof Sys2Proof.Machine

/-- With no transfer in progress the CAN queue's requests occupy its entries alone (R49). -/
theorem occupancy_idle (d : Dev) : (d.onCan (fun c => { c with sdo := none })).occupancy .can = d.canM.queue.length := rfl

/-- The CAN layer as a transfer begins and as its client side has ended: the transfer held an entry for the peak (R58). -/
def sdoHeld (d : Dev) (r : SdoReq) : Dev :=
  ((d.onCan (fun c => { c with sdo := none })).onCan (fun c => { c with sdo := some r })).queuePeak .can

def sdoBegun (d : Dev) (r : SdoReq) : Dev := (sdoHeld d r).onCan (fun c => { c with sdo := none })

/-- A transfer that ends with a code. -/
def sdoEnded (d : Dev) (code : Nat) : Dev := d.onCanM (fun x => { x with abort := code, data := [] })

theorem sdoHeld_undoc (d : Dev) (r : SdoReq) : (sdoHeld d r).undoc = d.undoc := by simp [sdoHeld]

theorem sdoBegun_undoc (d : Dev) (r : SdoReq) : (sdoBegun d r).undoc = d.undoc := by simp [sdoBegun, sdoHeld]

theorem sdoEnded_undoc (d : Dev) (code : Nat) : (sdoEnded d code).undoc = d.undoc := by simp [sdoEnded]

section
variable {d : Dev} {r : SdoReq} (hears : (d.canHears && d.canTalks) = true)
include hears

theorem sdoRun_full (h : 16 ≤ d.canM.queue.length) :
    sdoRun d r = sdoEnded ((d.onCan (fun c => { c with sdo := none })).overload .can) abQueue := by
  rw [← occupancy_idle] at h
  simp only [sdoRun, hears, h]
  rfl

variable (hroom : d.canM.queue.length < 16)
include hroom

theorem sdoRun_stall (h : r.flaw = .stall) : sdoRun d r = sdoHeld d r := by
  rw [← occupancy_idle] at hroom
  simp only [sdoRun, hears, Nat.not_le_of_lt hroom, h]
  rfl

variable (hflows : r.flaw ≠ .stall)
include hflows

/-- A transfer that its client keeps going: its flaw ends it before it executes, or it makes its request. -/
theorem sdoRun_flows : sdoRun d r =
    if flawCode r == abBlockSize || (r.write && flawCode r != 0) then sdoEnded (sdoBegun d r) (flawCode r)
    else if flawCode r != 0 then sdoEnded ((sdoBegun d r).queueReq .can (sdoReq r)).1.drain (flawCode r)
    else ((sdoBegun d r).queueReq .can (sdoReq r)).1.drain := by
  have hflaw : (r.flaw == SdoFlaw.stall) = false := by simpa using hflows
  rw [← occupancy_idle] at hroom
  simp only [sdoRun, hears, Nat.not_le_of_lt hroom, hflaw]
  rfl

theorem sdoRun_ends (h : flawCode r = abBlockSize ∨ (r.write = true ∧ flawCode r ≠ 0)) :
    sdoRun d r = sdoEnded (sdoBegun d r) (flawCode r) := by
  rw [sdoRun_flows hears hroom hflows, if_pos (by simpa using h)]

theorem sdoRun_executes {q : Req} (hq : sdoReq r = q) (h : flawCode r = 0) :
    sdoRun d r = ((sdoBegun d r).queueReq .can q).1.drain := by
  rw [sdoRun_flows hears hroom hflows, h, hq, if_neg (by simp), if_neg (by simp)]

theorem sdoRun_short {q : Req} (hq : sdoReq r = q) (hread : r.write = false) (hblock : flawCode r ≠ abBlockSize) (h : flawCode r ≠ 0) :
    sdoRun d r = sdoEnded ((sdoBegun d r).queueReq .can q).1.drain (flawCode r) := by
  rw [sdoRun_flows hears hroom hflows, hq, if_neg (by simp [hread, hblock]), if_pos (by simpa using h)]

end

/-! ## The request of a transfer -/

section
variable {r : SdoReq}

theorem sdoReq_read (hread : r.write = false) (h : flawCode r = 0) :
    sdoReq r = { tag := tagNone, body := .read r.index.toNat r.sub.toNat 0, ecc := r.ecc } := by
  simp [sdoReq, hread, h]

theorem sdoReq_short (hread : r.write = false) (h : flawCode r ≠ 0) :
    sdoReq r = { tag := tagShort, body := .read r.index.toNat r.sub.toNat 0, ecc := r.ecc } := by
  simp [sdoReq, hread, h]

theorem sdoReq_unsized (hwrite : r.write = true) (h : unsized r = true) :
    sdoReq r = { tag := tagNone, body := .unsized r.index.toNat r.sub.toNat r.data } := by
  simp [sdoReq, hwrite, h]

theorem sdoReq_write (hwrite : r.write = true) (h : unsized r = false) :
    sdoReq r = { tag := tagNone, body := .write r.index.toNat r.sub.toNat r.data } := by
  simp [sdoReq, hwrite, h]

end

theorem leaves_of_sdoRun {s : State} {r : SdoReq} {d : Dev} (h : sdoRun s.dev r = d) (hd : d.undoc = false) :
    leaves (.sdoTransfer r) s d := by
  subst h
  exact if_neg (ne_true_of_eq_false hd)

/-- Settles O20: the queue, the client's side and the kind of the transfer decide in this order. -/
theorem sdoTransfers : Obligations.SdoTransfers := by
  unfold Obligations.SdoTransfers
  constructor
  · intro s r hs hears
    have hdoc := hs.2
    dsimp only
    refine ⟨fun hfull => ?_, fun hroom => ⟨fun hstall => ?_, fun hflows hwrite =>
      ⟨fun h => ?_, fun h hsize hrun => ?_, fun h hsize hrun => ?_⟩,
      fun hflows hread => ⟨fun h hrun => ?_, fun h => ?_, fun h hblock hrun => ?_⟩⟩⟩
    · exact leaves_of_sdoRun (sdoRun_full hears hfull) (by simpa [Dev.overload, sdoEnded] using hdoc)
    · exact leaves_of_sdoRun (sdoRun_stall hears hroom hstall) ((sdoHeld_undoc s.dev r).trans hdoc)
    · exact leaves_of_sdoRun (sdoRun_ends hears hroom hflows (.inr ⟨hwrite, h⟩))
        ((sdoEnded_undoc _ _).trans ((sdoBegun_undoc s.dev r).trans hdoc))
    · exact leaves_of_sdoRun (sdoRun_executes hears hroom hflows (sdoReq_write hwrite hsize) h) hrun
    · exact leaves_of_sdoRun (sdoRun_executes hears hroom hflows (sdoReq_unsized hwrite hsize) h) hrun
    · exact leaves_of_sdoRun (sdoRun_executes hears hroom hflows (sdoReq_read hread h) h) hrun
    · rw [← h]
      exact leaves_of_sdoRun (sdoRun_ends hears hroom hflows (.inl h)) ((sdoEnded_undoc _ _).trans ((sdoBegun_undoc s.dev r).trans hdoc))
    · exact leaves_of_sdoRun (sdoRun_short hears hroom hflows (sdoReq_short hread h) hread hblock h) ((sdoEnded_undoc _ _).trans hrun)
  · intro s hsdo
    exact congrArg (done s) (if_pos hsdo)

end Sys2Proof.Proofs
end

section
/-!
PROOFS. The life of a generation (R85 to R93, R96): the triggers of 2601, the copy back, the bank of a joint commit, a cancelled switch-in
and the swap at the chosen boundary.
-/
namespace Sys2Proof.Proofs
open Sys2Proof Sys2Proof.Machine

/-- A command that is no host access leaves what its effect makes of the device. -/
theorem leaves_of_done {c : Instr} {s : State} {d e : Dev} (hc : exec c s = done s d) (he : d = e) : leaves c s e := by
  subst he
  exact hc

/-! ## The two banks

Which bank is active is one value of the dictionary, so an update that keeps it and both banks keeps their roles. -/

section
variable {d e : Dev}

theorem activeB_of_rd (h : e.rd O.ACTIVE_BANK = d.rd O.ACTIVE_BANK) : e.activeB = d.activeB := by
  simp only [Dev.activeB, h]

theorem active_congr (h : e.rd O.ACTIVE_BANK = d.rd O.ACTIVE_BANK) (hA : e.bankA = d.bankA) (hB : e.bankB = d.bankB) :
    e.active = d.active := by
  simp only [Dev.active, activeB_of_rd h, hA, hB]

theorem pendingBank_congr (h : e.rd O.ACTIVE_BANK = d.rd O.ACTIVE_BANK) (hA : e.bankA = d.bankA) (hB : e.bankB = d.bankB) :
    e.pendingBank = d.pendingBank := by
  simp only [Dev.pendingBank, activeB_of_rd h, hA, hB]

theorem active_wr (d : Dev) {k : Key} (v : Nat) (h : k ≠ O.ACTIVE_BANK) : (d.wr k v).active = d.active :=
  active_congr (rd_wr_ne d v h) rfl rfl

theorem pendingBank_wr (d : Dev) {k : Key} (v : Nat) (h : k ≠ O.ACTIVE_BANK) : (d.wr k v).pendingBank = d.pendingBank :=
  pendingBank_congr (rd_wr_ne d v h) rfl rfl

end

section
variable (d : Dev) (f : Bank → Bank)

theorem onPending_regs : (d.onPending f).regs = d.regs := by
  unfold Dev.onPending
  split <;> rfl

theorem onPending_prov : (d.onPending f).prov = d.prov := by
  unfold Dev.onPending
  split <;> rfl

theorem rd_onPending (k : Key) : (d.onPending f).rd k = d.rd k := rd_of_regs (onPending_regs d f) k

theorem onPending_pendingBank : (d.onPending f).pendingBank = f d.pendingBank := by
  rw [Dev.pendingBank, activeB_of_rd (rd_onPending d f _), Dev.onPending, Dev.pendingBank]
  split <;> rfl

theorem onPending_active : (d.onPending f).active = d.active := by
  rw [Dev.active, activeB_of_rd (rd_onPending d f _), Dev.onPending, Dev.active]
  split <;> rfl

theorem edit_prov : (d.edit f).prov = d.prov := onPending_prov d f

theorem edit_pendingBank : (d.edit f).pendingBank = f d.pendingBank := onPending_pendingBank d f

theorem edit_active : (d.edit f).active = d.active := onPending_active d f

end

/-! ## A cancelled switch-in (R93, Table PV-3) -/

/-- A scheduled switch-in was cancelled with an outcome: the pending bank is EDITABLE, and both banks are as they were. -/
structure SwitchCancelled (d e : Dev) (outcome : Nat) : Prop where
  state   : e.rd O.PENDING_STATE = 0
  outcome : e.rd O.SWITCH_OUTCOME = outcome
  sched   : e.prov.sched = none
  bankA   : e.bankA = d.bankA
  bankB   : e.bankB = d.bankB

section
variable {d e : Dev} {outcome : Nat}

theorem unschedule_cancelled (d : Dev) (h : outcome < 2 ^ 64) : SwitchCancelled d (d.unschedule outcome) outcome where
  state := by rw [Dev.unschedule, rd_of_regs (onProv_regs _ _), rd_wr_ne _ _ (by decide), rd_wr_same, Nat.zero_mod]
  outcome := by rw [Dev.unschedule, rd_of_regs (onProv_regs _ _), rd_wr_same, Nat.mod_eq_of_lt h]
  sched := rfl
  bankA := rfl
  bankB := rfl

theorem SwitchCancelled.sendMate (h : SwitchCancelled d e outcome) (msg : MateMsg) : SwitchCancelled d (e.sendMate msg) outcome where
  state := h.state
  outcome := h.outcome
  sched := h.sched
  bankA := h.bankA
  bankB := h.bankB

theorem rd_startLower (d : Dev) (target : Nat) {k : Key} (h : O.OP_STATUS ≠ k) : (d.startLower target).rd k = d.rd k := by
  rw [Dev.startLower, rd_of_regs (onClk_regs _ _), rd_putFld_ne _ _ _ _ h, rd_putFlag_ne _ _ _ h]

theorem startLower_out (d : Dev) (target : Nat) : (d.startLower target).out = d.out := by simp [Dev.startLower]

theorem SwitchCancelled.startLower (h : SwitchCancelled d e outcome) (target : Nat) : SwitchCancelled d (e.startLower target) outcome where
  state := (rd_startLower e target (by decide)).trans h.state
  outcome := (rd_startLower e target (by decide)).trans h.outcome
  sched := h.sched
  bankA := h.bankA
  bankB := h.bankB

/-- The device once its switch-in is cancelled and the mate of a joint one told, before a raised core goes back (R374). -/
def unscheduled (d : Dev) (x : Sched) (outcome : Nat) : Dev :=
  (d.unschedule outcome).when (x.joint.isSome && outcome != 5) (fun y => y.sendMate .commitCancel)

/-- A cancelled switch-in is unscheduled, and its core may go back to a lower point. -/
theorem cancelSched_cases {x : Sched} (h : d.prov.sched = some x) (outcome : Nat) :
    d.cancelSched outcome = unscheduled d x outcome ∨ ∃ home, d.cancelSched outcome = (unscheduled d x outcome).startLower home := by
  unfold Dev.cancelSched
  rw [h]
  dsimp only
  split
  · exact .inl rfl
  · split
    · exact .inr ⟨_, rfl⟩
    · exact .inl rfl

theorem cancelSched_cancelled {x : Sched} (h : d.prov.sched = some x) (hout : outcome < 2 ^ 64) :
    SwitchCancelled d (d.cancelSched outcome) outcome := by
  have hun : SwitchCancelled d (unscheduled d x outcome) outcome := by
    unfold unscheduled Dev.when
    split
    · exact (unschedule_cancelled d hout).sendMate _
    · exact unschedule_cancelled d hout
  rcases cancelSched_cases h outcome with he | ⟨home, he⟩ <;> rw [he]
  · exact hun
  · exact hun.startLower home

/-- The mate hears of a joint switch-in that is cancelled for another cause than a pair event (log entry 126). -/
theorem commitCancel_mem_cancelSched {x : Sched} (h : d.prov.sched = some x) (hjoint : x.joint.isSome = true) (hout : outcome ≠ 5) :
    MateMsg.commitCancel ∈ (d.cancelSched outcome).out.mate := by
  have hun : MateMsg.commitCancel ∈ (unscheduled d x outcome).out.mate := by
    simp [unscheduled, Dev.when, hjoint, hout, Dev.sendMate]
  rcases cancelSched_cases h outcome with he | ⟨home, he⟩ <;> rw [he]
  · exact hun
  · rwa [startLower_out]

end

/-! ## The triggers of 2601 (R85, R86, R88, R93) -/

section
variable {d : Dev} {m : Master}

/-- A trigger that nothing holds back fires at a written 1. -/
theorem heldTrigger_one {sub : Nat} (f : Dev → Dev × Nat) (h : d.triggerHeld sub = false) : heldTrigger m sub 1 f d = f d := by
  simp [heldTrigger, trigger, h]

theorem commitFire_refused (h : d.editRefused = true ∨ d.joinRuns = true) : commitFire m d = (d, abRefused) := by
  rcases h with h | h <;> simp [commitFire, h]

theorem commitFire_admits {joint : Bool} (hedit : d.editRefused = false) (hjoin : d.joinRuns = false)
    (hjoint : (d.inService && d.paired && d.shadowReady) = joint) : commitFire m d =
      ((d.admitting (d.snapNow (d.privilege m != 0) joint)).when joint (fun x => x.sendMate (.commitBank d.pendingBank)), 0) := by
  simp only [commitFire, hedit, hjoin, hjoint]
  rfl

theorem pendingResetFire_refused (h : d.editRefused = true) : pendingResetFire d = (d, abRefused) := by
  simp [pendingResetFire, h]

theorem pendingResetFire_copies (h : d.editRefused = false) :
    pendingResetFire d = ((d.wr O.PENDING_STATE 1).wr O.PENDING_RESET 1, 0) := by
  simp [pendingResetFire, h]

theorem cancelFire_refused (h : d.prov.sched = none) : cancelFire d = (d, abRefused) := by
  simp only [cancelFire, h]

/-- Before the point of R92 a scheduled switch-in is cancelled with outcome 2. -/
theorem cancelFire_cancels {x : Sched} (h : d.prov.sched = some x) (hearly : x.committed = false) : cancelFire d = (d.cancelSched 2, 0) := by
  simp only [cancelFire, h, hearly]
  rfl

/-- CANCEL_SWITCH is held while the pending bank is COPYING alone (R86). -/
theorem triggerHeld_cancelSwitch (h : d.rd O.PENDING_STATE ≠ 1) : d.triggerHeld 3 = false := by
  simp [Dev.triggerHeld, h]

end

/-- Settles O24: a trigger that nothing holds back fires; the state of the pending bank decides whether it is refused. -/
theorem bankTriggers : Obligations.BankTriggers := by
  unfold Obligations.BankTriggers
  intro s m hr
  dsimp only
  have hundoc := disarmed_undoc hr
  have hcommit : exec (.commit m 1) s = hostNum s m O.COMMIT 1 (heldTrigger m 1 1 (commitFire m)) := rfl
  have hreset : exec (.pendingReset m 1) s = hostNum s m O.PENDING_RESET 1 (heldTrigger m 8 1 pendingResetFire) := rfl
  have hcancel : exec (.cancelSwitch m 1) s = hostNum s m O.CANCEL_SWITCH 1 (heldTrigger m 3 1 cancelFire) := rfl
  refine ⟨?alone, ?joint, ?commitRefused, ?copies, ?resetRefused, ?cancels, ?cancelRefused⟩
  case alone | joint =>
    intro hheld hedit hjoin hjoint
    rw [hjoint]
    exact leaves_of_hostNum hcommit hr ((heldTrigger_one _ hheld).trans (commitFire_admits hedit hjoin hjoint)) hundoc
  case commitRefused =>
    intro hheld hrefused
    exact leaves_of_hostNum hcommit hr ((heldTrigger_one _ hheld).trans (commitFire_refused hrefused)) hundoc
  case copies =>
    intro hheld hedit
    exact leaves_of_hostNum hreset hr ((heldTrigger_one _ hheld).trans (pendingResetFire_copies hedit)) hundoc
  case resetRefused =>
    intro hheld hrefused
    exact leaves_of_hostNum hreset hr ((heldTrigger_one _ hheld).trans (pendingResetFire_refused hrefused)) hundoc
  case cancels =>
    intro x hsched hearly hstate
    have hfires := (heldTrigger_one (m := m) cancelFire (triggerHeld_cancelSwitch hstate)).trans (cancelFire_cancels hsched hearly)
    have hend := cancelSched_cancelled hsched (outcome := 2) (by decide)
    exact ⟨_, leaves_of_hostNum hcancel hr hfires (by simpa using hundoc), hend.state, hend.outcome, hend.sched, hend.bankA, hend.bankB,
      fun hjoint => commitCancel_mem_cancelSched hsched hjoint (by decide)⟩
  case cancelRefused =>
    intro hstate hsched
    exact leaves_of_hostNum hcancel hr ((heldTrigger_one _ (triggerHeld_cancelSwitch hstate)).trans (cancelFire_refused hsched)) hundoc

/-! ## The copy back (R85) -/

/-- What the copy leaves in the pending bank: the active one but for its header's times and BASE_NUMBER. -/
def copyOf (b : Bank) : Bank := { b with acceptTime := 0, switchAt := 0, switchTime := 0, baseNumber := b.genNumber }

section
variable {d : Dev}

theorem bankCopied_idle (h : d.rd O.PENDING_STATE ≠ 1) : bankCopied d = d := by
  simp [bankCopied, h]

/-- The device at the end of a copy, before the cells that a debugger left in the banks follow. -/
def copyEnded (d : Dev) : Dev := ((d.onPending (fun _ => copyOf d.active)).wr O.PENDING_STATE 0).wr O.PENDING_RESET 0

theorem bankCopied_copying (h : d.rd O.PENDING_STATE = 1) :
    bankCopied d = { copyEnded d with mem := copyCells d.mem (bankBase d.activeB) (bankBase (!d.activeB)) } := by
  simp only [bankCopied, h]
  rfl

theorem copyEnded_state (d : Dev) : (copyEnded d).rd O.PENDING_STATE = 0 := by
  rw [copyEnded, rd_wr_ne _ _ (by decide), rd_wr_same, Nat.zero_mod]

theorem copyEnded_reset (d : Dev) : (copyEnded d).rd O.PENDING_RESET = 0 := by rw [copyEnded, rd_wr_same, Nat.zero_mod]

theorem copyEnded_active (d : Dev) : (copyEnded d).active = d.active := by
  rw [copyEnded, active_wr _ _ (by decide), active_wr _ _ (by decide), onPending_active]

theorem copyEnded_pendingBank (d : Dev) : (copyEnded d).pendingBank = copyOf d.active := by
  rw [copyEnded, pendingBank_wr _ _ (by decide), pendingBank_wr _ _ (by decide), onPending_pendingBank]

theorem drainQueue_of_empty {m : Master} (h : (d.master m).queue = []) (n : Nat) : drainQueue m n d = d := by
  cases n with
  | zero => rfl
  | succ n => simp only [drainQueue, Dev.nextReq, h, List.find?_nil]

theorem drain_of_empty (h : ∀ m : Master, (d.master m).queue = []) : d.drain = d := by
  rw [Dev.drain, drainQueue_of_empty (h .spi), drainQueue_of_empty (h .can), drainQueue_of_empty (h .mgmt)]

end

/-- With no request waiting, the end of the copy is the whole effect. -/
theorem leaves_bankCopyEnd {s : State} (hdoc : s.dev.undoc = false) (hspi : s.dev.spi.queue = []) (hcan : s.dev.canM.queue = [])
    (hmgmt : s.dev.mgmt.queue = []) : leaves .bankCopyEnd s (bankCopied s.dev) := by
  have hqueues : (bankCopied s.dev).queues = ([], [], []) := by rw [bankCopied_queues, Dev.queues, hspi, hcan, hmgmt]
  simp only [Dev.queues, Prod.mk.injEq] at hqueues
  obtain ⟨hspi', hcan', hmgmt'⟩ := hqueues
  have hdrain : (bankCopied s.dev).drain = bankCopied s.dev := drain_of_empty fun m => by cases m <;> assumption
  have hdoc' : (bankCopied s.dev).undoc = false := by simpa using hdoc
  show execBankCopyEnd s = _
  rw [execBankCopyEnd, hdrain, hdoc']
  rfl

/-! ## The bank of a joint commit (R96) -/

section
variable {d : Dev}

theorem rd_channelUsed (n : Nat) {k : Key} (h : keyAt O.RUNNING n ≠ k) : (d.channelUsed n).rd k = d.rd k := by
  rw [Dev.channelUsed, rd_of_regs (fresh_regs _), rd_wr_ne _ _ h]

theorem mateVerify_regs (d : Dev) (beats : Nat) : (d.mateVerify beats).regs = d.regs := rfl

/-- The check of a received bank leaves the roles of the banks and the state of the pending one. -/
theorem rd_bankChecked {k : Key} (h : keyAt O.RUNNING 1 ≠ k) : ((d.channelUsed 1).mateVerify 32768).rd k = d.rd k :=
  (rd_of_regs (mateVerify_regs _ _) k).trans (rd_channelUsed 1 h)

/-- The device that has checked a bank and keeps its own pending one, for the case that admission refuses the other (R89). -/
def bankKept (d : Dev) : Dev := ((d.channelUsed 1).mateVerify 32768).onProv (fun p => { p with mateOld := some d.pendingBank })

/-- The device that has taken the other bank, before its admission starts. -/
def bankTaken (d : Dev) (b : Bank) : Dev := (bankKept d).edit (fun _ => b)

theorem bankTaken_active (b : Bank) : (bankTaken d b).active = d.active :=
  (edit_active _ _).trans (active_congr (rd_bankChecked (by decide)) rfl rfl)

theorem bankTaken_pendingBank (b : Bank) : (bankTaken d b).pendingBank = b := edit_pendingBank _ _

theorem bankTaken_mateOld (b : Bank) : (bankTaken d b).prov.mateOld = some d.pendingBank :=
  congrArg Prov.mateOld (edit_prov _ _)

theorem rd_admitting (x : AdmSnap) {k : Key} (hstate : O.PENDING_STATE ≠ k) (hcommit : O.COMMIT ≠ k) : (d.admitting x).rd k = d.rd k := by
  rw [Dev.admitting, rd_of_regs (onProv_regs _ _), rd_wr_ne _ _ hcommit, rd_wr_ne _ _ hstate]

theorem admitting_active (x : AdmSnap) : (d.admitting x).active = d.active :=
  active_congr (rd_admitting x (by decide) (by decide)) rfl rfl

theorem admitting_pendingBank (x : AdmSnap) : (d.admitting x).pendingBank = d.pendingBank :=
  pendingBank_congr (rd_admitting x (by decide) (by decide)) rfl rfl

theorem admitting_state (x : AdmSnap) : (d.admitting x).rd O.PENDING_STATE = 2 := by
  rw [Dev.admitting, rd_of_regs (onProv_regs _ _), rd_wr_ne _ _ (by decide), rd_wr_same]
  rfl

theorem admitting_commit (x : AdmSnap) : (d.admitting x).rd O.COMMIT = 1 := by
  rw [Dev.admitting, rd_of_regs (onProv_regs _ _), rd_wr_same]
  rfl

theorem commitBank_ignored (b : Bank) (ok : Bool) (h : d.inShadow = false ∨ d.rd O.PENDING_STATE ≠ 0) : commitBank d b ok = d := by
  rcases h with h | h <;> simp [commitBank, h]

variable (hshadow : d.inShadow = true) (hpaired : d.paired = true) (hlink : d.linkUp = true) (hstate : d.rd O.PENDING_STATE = 0)
include hshadow hpaired hlink hstate

theorem commitBank_bad (b : Bank) : commitBank d b false = (d.channelUsed 1).mateVerify 32768 := by
  simp [commitBank, hshadow, hpaired, hlink, hstate]

/-- A Shadow admits the bank under its own conditions, as one of a joint commit. -/
theorem commitBank_good (b : Bank) : commitBank d b true = (bankTaken d b).admitting ((bankKept d).snapNow true true) := by
  simp only [commitBank, hshadow, hpaired, hlink, hstate]
  rfl

end

theorem commitIn_cancel {d : Dev} {x : Sched} (hpaired : d.paired = true) (hlink : d.linkUp = true) (hsched : d.prov.sched = some x)
    (hearly : x.committed = false) : commitIn d .cancel = d.cancelSched 5 := by
  simp [commitIn, Dev.cancelEarly, hpaired, hlink, hsched, hearly]

/-- Settles O26: the end of a copy, then the two messages of a joint commit, each by what its effect leaves. -/
theorem copiesOfBanks : Obligations.CopiesOfBanks := by
  unfold Obligations.CopiesOfBanks
  constructor
  · intro s hdoc hspi hcan hmgmt
    have hleaves := leaves_bankCopyEnd hdoc hspi hcan hmgmt
    constructor
    · intro hstate
      rw [bankCopied_copying hstate] at hleaves
      exact ⟨_, hleaves, copyEnded_active _, copyEnded_state _, copyEnded_reset _, copyEnded_pendingBank _⟩
    · intro hstate
      rwa [bankCopied_idle hstate] at hleaves
  · intro s b
    refine ⟨?_, ?_, ?_⟩
    · intro hshadow hpaired hlink hstate
      constructor
      · exact leaves_of_done rfl (commitBank_bad hshadow hpaired hlink hstate b)
      · exact ⟨_, leaves_of_done rfl (commitBank_good hshadow hpaired hlink hstate b),
          (admitting_pendingBank _).trans (bankTaken_pendingBank b), (admitting_active _).trans (bankTaken_active b),
          bankTaken_mateOld b, admitting_state _, admitting_commit _, _, rfl, rfl⟩
    · intro hignored ok
      exact leaves_of_done rfl (commitBank_ignored b ok hignored)
    · intro x hpaired hlink hsched hearly
      have hend := cancelSched_cancelled hsched (outcome := 5) (by decide)
      exact ⟨_, leaves_of_done rfl (commitIn_cancel hpaired hlink hsched hearly), hend.sched, hend.state, hend.outcome, hend.bankA, hend.bankB⟩

/-! ## The swap (R90 to R92) -/

section
variable {d : Dev} {x : Sched} (hsched : d.prov.sched = some x)
include hsched

theorem switchedIn_swaps (hclamp : d.clamped = false) (hpast : x.committed = true) : switchedIn d = d.swap x := by
  simp [switchedIn, hsched, hclamp, hpast]

/-- Clamp holds the switch-in off, and before the point of R92 there is none (log entries 66 and 125). -/
theorem switchedIn_waits (h : d.clamped = true ∨ x.committed = false) : switchedIn d = d := by
  rcases h with h | h <;> simp [switchedIn, hsched, h]

end

/-- Settles O27: the chosen boundary swaps the banks or leaves the device, by Clamp and by the point of R92. -/
theorem switchInSwaps : Obligations.SwitchInSwaps := by
  unfold Obligations.SwitchInSwaps
  intro s x hsched
  dsimp only
  refine ⟨fun hclamp hpast => ?_, fun hclamp => ?_, fun hearly => ?_⟩
  · exact leaves_of_done rfl (switchedIn_swaps hsched hclamp hpast)
  · exact leaves_of_done rfl (switchedIn_waits hsched (.inl hclamp))
  · exact leaves_of_done rfl (switchedIn_waits hsched (.inr hearly))

end Sys2Proof.Proofs
end

section
/-!
PROOFS. Line receivers (R120 to R122, R124, R139): what the gain and the loss of CDR lock, and the start and the end of LOS, leave of a
lane that is powered and of one that is not.
-/
namespace Sys2Proof.Proofs
open Sys2Proof Sys2Proof.Machine

/-! ## CDR lock (R124) -/

section
variable {d : Dev} {l : Nat}

theorem cdrLocked_gained (hpower : d.rxPowered l = true) (h : d.flag (keyAt O.LANE_STATUS l) 3 = false) :
    cdrLocked d l = (d.putFlag (keyAt O.LANE_STATUS l) 3 true).spoilGate l := by
  simp [cdrLocked, Dev.when, hpower, h]

theorem cdrLocked_held (hpower : d.rxPowered l = true) (h : d.flag (keyAt O.LANE_STATUS l) 3 = true) :
    cdrLocked d l = d.putFlag (keyAt O.LANE_STATUS l) 3 true := by
  simp [cdrLocked, Dev.when, hpower, h]

theorem cdrUnlocked_lost (h : d.flag (keyAt O.LANE_STATUS l) 3 = true) :
    cdrUnlocked d l = ((d.putFlag (keyAt O.LANE_STATUS l) 3 false).set1 (keyAt O.LANE_STATUS l) 9).spoilGate l := if_pos h

theorem cdrUnlocked_unlocked (h : d.flag (keyAt O.LANE_STATUS l) 3 = false) : cdrUnlocked d l = d := by
  simp [cdrUnlocked, h]

/-! ## Loss of signal (R120 to R122, R139) -/

variable {amp tr : Bool}

theorem losDeclared_unpowered (hpower : d.rxPowered l = false) : losDeclared d l amp tr = d := by
  simp [losDeclared, hpower]

theorem losCleared_unpowered (hpower : d.rxPowered l = false) : losCleared d l amp tr = d := by
  simp [losCleared, hpower]

variable (hpower : d.rxPowered l = true)
include hpower

theorem losDeclared_new (hcauses : d.losCauses l amp tr ≠ 0) (hlos : d.flag (keyAt O.LANE_STATUS l) 0 = false) :
    losDeclared d l amp tr = (((((d.losSeen l amp tr).putFlag (keyAt O.LANE_STATUS l) 0 true).set1
      (keyAt O.LANE_STATUS l) 8).spoilGate l).losForcesOof l).wake := by
  simp [losDeclared, hpower, hcauses, hlos]

theorem losDeclared_seen (h : d.losCauses l amp tr = 0 ∨ d.flag (keyAt O.LANE_STATUS l) 0 = true) :
    losDeclared d l amp tr = d.losSeen l amp tr := by
  rcases h with h | h <;> simp [losDeclared, hpower, h]

theorem losCleared_ended (hcauses : d.losCauses l amp tr = 0) (hlos : d.flag (keyAt O.LANE_STATUS l) 0 = true) :
    losCleared d l amp tr = (((d.losSeen l amp tr).putFlag (keyAt O.LANE_STATUS l) 0 false).spoilGate l).wake := by
  simp [losCleared, hpower, hcauses, hlos]

theorem losCleared_seen (h : d.losCauses l amp tr ≠ 0 ∨ d.flag (keyAt O.LANE_STATUS l) 0 = false) :
    losCleared d l amp tr = d.losSeen l amp tr := by
  rcases h with h | h <;> simp [losCleared, hpower, h]

end

/-- Settles O30: each command by the receiver's power, its lock and the causes that count. -/
theorem lineReceivers : Obligations.LineReceivers := by
  unfold Obligations.LineReceivers
  intro s l
  dsimp only
  refine ⟨fun hpower => ⟨?gain, ?hold⟩, ?loss, ?unlocked,
    fun amp tr => ⟨fun hpower => ⟨?declare, ?seen, ?clear, ?remain⟩, ?unpowered⟩, rfl⟩
  case gain => exact fun h => leaves_of_done rfl (cdrLocked_gained hpower h)
  case hold => exact fun h => leaves_of_done rfl (cdrLocked_held hpower h)
  case loss => exact fun h => leaves_of_done rfl (cdrUnlocked_lost h)
  case unlocked => exact fun h => leaves_of_done rfl (cdrUnlocked_unlocked h)
  case declare => exact fun hcauses hlos => leaves_of_done rfl (losDeclared_new hpower hcauses hlos)
  case seen => exact fun h => leaves_of_done rfl (losDeclared_seen hpower h)
  case clear => exact fun hcauses hlos => leaves_of_done rfl (losCleared_ended hpower hcauses hlos)
  case remain => exact fun h => leaves_of_done rfl (losCleared_seen hpower h)
  case unpowered => exact fun hpower => ⟨leaves_of_done rfl (losDeclared_unpowered hpower), leaves_of_done rfl (losCleared_unpowered hpower)⟩

end Sys2Proof.Proofs
end

section
/-!
PROOFS. Quads and lanes (R45, R59, R109 to R118, R123 to R127): PLL lock, loss of lane alignment, frequency gates, adapted equaliser
values, and host writes to the block of a quad.
-/
namespace Sys2Proof.Proofs
open Sys2Proof Sys2Proof.Machine

/-! ## Quad PLLs (R112 to R114) -/

/-- A quad whose PLL has just locked, before the report (R113, R117). -/
def pllLocked (d : Dev) (q : Nat) : Dev :=
  (d.putFlag (quadKey q) 3 true).onLine (fun x => { x with
    settle := if d.line.anew.contains q then addOnce x.settle q else x.settle
    anew := x.anew.filter (· != q), lost := x.lost.filter (· != q) })

section
variable {d : Dev} {q : Nat}

section
variable (hmode : d.quadMode q ≠ 0) (href : d.lineRef ≠ 3)
include hmode href

theorem quadLocked_eq (hlock : d.flag (quadKey q) 3 = false) :
    quadLocked d q = if d.line.lost.contains q then (pllLocked d q).quadEvent q 2 else pllLocked d q := by
  simp only [quadLocked, hlock, beq_iff_eq, hmode, href, Bool.or_false, Bool.or_eq_true, or_self, if_false]
  rfl

theorem quadLost_reported (hlock : d.flag (quadKey q) 3 = true) : quadLost d q =
    ((d.putFlag (quadKey q) 3 false).onLine (fun x => { x with lost := addOnce x.lost q })).quadEvent q 1 := by
  simp [quadLost, hlock, hmode, href]

end

theorem quadLost_unselected (hlock : d.flag (quadKey q) 3 = true) (href : d.lineRef = 3) :
    quadLost d q = d.putFlag (quadKey q) 3 false := by
  simp [quadLost, hlock, href]

end

theorem leaves_quadPllLock {s : State} {q : Fin 16} (hmode : s.dev.quadMode q.val ≠ 0) (href : s.dev.lineRef ≠ 3)
    (hlock : s.dev.flag (quadKey q.val) 3 = false) :
    (s.dev.line.lost.contains q.val = false → leaves (.quadPllLock q) s (pllLocked s.dev q.val)) ∧
    (s.dev.line.lost.contains q.val = true → leaves (.quadPllLock q) s ((pllLocked s.dev q.val).quadEvent q.val 2)) := by
  have hlocked := quadLocked_eq hmode href hlock
  constructor
  · intro hlost
    exact leaves_of_done rfl (hlocked.trans (if_neg (ne_true_of_eq_false hlost)))
  · intro hlost
    exact leaves_of_done rfl (hlocked.trans (if_pos hlost))

/-! ## Loss of alignment of a bonded port (R109, R110) -/

/-- LOL as each lane of a bonded port shows it. -/
def lolShown (d : Dev) (q : Nat) (b : Bool) : Dev :=
  [4 * q, 4 * q + 1, 4 * q + 2, 4 * q + 3].foldl (fun x l => x.putFlag (keyAt O.OTL_STATUS l) 15 b) d

theorem portLanes_of_bonded {b : Bank} {q : Nat} (h : bonded b q = true) :
    portLanes b (4 * q) = [4 * q, 4 * q + 1, 4 * q + 2, 4 * q + 3] := by
  simp [portLanes, h]

section
variable {d : Dev} {q : Nat} (htraffic : d.traffic = true) (hgate : d.quadGate q = true) (hbonded : bonded d.active q = true)
include htraffic hgate hbonded

theorem lolDeclared_eq : lolDeclared d q = if 3 ≤ (smLook (0, 0) d.line.lol q).1 then lolShown d q true else d := by
  simp [lolDeclared, htraffic, hgate, hbonded, portLanes_of_bonded, lolShown]

theorem lolCleared_eq : lolCleared d q = if 3 ≤ (smLook (0, 0) d.line.lol q).2 then lolShown d q false else d := by
  simp [lolCleared, htraffic, hgate, hbonded, portLanes_of_bonded, lolShown]

end

/-! ## Frequency gates (R123, R124) -/

theorem laneRate_stm {t : Nat} (hlo : 1 ≤ t) (hhi : t ≤ 4) : laneRate t = (155520000 * stmN t, 1) := by
  have hotu2 : t ≠ 5 := by omega
  have hotu3 : t ≠ 6 := by omega
  simp [laneRate, hotu2, hotu3]

theorem stmN_pos {t : Nat} (hlo : 1 ≤ t) (hhi : t ≤ 4) : 0 < stmN t := by
  interval_cases t <;> decide

/-- A lane with a reading after a gate, spoiled for the next where it is bad. -/
def gateEnded (d : Dev) (l v : Nat) : Dev :=
  (d.wr (keyAt O.FREQ_OFFSET l) v).onLine (fun x =>
    { x with spoiled := if d.gateBad l then addOnce x.spoiled l else x.spoiled.filter (· != l) })

section
variable {d : Dev} {l : Nat} (count : Nat)

/-- A gate without a bad moment reads the offset from the nominal count of the lane's rate. -/
theorem freqGateEnd_reads {num den : Nat} (hrate : laneRate (laneType d.active l) = (num, den)) (hnum : num ≠ 0)
    (hgood : d.gateBad l = false) (hclean : d.line.spoiled.contains l = false) : freqGateEnd d l count true =
      gateEnded d l (ppmOffset count (num * 10 ^ d.fld (keyAt O.FREQ_CTRL l) 0 2) den) := by
  have hok : (true && num != 0 && !d.gateBad l && !d.line.spoiled.contains l) = true := by
    rw [hgood, hclean]
    simpa using hnum
  simp only [freqGateEnd, hrate, hok, if_true, gateEnded]

theorem freqGateEnd_none {valid : Bool} (h : valid = false ∨ d.gateBad l = true ∨ d.line.spoiled.contains l = true) :
    freqGateEnd d l count valid = gateEnded d l noReading := by
  have hbad : (valid && (laneRate (laneType d.active l)).1 != 0 && !d.gateBad l && !d.line.spoiled.contains l) = false := by
    rcases h with h | h | h <;> simp only [h] <;> simp
  simp only [freqGateEnd, hbad, gateEnded]
  rfl

end

/-! ## Adapted equaliser values (R45, R126) -/

section
variable {d : Dev} {l : RxLane}

theorem rxAdapted_writes (v : Nat) (hrun : (rxEqOf d l).2.2 = true) (hmode : d.fld (rxEqOf d l).1 26 2 = 0) :
    rxAdapted d l v = d.putFld (rxEqOf d l).1 1 25 v := by
  simp [rxAdapted, Dev.putFld, hrun, hmode]

theorem rxAdapted_rests (v : Nat) (h : (rxEqOf d l).2.2 = false ∨ d.fld (rxEqOf d l).1 26 2 ≠ 0) : rxAdapted d l v = d := by
  rcases h with h | h <;> simp [rxAdapted, h]

/-- An equaliser object after a host write `w`, its OVERTAKEN cleared by a written 1. -/
def rxWritten (d : Dev) (l : RxLane) (w : Nat) : Dev :=
  d.wr (rxEqOf d l).1 ((w &&& 0x7FFFFFFF) ||| (d.rd (rxEqOf d l).1 &&& 0x80000000 &&& (0xFFFFFFFF ^^^ w)))

section
variable {w : Nat} (v : Nat) (hgate : (rxEqOf d l).2.1 = true) (hrange : bits w 26 2 ≠ 3)
  (hrsvd : (d.rd (rxEqOf d l).1 ^^^ w) &&& 0x70000001 = 0)
include hgate hrange hrsvd

theorem rxCollide_eq : rxCollide l v w d =
    (if (rxEqOf d l).2.2 && d.fld (rxEqOf d l).1 26 2 == 0 then
      ((rxWritten d l w).putFld (rxEqOf d l).1 1 25 v).putFlag (rxEqOf d l).1 31 true else rxWritten d l w, 0) := by
  simp only [rxCollide, hgate, hrsvd, beq_iff_eq, hrange, bne_self_eq_false, Bool.or_false, Bool.not_true, Bool.false_eq_true, if_false]
  rfl

theorem rxCollide_updates (hrun : (rxEqOf d l).2.2 = true) (hmode : d.fld (rxEqOf d l).1 26 2 = 0) :
    rxCollide l v w d = (((rxWritten d l w).putFld (rxEqOf d l).1 1 25 v).putFlag (rxEqOf d l).1 31 true, 0) := by
  rw [rxCollide_eq v hgate hrange hrsvd]
  simp [hrun, hmode]

theorem rxCollide_rests (h : (rxEqOf d l).2.2 = false ∨ d.fld (rxEqOf d l).1 26 2 ≠ 0) :
    rxCollide l v w d = (rxWritten d l w, 0) := by
  rw [rxCollide_eq v hgate hrange hrsvd]
  rcases h with h | h <;> simp [h]

end

end

theorem plainWrite_of_reachable {s : State} {m : Master} (hr : reachable s m) (f : Dev → Dev × Nat) :
    s.dev.plainWrite m f = f (disarmed s m) := by
  obtain ⟨⟨hboot, -⟩, -⟩ := hr
  simp [Dev.plainWrite, hboot, disarmed]

/-- In its master's turn a host write that meets an update takes effect with it. -/
theorem accepts_rxAdaptation {s : State} {m : Master} {l : RxLane} {v : BitVec 25} {w : BitVec 32} {d : Dev} (hr : reachable s m)
    (heffect : rxCollide l v.toNat w.toNat (disarmed s m) = (d, 0)) (hd : d.undoc = false) :
    accepts (.rxAdaptation l v (some (m, w))) s m d := by
  have hturn : (s.dev.turnOf m && !s.dev.inBoot) = true := by
    obtain ⟨⟨hboot, -⟩, hturn⟩ := hr
    simp [hboot, hturn]
  exact leaves_of_hostTurn (if_pos hturn) hr ((plainWrite_of_reachable hr _).trans heffect) hd

/-! ## Host writes to the block of a quad (R59, R118, R127) -/

section
variable {s : State} {m : Master} {l : Nat} (hr : reachable s m) (f : Dev → Dev × Nat)
include hr

theorem quadWrite_clocked (hgate : (disarmed s m).quadGate (l / 4) = true) : s.dev.quadWrite m l f = f (disarmed s m) := by
  rw [Dev.quadWrite, plainWrite_of_reachable hr, if_pos hgate]

theorem quadWrite_gated (hgate : (disarmed s m).quadGate (l / 4) = false) : s.dev.quadWrite m l f = (disarmed s m, 0) := by
  rw [Dev.quadWrite, plainWrite_of_reachable hr, hgate]
  rfl

end

theorem squelchWrite_writes {v : Nat} (p : Nat) (d : Dev) (h : v ≤ 1) : squelchWrite p v d = (d.wr (keyAt O.TX_SQUELCH p) v, 0) :=
  if_neg (Nat.not_lt_of_le h)

theorem squelchWrite_range {v : Nat} (p : Nat) (d : Dev) (h : 1 < v) : squelchWrite p v d = (d, abRange) := if_pos h

/-- PRBS_CTRL after a write of checker `c` and generator `g`: one that goes on unchanged keeps its lock and its place. -/
def prbsWritten (d : Dev) (l c g : Nat) : Dev :=
  (d.wr (keyAt O.PRBS_CTRL l) (c + 4 * g + (if c = bits (d.rd (keyAt O.PRBS_CTRL l)) 0 2 ∧ c ≠ 0 then
    d.rd (keyAt O.PRBS_CTRL l) &&& 0x10 else 0))).onLine (fun x => { x with
      check := if c = bits (d.rd (keyAt O.PRBS_CTRL l)) 0 2 ∧ c ≠ 0 then x.check else smDrop x.check l
      gen := if g = bits (d.rd (keyAt O.PRBS_CTRL l)) 2 2 ∧ g ≠ 0 then x.gen else smDrop x.gen l })

section
variable {c g : Nat} (hc : c ≤ 2)
include hc

theorem bits_checker : bits (c + 4 * g) 0 2 = c := by
  simp only [bits]
  omega

variable (hg : g ≤ 2)
include hg

theorem bits_generator : bits (c + 4 * g) 2 2 = g := by
  simp only [bits]
  omega

theorem toNat_prbsModes : (BitVec.ofNat 8 (c + 4 * g)).toNat = c + 4 * g := by
  rw [BitVec.toNat_ofNat, Nat.mod_eq_of_lt (by omega)]

theorem and_of_modes : (c + 4 * g) &&& 0xF = c + 4 * g :=
  (Nat.and_two_pow_sub_one_eq_mod _ 4).trans (Nat.mod_eq_of_lt (by omega))

variable {d : Dev} {l : Nat}

theorem prbsWrite_writes (hcheck : c = 0 ∨ laneOn d.active l = false) (hgen : g = 0 ∨ d.inBisque = true) :
    prbsWrite l (c + 4 * g) d = (prbsWritten d l c g, 0) := by
  have hc3 : c ≠ 3 := by omega
  have hg3 : g ≠ 3 := by omega
  have hcheck' : (c != 0 && laneOn d.active l) = false := by simpa [or_iff_not_imp_left] using hcheck
  have hgen' : (g != 0 && !d.inBisque) = false := by simpa [or_iff_not_imp_left] using hgen
  simp [prbsWrite, prbsWritten, bits_checker hc, bits_generator hc hg, and_of_modes hc hg, hc3, hg3, hcheck', hgen']

theorem prbsWrite_refused (h : (c ≠ 0 ∧ laneOn d.active l = true) ∨ (g ≠ 0 ∧ d.inBisque = false)) :
    prbsWrite l (c + 4 * g) d = (d, abRefused) := by
  have hc3 : c ≠ 3 := by omega
  have hg3 : g ≠ 3 := by omega
  have hrefused : (c != 0 && laneOn d.active l || g != 0 && !d.inBisque) = true := by simpa using h
  simp [prbsWrite, bits_checker hc, bits_generator hc hg, hc3, hg3, hrefused]

end

section
variable {s : State} {m : Master} {p : Fin 64} (hr : reachable s m) (hgate : (disarmed s m).quadGate (p.val / 4) = true)
include hr hgate

theorem leaves_txSquelch {v : BitVec 8} {d : Dev} {code : Nat} (heffect : squelchWrite p.val v.toNat (disarmed s m) = (d, code))
    (hd : d.undoc = false) : leaves (.txSquelch m p v) s (answered d m code []) :=
  leaves_of_hostTurn rfl hr ((quadWrite_clocked hr _ hgate).trans heffect) hd

theorem leaves_prbsCtrl {c g : Nat} {d : Dev} {code : Nat} (hc : c ≤ 2) (hg : g ≤ 2)
    (heffect : prbsWrite p.val (c + 4 * g) (disarmed s m) = (d, code)) (hd : d.undoc = false) :
    leaves (.prbsCtrl m p (BitVec.ofNat 8 (c + 4 * g))) s (answered d m code []) := by
  refine leaves_of_hostTurn rfl hr ((quadWrite_clocked hr _ hgate).trans ?_) hd
  rwa [toNat_prbsModes hc hg]

end

/-! ## The statement -/

/-- Settles O31: a quad's lock and alignment, a lane's gate and its adapted values by their conditions, then the host writes in their
master's turn. -/
theorem quadsAndLanes : Obligations.QuadsAndLanes := by
  unfold Obligations.QuadsAndLanes
  dsimp only
  refine ⟨fun s => ⟨fun q => ⟨?lock, ?lockLoss, ?unselected, ?alignment⟩, fun l count => ⟨fun hgood hclean => ?reading, ?none⟩⟩,
    fun s => ⟨fun l v => ⟨?adapts, ?rests⟩, fun l v m w hr hgate hrange hrsvd => ?collides, fun m p hr hgate => ?clocked,
      fun m p v hr hgate => ⟨?squelchGated, ?prbsGated⟩⟩⟩
  case lock => exact fun hmode href hlock => leaves_quadPllLock hmode href hlock
  case lockLoss => exact fun hlock hmode href => leaves_of_done rfl (quadLost_reported hmode href hlock)
  case unselected => exact fun hlock href => leaves_of_done rfl (quadLost_unselected hlock href)
  case alignment =>
    intro htraffic hclock hbonded
    have hdeclared := lolDeclared_eq htraffic hclock hbonded
    have hcleared := lolCleared_eq htraffic hclock hbonded
    exact ⟨fun h => leaves_of_done rfl (hdeclared.trans (if_pos h)),
      fun h => leaves_of_done rfl (hdeclared.trans (if_neg (Nat.not_le_of_lt h))),
      fun h => leaves_of_done rfl (hcleared.trans (if_pos h)),
      fun h => leaves_of_done rfl (hcleared.trans (if_neg (Nat.not_le_of_lt h)))⟩
  case reading =>
    refine ⟨fun hlo hhi => ?_, fun hotu2 => ?_, fun hotu3 => ?_⟩
    · have hnum : 155520000 * stmN (laneType s.dev.active l.val) ≠ 0 := by
        have := stmN_pos hlo hhi
        omega
      exact leaves_of_done rfl (freqGateEnd_reads count (laneRate_stm hlo hhi) hnum hgood hclean)
    · exact leaves_of_done rfl (freqGateEnd_reads count (by rw [hotu2]; rfl) (by simp) hgood hclean)
    · exact leaves_of_done rfl (freqGateEnd_reads count (by rw [hotu3]; rfl) (by simp) hgood hclean)
  case none => exact fun valid h => leaves_of_done rfl (freqGateEnd_none count h)
  case adapts => exact fun hrun hmode => leaves_of_done rfl (rxAdapted_writes v.toNat hrun hmode)
  case rests => exact fun h => leaves_of_done rfl (rxAdapted_rests v.toNat h)
  case collides =>
    have hundoc := disarmed_undoc hr
    exact ⟨fun hrun hmode => accepts_rxAdaptation hr (rxCollide_updates v.toNat hgate hrange hrsvd hrun hmode) (by simpa using hundoc),
      fun h => accepts_rxAdaptation hr (rxCollide_rests v.toNat hgate hrange hrsvd h) hundoc⟩
  case clocked =>
    have hundoc := disarmed_undoc hr
    refine ⟨fun v hv => ?_, fun v hv => ?_, fun c g hc hg hcheck hgen => ?_, fun c hlo hc hon => ?_, fun g hlo hg hmode => ?_⟩
    · exact leaves_txSquelch hr hgate (squelchWrite_writes _ _ hv) hundoc
    · exact leaves_txSquelch hr hgate (squelchWrite_range _ _ hv) hundoc
    · exact leaves_prbsCtrl hr hgate hc hg (prbsWrite_writes hc hg hcheck hgen) hundoc
    · exact leaves_prbsCtrl (g := 0) hr hgate hc (by decide) (prbsWrite_refused hc (by decide) (.inl ⟨by omega, hon⟩)) hundoc
    · have h := leaves_prbsCtrl (c := 0) hr hgate (by decide) hg (prbsWrite_refused (by decide) hg (.inr ⟨by omega, hmode⟩)) hundoc
      rwa [Nat.zero_add] at h
  case squelchGated => exact leaves_of_hostTurn rfl hr (quadWrite_gated hr _ hgate) (disarmed_undoc hr)
  case prbsGated => exact leaves_of_hostTurn rfl hr (quadWrite_gated hr _ hgate) (disarmed_undoc hr)

end Sys2Proof.Proofs
end

section
/-!
PROOFS. Frame alignment (R129 to R143): a search decides for a phase that FRAME_PHASE cannot hold; loss of frame, and the OTN multiframe
of a port in frame.
-/
namespace Sys2Proof.Proofs
open Sys2Proof Sys2Proof.Machine

/-! ## A phase wider than its register (R134, R138)

R130 keeps a phase below its period; a state of the model need not, as a candidate's phase is any number, while a stored value has 64
bits. -/

/-- Two accounts of what a command leaves agree in every value of the dictionary. -/
theorem rd_of_leaves {c : Instr} {s : State} {d e : Dev} (hd : leaves c s d) (he : leaves c s e) (k : Key) : e.rd k = d.rd k := by
  have hnext : tpdoSweep s.dev e = tpdoSweep s.dev d := by
    rw [leaves, hd] at he
    injection he with hstate
    exact (congrArg State.dev hstate).symm
  obtain ⟨-, -, -, -, hd'⟩ := tpdoSweep_apart s.dev d
  obtain ⟨-, -, -, -, he'⟩ := tpdoSweep_apart s.dev e
  rw [← he' k, hnext, hd' k]

/-- A search that was locked at phase 0, with an eligible candidate at phase 2^64. -/
def wideSearch : Syzygy := { slots := [(1, 2 ^ 64, 8)], locked := true }

/-- An enabled STM-1 port 0 in Service, its lane with that search. -/
def wideState : State :=
  { pending := []
    dev := { (devReset.wr O.MODE_STATUS 2).wr O.BLOCK_CLOCK_STATE 0xFFFFFFF with
      bankA := bankWr (bankWr {} (keyAt O.PORT_TYPE 0) 1) (keyAt O.PORT_ENABLE 0) 1
      align := { syz := [(0, wideSearch)] } } }

theorem wideState_searches : wideState.dev.syzRuns 0 = true ∧ wideState.dev.syzLos 0 = false ∧ wideState.dev.syzPeriod 0 ≠ 0 ∧
    0 < wideState.dev.oofLimit (wideState.dev.syzPort 0) := by decide +kernel

theorem wideState_lane : lanePort wideState.dev.active 0 = 0 ∧ bonded wideState.dev.active (0 / 4) = false := by decide +kernel

theorem winner_wideSearch : winner wideSearch (wideState.dev.syzPeriod 0) (wideState.dev.ifN (wideState.dev.syzPort 0)) =
    some (1, 2 ^ 64) := by decide +kernel

/-- The window's end goes in frame at 2^64, and FRAME_PHASE reads 0. -/
theorem framePhase_windowEnd_wide : (windowEnd wideState.dev 0).rd (keyAt O.FRAME_PHASE 0) = 0 := by decide +kernel

/-- Refutes O32: the clause of a change of alignment. FRAME_PHASE takes the winner's phase modulo 2^64, which is not the phase where a state
holds a candidate at 2^64: R130 excludes such a state, the statement does not. -/
theorem not_syzygySearch : ¬ Obligations.SyzygySearch := by
  unfold Obligations.SyzygySearch
  dsimp only
  intro h
  obtain ⟨hruns, hlos, hperiod, hlimit⟩ := wideState_searches
  obtain ⟨hport, hbonded⟩ := wideState_lane
  obtain ⟨-, ⟨-, hwins⟩, -⟩ := (h wideState (.lane 0) hruns).2 hlos hperiod hlimit
  obtain ⟨-, -, hlane⟩ := hwins 1 (2 ^ 64) rfl winner_wideSearch
  obtain ⟨-, hcoa⟩ := hlane 0 rfl hport hbonded
  obtain ⟨e, hleaves, -, -, hframe⟩ := hcoa rfl (by decide)
  have hwindow : leaves (.searchWindowEnd (.lane 0)) wideState (windowEnd wideState.dev 0) := rfl
  have hzero := (rd_of_leaves hwindow hleaves (keyAt O.FRAME_PHASE 0)).trans framePhase_windowEnd_wide
  exact absurd (hframe.symm.trans hzero) (by decide)

/-! ## Loss of frame (R141) -/

theorem syzPort_client (d : Dev) (p : Nat) : d.syzPort (64 + p) = p := by
  simp [Dev.syzPort]

section
variable {d : Dev} {p : Nat}

theorem lofDeclared_below {k : Nat} (hport : d.syzPort k = p)
    (h : (smLook (0, 0) d.align.lof k).1 < d.genA (keyAt O.LOF_DECLARE p)) : lofDeclared d k = d := by
  simp [lofDeclared, hport, h]

theorem lofCleared_below {k : Nat} (hport : d.syzPort k = p)
    (h : (smLook (0, 0) d.align.lof k).2 < d.genA (keyAt O.LOF_CLEAR p)) : lofCleared d k = d := by
  simp [lofCleared, hport, h]

section
variable (hruns : d.syzRuns (64 + p) = true)
include hruns

theorem lofDeclared_client (h : d.genA (keyAt O.LOF_DECLARE p) ≤ (smLook (0, 0) d.align.lof (64 + p)).1) :
    lofDeclared d (64 + p) = d.onAlign (fun a => { a with clientLof := addOnce a.clientLof p }) := by
  simp [lofDeclared, hruns, syzPort_client, Nat.not_lt.mpr h]

theorem lofCleared_client (h : d.genA (keyAt O.LOF_CLEAR p) ≤ (smLook (0, 0) d.align.lof (64 + p)).2) :
    lofCleared d (64 + p) = d.onAlign (fun a =>
      { a with clientLof := a.clientLof.filter (· != p), lof := smDrop a.lof (64 + p) }) := by
  simp [lofCleared, hruns, syzPort_client, Nat.not_lt.mpr h]

end

section
variable (hp : p < 64) (hport : lanePort d.active p = p)
include hp hport

theorem syzPort_own : d.syzPort p = p := by
  rw [Dev.syzPort, if_pos hp, hport]

variable (hruns : d.syzRuns p = true)
include hruns

theorem lofDeclared_port (h : d.genA (keyAt O.LOF_DECLARE p) ≤ (smLook (0, 0) d.align.lof p).1) :
    lofDeclared d p = if d.flag (keyAt O.ALIGN_STATUS p) 2 then d
      else ((d.putFlag (keyAt O.ALIGN_STATUS p) 2 true).set1 (keyAt O.ALIGN_STATUS p) 8).alignEvent p 2 := by
  simp [lofDeclared, hruns, syzPort_own hp hport, Nat.not_lt.mpr h, Nat.not_le.mpr hp]

theorem lofCleared_port (h : d.genA (keyAt O.LOF_CLEAR p) ≤ (smLook (0, 0) d.align.lof p).2) :
    lofCleared d p = (d.putFlag (keyAt O.ALIGN_STATUS p) 2 false).onAlign (fun a => { a with lof := smDrop a.lof p }) := by
  simp [lofCleared, hruns, syzPort_own hp hport, Nat.not_lt.mpr h, Nat.not_le.mpr hp]

end

/-! ## The OTN multiframe (R142, R143) -/

theorem inMultiframe_rests (h : d.flag (keyAt O.ALIGN_STATUS p) 3 = false ∨ (smLook {} d.align.mf p).good < d.imN p) :
    inMultiframe d p = d := by
  rcases h with h | h <;> simp [inMultiframe, h]

theorem oomDeclared_rests (h : d.flag (keyAt O.ALIGN_STATUS p) 3 = true ∨ (smLook {} d.align.mf p).bad < d.oomM p) :
    oomDeclared d p = d := by
  rcases h with h | h <;> simp [oomDeclared, h]

theorem lomDeclared_rests (h : d.flag (keyAt O.ALIGN_STATUS p) 4 = true ∨
    (smLook (0, 0) d.align.lom p).1 < d.genA (keyAt O.LOM_DECLARE p)) : lomDeclared d p = d := by
  rcases h with h | h <;> simp [lomDeclared, h]

theorem lomCleared_below (h : (smLook (0, 0) d.align.lom p).2 < d.genA (keyAt O.LOM_CLEAR p)) : lomCleared d p = d := by
  simp [lomCleared, h]

/-- A port in multiframe: its flywheel takes the last MFAS received by the device `d`. -/
def multiframeTaken (d x : Dev) (p : Nat) : Dev :=
  (x.putFlag (keyAt O.ALIGN_STATUS p) 3 false).onAlign (fun a =>
    { a with mf := smPut {} a.mf p { smLook {} d.align.mf p with fly := d.rd (keyAt O.MFAS_LAST p), bad := 0 } })

section
variable (hruns : d.mfRuns p = true)
include hruns

theorem inMultiframe_enters (hoom : d.flag (keyAt O.ALIGN_STATUS p) 3 = true) (h : d.imN p ≤ (smLook {} d.align.mf p).good) :
    inMultiframe d p = if (smLook {} d.align.mf p).fly = d.rd (keyAt O.MFAS_LAST p) then multiframeTaken d d p
      else multiframeTaken d (d.set1 (keyAt O.ALIGN_STATUS p) 11) p := by
  by_cases hfly : (smLook {} d.align.mf p).fly = d.rd (keyAt O.MFAS_LAST p) <;>
    simp [inMultiframe, multiframeTaken, Dev.when, hruns, hoom, Nat.not_lt.mpr h, hfly]

theorem oomDeclared_leaves (him : d.flag (keyAt O.ALIGN_STATUS p) 3 = false) (h : d.oomM p ≤ (smLook {} d.align.mf p).bad) :
    oomDeclared d p = (d.putFlag (keyAt O.ALIGN_STATUS p) 3 true).onAlign (fun a => { a with
      mf := smPut {} a.mf p { smLook {} d.align.mf p with good := 0 }
      lom := smPut (0, 0) a.lom p ((smLook (0, 0) a.lom p).1, 0) }) := by
  simp [oomDeclared, hruns, him, Nat.not_lt.mpr h]

theorem otn_of_mfRuns : (d.runs gAlign && portOn d.active p && isOtu (portType d.active p)) = true := by
  rw [Dev.mfRuns, Bool.and_eq_true, Bool.and_eq_true] at hruns
  exact hruns.1.1

theorem lomDeclared_new (hlom : d.flag (keyAt O.ALIGN_STATUS p) 4 = false)
    (h : d.genA (keyAt O.LOM_DECLARE p) ≤ (smLook (0, 0) d.align.lom p).1) :
    lomDeclared d p = ((d.putFlag (keyAt O.ALIGN_STATUS p) 4 true).set1 (keyAt O.ALIGN_STATUS p) 9).alignEvent p 3 := by
  simp [lomDeclared, otn_of_mfRuns hruns, hlom, Nat.not_lt.mpr h]

theorem lomCleared_ends (h : d.genA (keyAt O.LOM_CLEAR p) ≤ (smLook (0, 0) d.align.lom p).2) :
    lomCleared d p = (d.putFlag (keyAt O.ALIGN_STATUS p) 4 false).onAlign (fun a => { a with lom := smDrop a.lom p }) := by
  simp [lomCleared, otn_of_mfRuns hruns, Nat.not_lt.mpr h]

end

end

/-- Settles O33: the accumulators of a port and of its client against their thresholds, then the runs of MFAS and the accumulator of LOM. -/
theorem lossOfFrameAndMultiframe : Obligations.LossOfFrameAndMultiframe := by
  unfold Obligations.LossOfFrameAndMultiframe
  intro s p
  dsimp only
  refine ⟨fun hruns hport => ?port, fun hruns => ?client, fun hruns => ⟨?enter, ?stays, ?oom, ?kept, ?lom, ?seen, ?clear, ?remain⟩⟩
  case port =>
    have hown := syzPort_own p.isLt hport
    refine ⟨fun h => ?declared, fun h => ?below, fun h => ?cleared, fun h => ?early⟩
    case declared =>
      have hdeclared := lofDeclared_port p.isLt hport hruns h
      exact ⟨fun hflag => leaves_of_done rfl (hdeclared.trans (if_neg (ne_true_of_eq_false hflag))),
        fun hflag => leaves_of_done rfl (hdeclared.trans (if_pos hflag))⟩
    case below => exact leaves_of_done rfl (lofDeclared_below hown h)
    case cleared => exact leaves_of_done rfl (lofCleared_port p.isLt hport hruns h)
    case early => exact leaves_of_done rfl (lofCleared_below hown h)
  case client =>
    exact ⟨fun h => leaves_of_done rfl (lofDeclared_client hruns h), fun h => leaves_of_done rfl (lofCleared_client hruns h)⟩
  case enter =>
    intro hoom h
    have henters := inMultiframe_enters hruns hoom h
    exact ⟨fun hfly => leaves_of_done rfl (henters.trans (if_pos hfly)),
      fun hfly => leaves_of_done rfl (henters.trans (if_neg hfly))⟩
  case stays => exact fun h => leaves_of_done rfl (inMultiframe_rests h)
  case oom => exact fun him h => leaves_of_done rfl (oomDeclared_leaves hruns him h)
  case kept => exact fun h => leaves_of_done rfl (oomDeclared_rests h)
  case lom => exact fun hlom h => leaves_of_done rfl (lomDeclared_new hruns hlom h)
  case seen => exact fun h => leaves_of_done rfl (lomDeclared_rests h)
  case clear => exact fun h => leaves_of_done rfl (lomCleared_ends hruns h)
  case remain => exact fun h => leaves_of_done rfl (lomCleared_below h)

end Sys2Proof.Proofs
end

section
/-!
PROOFS. The external commands of protection (R173, R264, Table PS-9): seven rows that write one command each, to the group or the selector
that they name.
-/
namespace Sys2Proof.Proofs
open Sys2Proof Sys2Proof.Machine

/-! ## Writes that both units apply (R173) -/

section
variable {d : Dev} (w : PairedWrite) (check : Nat) (apply : Dev → Dev)

theorem writeTogether_shadow (h : d.inShadow = true) : d.writeTogether w check apply = (d, abRefused) := if_pos h

theorem writeTogether_alone (hshadow : d.inShadow = false) (hrelay : (d.inService && d.paired && d.shadowReady) = false) :
    d.writeTogether w 0 apply = (apply d, 0) := by
  rw [Dev.writeTogether, hshadow, hrelay]
  rfl

end

/-! ## The write of a command (R264) -/

section
variable {d : Dev} {w n : Nat}

theorem commandApply_waits (hn : n ≠ 0) (h : protPartner d.active w ≠ 0) :
    commandApply w n d = d.onProt w (fun p => { p with next := some n }) := by
  simp [commandApply, hn, h]

theorem commandApply_alone (n : Nat) (h : protPartner d.active w = 0) : commandApply w n d = d := by
  simp [commandApply, h]

theorem commandWrite_shadow (n : Nat) (h : d.inShadow = true) : commandWrite w n d = (d, abRefused) :=
  writeTogether_shadow _ _ _ h

theorem commandWrite_alone (hn : n ≤ 7) (hshadow : d.inShadow = false)
    (hrelay : (d.inService && d.paired && d.shadowReady) = false) : commandWrite w n d = (commandApply w n d, 0) := by
  rw [commandWrite, if_neg (Nat.not_lt.mpr hn)]
  exact writeTogether_alone _ _ hshadow hrelay

end

/-! ## The rows of the commands (Table PS-9) -/

/-- The rows that write a command, with its code. -/
def commandRows (m : Master) (t : ProtTarget) : List (Instr × Nat) :=
  [(.clear m t, 1), (.lockoutOfProtection m t, 2), (.forcedSwitchToProtection m t, 3), (.forcedSwitchToWorking m t, 4),
    (.manualSwitchToProtection m t, 5), (.manualSwitchToWorking m t, 6), (.exercise m t, 7)]

section
variable {c : Instr} {n : Nat} {s : State} {m : Master} {t : ProtTarget}

theorem code_of_commandRows (h : (c, n) ∈ commandRows m t) : n ≠ 0 ∧ n ≤ 7 := by
  simp only [commandRows, List.mem_cons, Prod.mk.injEq, List.not_mem_nil, or_false] at h
  omega

theorem exec_of_commandRows (h : (c, n) ∈ commandRows m t) (s : State) : exec c s = hostCommand s m t n := by
  simp only [commandRows, List.mem_cons, Prod.mk.injEq, List.not_mem_nil, or_false] at h
  obtain ⟨rfl, rfl⟩ | ⟨rfl, rfl⟩ | ⟨rfl, rfl⟩ | ⟨rfl, rfl⟩ | ⟨rfl, rfl⟩ | ⟨rfl, rfl⟩ | ⟨rfl, rfl⟩ := h <;> rfl

variable (hc : exec c s = hostCommand s m t n) (hr : reachable s m) (hgate : (disarmed s m).gateOn gProtection = true)
include hc hr hgate

/-- On a group, or on a selector whose context is provisioned, a row leaves what the write of its command makes of the device. -/
theorem leaves_of_commandWrite {d : Dev} {code : Nat}
    (hknown : adLevel (targetAddr t) = 3 ∨ provisioned (disarmed s m).active (targetAddr t) = true)
    (heffect : commandWrite (targetAddr t) n (disarmed s m) = (d, code)) (hd : d.undoc = false) :
    leaves c s (answered d m code []) := by
  refine leaves_of_hostTurn hc hr ?_ hd
  have hopen : (adLevel (targetAddr t) != 3 && !provisioned (disarmed s m).active (targetAddr t)) = false := by
    rcases hknown with h | h <;> simp [h]
  rw [plainWrite_of_reachable hr, Dev.ungated, if_pos hgate, hopen]
  exact heffect

theorem abortsWith_of_unprovisioned (hlevel : adLevel (targetAddr t) ≠ 3)
    (hgone : provisioned (disarmed s m).active (targetAddr t) = false) : abortsWith c s m abNoContext (disarmed s m) := by
  refine leaves_of_hostTurn hc hr ?_ (disarmed_undoc hr)
  have hclosed : (adLevel (targetAddr t) != 3 && !provisioned (disarmed s m).active (targetAddr t)) = true := by
    simp [hlevel, hgone]
  rw [plainWrite_of_reachable hr, Dev.ungated, if_pos hgate, if_pos hclosed]

end

/-- Settles O42: every row is the write of its code; the target decides between the write and the abort for a missing context, Shadow and
the protecting member decide what the write leaves. -/
theorem protectionCommands : Obligations.ProtectionCommands := by
  unfold Obligations.ProtectionCommands
  intro s m t c n hr hrow
  dsimp only
  intro hgate
  obtain ⟨hne, hle⟩ := code_of_commandRows hrow
  have hexec := exec_of_commandRows hrow s
  have hundoc := disarmed_undoc hr
  refine ⟨fun hknown => ⟨fun hshadow hrelay => ?written, fun hshadow => ?refused⟩, abortsWith_of_unprovisioned hexec hr hgate⟩
  case written =>
    have hwrite := commandWrite_alone (w := targetAddr t) hle hshadow hrelay
    refine ⟨fun hpartner => ?_, fun hpartner => ?_⟩
    · rw [commandApply_waits hne hpartner] at hwrite
      exact leaves_of_commandWrite hexec hr hgate hknown hwrite hundoc
    · rw [commandApply_alone n hpartner] at hwrite
      exact leaves_of_commandWrite hexec hr hgate hknown hwrite hundoc
  case refused => exact leaves_of_commandWrite hexec hr hgate hknown (commandWrite_shadow n hshadow) hundoc

end Sys2Proof.Proofs
end

section
/-!
PROOFS. Bulk mapping access (R195): the entries that cross the window as bytes, the selector, whole reads of one bank, and a write that
every entry passes.
-/
namespace Sys2Proof.Proofs
open Sys2Proof Sys2Proof.Machine

/-! ## Entries as bytes -/

theorem length_bytesLE (n v : Nat) : (bytesLE n v).length = n := by
  induction n generalizing v with
  | zero => rfl
  | succ n ih => rw [bytesLE, List.length_cons, ih]

theorem length_bytesBE (n v : Nat) : (bytesBE n v).length = n := by
  rw [bytesBE, List.length_reverse, length_bytesLE]

theorem ofBytesBE_bytesBE (n v : Nat) : ofBytesBE (bytesBE n v) = v % 256 ^ n := by
  rw [ofBytesBE, bytesBE, List.foldl_reverse]
  induction n generalizing v with
  | zero => exact (Nat.mod_one v).symm
  | succ n ih =>
    have hsplit : v % 256 ^ (n + 1) = v % 256 + 256 * (v / 256 % 256 ^ n) := by rw [Nat.pow_succ', Nat.mod_mul]
    rw [bytesLE, List.foldr_cons, ih, BitVec.toNat_ofNat, hsplit]
    omega

/-- The bytes of a list of map entries. -/
def entryBytesOf (es : List (BitVec 64)) : List Byte := es.flatMap (fun e => bytesBE 8 e.toNat)

theorem length_entryBytesOf (es : List (BitVec 64)) : (entryBytesOf es).length = 8 * es.length := by
  simp [entryBytesOf, length_bytesBE, Nat.mul_comm]

/-- Entries are read back from their bytes. -/
theorem entriesOf_entryBytesOf (es : List (BitVec 64)) : entriesOf es.length (entryBytesOf es) = es.map (·.toNat) := by
  induction es with
  | nil => rfl
  | cons e r ih =>
    have hlen : (bytesBE 8 e.toNat).length = 8 := length_bytesBE 8 e.toNat
    have hfirst : ofBytesBE (bytesBE 8 e.toNat) = e.toNat := by
      rw [ofBytesBE_bytesBE]
      exact Nat.mod_eq_of_lt e.isLt
    have htake : (entryBytesOf (e :: r)).take 8 = bytesBE 8 e.toNat := List.take_left' hlen
    have hdrop : (entryBytesOf (e :: r)).drop 8 = entryBytesOf r := List.drop_left' hlen
    rw [List.length_cons, entriesOf, htake, hdrop, hfirst, ih, List.map_cons]

/-! ## The selector -/

theorem mapSelectWrite_writes {d : Dev} {v : Nat} (m : Master) (hgate : d.gateOn gMapping = true)
    (hlevel : bits v 29 3 = 1 ∨ bits v 29 3 = 2) (hnumber : bits v 16 13 = 0) :
    mapSelectWrite m v d = (d.wr (keyOf O.MAP_BLOCK_SELECT (masterNo m)) v, 0) := by
  have hok : ((bits v 29 3 == 1 || bits v 29 3 == 2) && bits v 16 13 == 0) = true := by simpa [hnumber] using hlevel
  rw [mapSelectWrite, Dev.ungated, if_pos hgate, if_pos hok]

/-- The selector's place is one value of the dictionary, which an edit of the pending bank leaves. -/
theorem mapAdvance_edit (d : Dev) (f : Bank → Bank) (m : Master) (n : Nat) : (d.edit f).mapAdvance m n =
    (d.edit f).putFld (keyOf O.MAP_BLOCK_SELECT (masterNo m)) 0 16 (bits (d.mapSelector m) 0 16 + n) := by
  have hrd : (d.edit f).rd (keyOf O.MAP_BLOCK_SELECT (masterNo m)) = d.mapSelector m := rd_onPending d f _
  rw [Dev.mapAdvance, Dev.fld, hrd]

/-! ## Reads -/

/-- A whole read in its master's turn that gives data has the effect of its completion. -/
theorem leaves_of_hostRead {c : Instr} {s : State} {m : Master} {k : Key} {idx sub len : Nat} {ecc : Ecc} {d e : Dev} {data : List Byte}
    {fin : Completion} (hc : exec c s = hostRead s m k { maxLen := len, complete := true, ecc := ecc }) (hr : reachable s m)
    (hidx : Key.idx k = idx) (hsub : Key.sub k = sub) (hheld : s.dev.heldBack idx sub false = false)
    (hread : s.dev.readObj m idx sub (some len) ecc = (d, { data := data, fin := fin })) (hfin : d.completed fin = e)
    (he : e.undoc = false) : leaves c s (answered e m 0 data) := by
  obtain ⟨⟨hboot, -⟩, hturn⟩ := hr
  have hanswer : hostRead s m k { maxLen := len, complete := true, ecc := ecc } =
      hostTurn s m { tag := tagNone, body := .read idx sub len, ecc := ecc } (e, 0) data := by
    simp [hostRead, hidx, hsub, hheld, hread, hfin, Dev.when]
  rw [leaves, hc, hanswer, hostTurn, hboot, hturn]
  simp only [hostDone, he]
  rfl

/-- The rows of the two DOMAINs of the window (Table MP-11). -/
def mapBlockRow : ObjDef := { base := 0x3401, sub := 2, ty := .dom 8 4096, acc := .rw, gen := true }

def mapBlockActiveRow : ObjDef := { base := 0x3401, sub := 3, ty := .dom 0 4096, acc := .ro }

theorem findObj_mapBlock : findObj 0x3401 2 = some mapBlockRow := by decide +kernel

theorem findObj_mapBlockActive : findObj 0x3401 3 = some mapBlockActiveRow := by decide +kernel

theorem indexExists_mapBlock : indexExists 0x3401 = true := by decide +kernel

section
variable {d : Dev}

theorem heldBack_mapBlock (h : d.rd O.PENDING_STATE ≠ 1) : d.heldBack 0x3401 2 false = false := by
  simp [Dev.heldBack, findObj_mapBlock, mapBlockRow, h]

theorem heldBack_mapBlockActive (d : Dev) : d.heldBack 0x3401 3 false = false := by
  simp [Dev.heldBack, findObj_mapBlockActive, mapBlockActiveRow]

variable {m : Master} {len : Nat} (hgate : d.gateOn gMapping = true)
include hgate

theorem gatedObj_mapWindow {o : ObjDef} : d.gatedObj o 0x3401 = false := by
  have hblock : gateBitOf 0x3401 = some gMapping := rfl
  simp [Dev.gatedObj, hblock, hgate]

/-- No check refuses a read of the window with a length and a running clock. -/
theorem readObj_mapWindow {sub lo hi : Nat} {o : ObjDef} (hboot : d.inBoot = false) (hlen : len ≠ 0)
    (hobj : findObj 0x3401 sub = some o) (hbase : o.base = 0x3401) (hty : o.ty = .dom lo hi) (hacc : o.acc ≠ .wo)
    (hguard : o.guard = false) : d.readObj m 0x3401 sub (some len) .clean = domValue d m 0x3401 sub len := by
  have hbonded : d.bondedIndex 0x3401 = false := rfl
  have hcontext : contextCode d o (d.selected m) = 0 := by simp [contextCode, isContextField, hbase]
  simp [Dev.readObj, readAt, hboot, indexExists_mapBlock, hobj, gatedObj_mapWindow hgate, hbonded, hacc, hty, readLengthOk, hlen, hguard,
    hcontext, valueOf, Dev.eccHit]

/-- Past its checks a read gives the entries of a bank, and their count to its completion. -/
theorem mapRead_entries (b : Bank) (len : Nat) (hsel : d.mapSelector m ≠ 0) : mapRead d m b len = (0, mapBlock d m b len) := by
  simp [mapRead, hgate, hsel]

variable (hsel : d.mapSelector m ≠ 0)
include hsel

theorem domValue_mapBlock : domValue d m 0x3401 2 len =
    (d, { data := (mapBlock d m d.pendingBank len).1, fin := .mapBlock m (mapBlock d m d.pendingBank len).2 }) := by
  have hentries := mapRead_entries hgate d.pendingBank len hsel
  have hbase : baseOf 0x3401 = 0x3401 := rfl
  simp [domValue, hbase, hentries]

theorem domValue_mapBlockActive : domValue d m 0x3401 3 len =
    (d, { data := (mapBlock d m d.active len).1, fin := .mapBlock m (mapBlock d m d.active len).2 }) := by
  have hentries := mapRead_entries hgate d.active len hsel
  have hbase : baseOf 0x3401 = 0x3401 := rfl
  simp [domValue, hbase, hentries]

end

section
variable {s : State} {m : Master} {len : Nat} (hr : reachable s m) (hgate : s.dev.gateOn gMapping = true) (hlen : len ≠ 0)
  (hsel : s.dev.mapSelector m ≠ 0)
include hr hgate hlen hsel

theorem leaves_mapBlockActiveRead : leaves (.mapBlockActiveRead m { maxLen := len, complete := true, ecc := .clean }) s
    (answered (s.dev.mapAdvance m (mapBlock s.dev m s.dev.active len).2) m 0 (mapBlock s.dev m s.dev.active len).1) := by
  have hexec : exec (.mapBlockActiveRead m { maxLen := len, complete := true, ecc := .clean }) s =
      hostRead s m O.MAP_BLOCK_ACTIVE { maxLen := len, complete := true, ecc := .clean } := rfl
  have ⟨⟨hboot, hdoc⟩, _⟩ := hr
  have hread := readObj_mapWindow (m := m) hgate hboot hlen findObj_mapBlockActive rfl rfl (by decide) rfl
  rw [domValue_mapBlockActive hgate hsel] at hread
  exact leaves_of_hostRead hexec hr rfl rfl (heldBack_mapBlockActive s.dev) hread rfl hdoc

theorem leaves_mapBlockRead (hstate : s.dev.rd O.PENDING_STATE ≠ 1) :
    leaves (.mapBlockRead m { maxLen := len, complete := true, ecc := .clean }) s
      (answered (s.dev.mapAdvance m (mapBlock s.dev m s.dev.pendingBank len).2) m 0 (mapBlock s.dev m s.dev.pendingBank len).1) := by
  have hexec : exec (.mapBlockRead m { maxLen := len, complete := true, ecc := .clean }) s =
      hostRead s m O.MAP_BLOCK { maxLen := len, complete := true, ecc := .clean } := rfl
  have ⟨⟨hboot, hdoc⟩, _⟩ := hr
  have hread := readObj_mapWindow (m := m) hgate hboot hlen findObj_mapBlock rfl rfl (by decide) rfl
  rw [domValue_mapBlock hgate hsel] at hread
  exact leaves_of_hostRead hexec hr rfl rfl (heldBack_mapBlock hstate) hread rfl hdoc

end

/-! ## A write that every entry passes -/

theorem mapBlockWrite_writes {d : Dev} {m : Master} {es : List (BitVec 64)} (hgate : d.gateOn gMapping = true) (hne : 1 ≤ es.length)
    (hmax : es.length ≤ 512) (hedit : d.editRefused = false) (hsel : d.mapSelector m ≠ 0)
    (hok : entriesCheck d.pendingBank (bits (d.mapSelector m) 29 3) (bits (d.mapSelector m) 0 16) (es.map (·.toNat)) = 0) :
    mapBlockWrite m (entryBytesOf es) d =
      ((d.edit (entriesPut (bits (d.mapSelector m) 29 3) (bits (d.mapSelector m) 0 16) (es.map (·.toNat)))).putFld
        (keyOf O.MAP_BLOCK_SELECT (masterNo m)) 0 16 (bits (d.mapSelector m) 0 16 + es.length), 0) := by
  have hcount : (entryBytesOf es).length / 8 = es.length := by rw [length_entryBytesOf]; omega
  have hlength : ((entryBytesOf es).length % 8 != 0 || es.length == 0 || decide (512 < es.length)) = false := by
    have hnil : es ≠ [] := List.length_pos_iff.mp hne
    simp [length_entryBytesOf, hnil, hmax]
  simp only [mapBlockWrite, hcount, hgate, entriesOf_entryBytesOf, hlength, hedit, hok, mapAdvance_edit]
  simp [hsel]

/-! ## The statement -/

/-- Settles O28: the selector's write, the reads of the two banks, and the write, each past its checks. -/
theorem mapBlocks : Obligations.MapBlocks := by
  unfold Obligations.MapBlocks
  intro s m hr hgateRead hgateWrite
  dsimp only
  have hundoc := disarmed_undoc hr
  refine ⟨fun v hlevel hnumber => ?selector, fun len hlen hsel => ⟨?active, fun hstate => ?pending⟩, fun es hne hmax => ?written⟩
  case selector => exact leaves_of_hostNum rfl hr (mapSelectWrite_writes m hgateWrite hlevel hnumber) hundoc
  case active => exact leaves_mapBlockActiveRead hr hgateRead hlen hsel
  case pending => exact leaves_mapBlockRead hr hgateRead hlen hsel hstate
  case written =>
    intro hheld hedit hsel hok
    refine leaves_of_hostTurn rfl hr ((plainWrite_of_reachable hr _).trans ?_) ((edit_undoc _ _).trans hundoc)
    have hfree : ((disarmed s m).bankHeld && !(disarmed s m).inShadow) = false := by rw [hheld, Bool.false_and]
    exact (if_neg (ne_true_of_eq_false hfree)).trans (mapBlockWrite_writes hgateWrite hne hmax hedit hsel hok)

end Sys2Proof.Proofs
end

section
/-!
PROOFS. Pointer interpretation (R182 to R187, R190): fields of a status word, the steps of the interpreter by class, what a received word
shows and which stores it moves, and the period that a context takes.
-/
namespace Sys2Proof.Proofs
open Sys2Proof Sys2Proof.Machine

/-! ## Fields of a value -/

/-- A field depends on the bits up to its top alone. -/
theorem bits_congr_mod {u v n lo w : Nat} (h : u % 2 ^ n = v % 2 ^ n) (hn : lo + w ≤ n) : bits u lo w = bits v lo w := by
  have hcut : ∀ z : Nat, bits z lo w = z % 2 ^ n % 2 ^ (lo + w) / 2 ^ lo := fun z => by
    rw [Nat.mod_mod_of_dvd _ (Nat.pow_dvd_pow 2 hn), Nat.pow_add, Nat.mod_mul_right_div_self, bits]
  rw [hcut, hcut, h]

theorem bits_lt (v lo w : Nat) : bits v lo w < 2 ^ w := Nat.mod_lt _ (Nat.two_pow_pos w)

theorem bits_mul_le (v lo w : Nat) : bits v lo w * 2 ^ lo ≤ v :=
  (Nat.mul_le_mul_right _ (Nat.mod_le _ _)).trans (Nat.div_mul_le_self v (2 ^ lo))

/-- A value without a field is what lies below the field and above it. -/
theorem sub_bits_mul (v lo w : Nat) : v - bits v lo w * 2 ^ lo = v % 2 ^ lo + 2 ^ lo * (2 ^ w * (v / 2 ^ lo / 2 ^ w)) := by
  have hlow : 2 ^ lo * (v / 2 ^ lo) + v % 2 ^ lo = v := Nat.div_add_mod _ _
  have hhigh : 2 ^ w * (v / 2 ^ lo / 2 ^ w) + bits v lo w = v / 2 ^ lo := Nat.div_add_mod _ _
  refine Nat.sub_eq_of_eq_add ?_
  calc v = 2 ^ lo * (2 ^ w * (v / 2 ^ lo / 2 ^ w) + bits v lo w) + v % 2 ^ lo := by rw [hhigh, hlow]
    _ = v % 2 ^ lo + 2 ^ lo * (2 ^ w * (v / 2 ^ lo / 2 ^ w)) + bits v lo w * 2 ^ lo := by ring

theorem bits_putBits_same (v lo w x : Nat) : bits (putBits v lo w x) lo w = x % 2 ^ w := by
  have hput : putBits v lo w x = v % 2 ^ lo + 2 ^ lo * (2 ^ w * (v / 2 ^ lo / 2 ^ w) + x % 2 ^ w) := by
    rw [putBits, sub_bits_mul]
    ring
  rw [hput, bits, Nat.add_mul_div_left _ _ (Nat.two_pow_pos lo), Nat.div_eq_of_lt (Nat.mod_lt _ (Nat.two_pow_pos lo)), Nat.zero_add,
    Nat.mul_add_mod, Nat.mod_mod]

theorem putBits_mod (v lo w x : Nat) : putBits v lo w x % 2 ^ lo = v % 2 ^ lo := by
  rw [putBits, Nat.add_mul_mod_self_right]
  conv_rhs => rw [← Nat.sub_add_cancel (bits_mul_le v lo w), Nat.add_mul_mod_self_right]

theorem bits_putBits_below (v w x : Nat) {lo lo' w' : Nat} (h : lo' + w' ≤ lo) : bits (putBits v lo w x) lo' w' = bits v lo' w' :=
  bits_congr_mod (putBits_mod v lo w x) h

/-! ## The events of a status word (PTR_STATUS, Table MP-10) -/

/-- The `evt` fields that a word sets: a change of state, a justification, a new data flag. -/
def ptrEvents (turned just ndf : Bool) : Nat := ofBit turned * 2 ^ 20 + ofBit just * 2 ^ 21 + ofBit ndf * 2 ^ 22

theorem ptrEvents_mod (turned just ndf : Bool) : ptrEvents turned just ndf % 2 ^ 20 = 0 := by
  simp only [ptrEvents]
  omega

theorem bit_ptrEvents (turned just ndf : Bool) :
    bit (ptrEvents turned just ndf) 21 = just ∧ bit (ptrEvents turned just ndf) 22 = ndf := by
  revert turned just ndf
  decide

theorem bits_or_ptrEvents (v : Nat) (turned just ndf : Bool) {lo w : Nat} (h : lo + w ≤ 20) :
    bits ((v ||| ptrEvents turned just ndf) % 2 ^ 64) lo w = bits v lo w := by
  refine bits_congr_mod (n := 20) ?_ h
  rw [Nat.mod_mod_of_dvd _ (Nat.pow_dvd_pow 2 (by decide)), Nat.or_mod_two_pow, ptrEvents_mod, Nat.or_zero]

theorem bit_or_ptrEvents (v : Nat) (turned just ndf : Bool) :
    (just = true → bit ((v ||| ptrEvents turned just ndf) % 2 ^ 64) 21 = true) ∧
    (ndf = true → bit ((v ||| ptrEvents turned just ndf) % 2 ^ 64) 22 = true) := by
  obtain ⟨hjust, hndf⟩ := bit_ptrEvents turned just ndf
  rw [bit] at hjust hndf
  constructor
  · rintro rfl
    rw [bit, Nat.testBit_mod_two_pow, Nat.testBit_or, hjust, Bool.or_true]
    rfl
  · rintro rfl
    rw [bit, Nat.testBit_mod_two_pow, Nat.testBit_or, hndf, Bool.or_true]
    rfl

/-! ## Classes (Table MP-4) -/

theorem classify_allOnes (range : Nat) (ss : Option Nat) (state cur since : Nat) : classify 0xFFFF range ss state cur since = .ais := rfl

/-- A word confirms or moves an offset in NORM alone. -/
theorem state_of_classify {word range : Nat} {ss : Option Nat} {state cur since : Nat} {c : PtrClass}
    (h : classify word range ss state cur since = c) (hc : c = .norm ∨ c = .inc ∨ c = .dec) : state = 0 := by
  by_contra hstate
  have hne : (state == 0) = false := beq_false_of_ne hstate
  simp only [classify, hne, Bool.false_and, Bool.false_eq_true, if_false] at h
  rcases hc with rfl | rfl | rfl <;> split_ifs at h

/-! ## Steps of the interpreter (Table MP-5) -/

section
variable (p : PtrAt) (off range lopN : Nat)

section
variable (hstate : p.state = 0)
include hstate

theorem interpret_norm : (interpret p .norm off range lopN).1.state = 0 ∧ (interpret p .norm off range lopN).1.offset = p.offset :=
  ⟨hstate, rfl⟩

theorem interpret_inc : (interpret p .inc off range lopN).1.state = 0 ∧
    (interpret p .inc off range lopN).1.offset = (p.offset + 1) % range := ⟨hstate, rfl⟩

theorem interpret_dec : (interpret p .dec off range lopN).1.state = 0 ∧
    (interpret p .dec off range lopN).1.offset = (p.offset + range - 1) % range := ⟨hstate, rfl⟩

end

theorem interpret_ais (h : 2 ≤ p.x.ais) :
    (interpret p .ais off range lopN).1.state = 1 ∧ (interpret p .ais off range lopN).1.offset = p.offset := by
  have hthird : 3 ≤ min (p.x.ais + 1) 3 := by omega
  by_cases hstate : p.state = 1 <;> simp [interpret, hstate, hthird]

theorem interpret_ndf_followed (hstate : p.state ≠ 2) (h : min (p.x.lop + 1) 15 < lopN) :
    (interpret p .ndf off range lopN).1.state = 0 ∧ (interpret p .ndf off range lopN).1.offset = off ∧
    (interpret p .ndf off range lopN).2.1 = true := by
  have hrun : ¬ lopN ≤ min (p.x.lop + 1) 15 := by omega
  simp [interpret, hstate, hrun]

theorem interpret_ndf_lop (hstate : p.state ≠ 2) (h : lopN ≤ min (p.x.lop + 1) 15) :
    (interpret p .ndf off range lopN).1.state = 2 ∧ (interpret p .ndf off range lopN).1.offset = p.offset := by
  simp [interpret, hstate, h]

theorem interpret_new (hsame : p.x.new.1 = off) (h : 2 ≤ p.x.new.2) :
    (interpret p .new off range lopN).1.state = 0 ∧ (interpret p .new off range lopN).1.offset = off := by
  have hrun : p.x.new.2 ≠ 0 := by omega
  simp [interpret, hsame, hrun, h]

theorem interpret_inv (hstate : p.state ≠ 2) (h : lopN ≤ min (p.x.lop + 1) 15) :
    (interpret p .inv off range lopN).1.state = 2 ∧ (interpret p .inv off range lopN).1.offset = p.offset := by
  simp [interpret, hstate, h]

end

/-! ## What a received word leaves -/

/-- PTR_STATUS of a context shows a state and an offset. -/
def shows (d : Dev) (a state offset : Nat) : Prop :=
  d.fld (keyCtx O.PTR_STATUS a) 16 2 = state ∧ d.fld (keyCtx O.PTR_STATUS a) 0 10 = offset

theorem keyCtx_ne {o o' : ObjId} (a : Nat) (h : o ≠ o') : keyCtx o a ≠ keyCtx o' a := fun he => h (Nat.add_right_cancel he)

theorem rd_whenCount (d : Dev) (c : Bool) {k n : Key} (h : n ≠ k) : (d.when c (fun y => y.count n 1)).rd k = d.rd k := by
  cases c
  · rfl
  · exact rd_count_ne d _ h

/-- PTR_STATUS after a word that gives a state and an offset, with the size bits, failure and concatenation that it shows. -/
def ptrValue (old state offset ss fail conc : Nat) : Nat :=
  putBits (putBits (putBits (putBits (putBits old 0 10 offset) 16 2 state) 18 2 ss) 23 1 fail) 24 2 conc

theorem bits_ptrValue {old state offset ss fail conc : Nat} (hstate : state < 4) (hoffset : offset < 2 ^ 10) :
    bits (ptrValue old state offset ss fail conc) 16 2 = state ∧ bits (ptrValue old state offset ss fail conc) 0 10 = offset := by
  constructor
  · rw [ptrValue, bits_putBits_below _ _ _ (by decide), bits_putBits_below _ _ _ (by decide), bits_putBits_below _ _ _ (by decide),
      bits_putBits_same]
    exact Nat.mod_eq_of_lt hstate
  · rw [ptrValue, bits_putBits_below _ _ _ (by decide), bits_putBits_below _ _ _ (by decide), bits_putBits_below _ _ _ (by decide),
      bits_putBits_below _ _ _ (by decide), bits_putBits_same]
    exact Nat.mod_eq_of_lt hoffset

/-- A status word that holds a value with events shows the value's state and offset, and the events. -/
theorem shows_of_rd {d : Dev} {a v state offset : Nat} {turned just ndf : Bool}
    (h : d.rd (keyCtx O.PTR_STATUS a) = (v ||| ptrEvents turned just ndf) % 2 ^ 64) (hv : bits v 16 2 = state ∧ bits v 0 10 = offset) :
    shows d a state offset ∧ (just = true → d.flag (keyCtx O.PTR_STATUS a) 21 = true) ∧
      (ndf = true → d.flag (keyCtx O.PTR_STATUS a) 22 = true) := by
  simp only [shows, Dev.fld, Dev.flag, h, bits_or_ptrEvents _ _ _ _ (show 16 + 2 ≤ 20 by decide),
    bits_or_ptrEvents _ _ _ _ (show 0 + 10 ≤ 20 by decide)]
  exact ⟨hv, bit_or_ptrEvents _ _ _ _⟩

section
variable {d : Dev} {a word : Nat} {c : PtrClass} {at1 : PtrAt} {ndf conf : Bool}

/-- A word's place shows in PTR_STATUS with its events; a justification then counts and moves the stores that the context feeds (R185,
R190). -/
theorem pointerWord_cases (members : List Nat) (h : d.ptrResult a word = (c, at1, ndf, conf)) (hstate : at1.state < 4)
    (hoffset : at1.offset < 2 ^ 10) : ∃ y : Dev, (shows y a at1.state at1.offset ∧
      ((c == .inc || c == .dec) = true → y.flag (keyCtx O.PTR_STATUS a) 21 = true) ∧
      (ndf = true → y.flag (keyCtx O.PTR_STATUS a) 22 = true)) ∧
      pointerWord d a word members = if !(c == .inc || c == .dec) then y else
        ((d.servedBy a).flatMap d.partners).foldl (fun z t => z.moveFill t (if c == .dec then 1 else -1))
          (y.count (keyCtx (if c == .inc then O.PJ_RX_INC else O.PJ_RX_DEC) a) 1) := by
  unfold pointerWord
  rw [h]
  dsimp -zeta only
  extract_lets k pt lopN x mem concAis concLop fast fail failNow v0 v1 just evs written runs d1 d2
  have hregs : d1.regs = (d.wr k (v1 ||| evs)).regs := rfl
  have hv1 : v1 = ptrValue (d.rd k) at1.state at1.offset (bits word 10 2) (ofBit failNow) (ofBit concAis + 2 * ofBit concLop) := rfl
  have hevs : evs = ptrEvents (at1.state != d.fld k 16 2) just ndf := rfl
  have hrd : d2.rd k = (v1 ||| evs) % 2 ^ 64 := by
    rw [rd_whenCount d1 ndf (keyCtx_ne a (by decide)), rd_of_regs hregs, rd_wr_same]
  rw [hv1, hevs] at hrd
  exact ⟨d2, shows_of_rd hrd (bits_ptrValue hstate hoffset), rfl⟩

end

/-! ## A word of each class -/

/-- The place of a context's interpreter, LOP_N, and the class of a word there, as `Dev.ptrResult` takes them. -/
def placeOf (d : Dev) (a : Nat) : PtrAt :=
  { state := d.fld (keyCtx O.PTR_STATUS a) 16 2, offset := d.fld (keyCtx O.PTR_STATUS a) 0 10, x := smLook {} d.ptrRx a }

def lopNOf (d : Dev) (a : Nat) : Nat := bits (d.genA (keyCtx O.PTR_CTRL a)) 0 4

def classOf (d : Dev) (a word : Nat) : PtrClass :=
  classify word (ptrRange (d.pathType a))
    (if bit (d.genA (keyCtx O.PTR_CTRL a)) 4 then some (sizeBits (d.pathType a) (d.sonet (d.ctxPort a))) else none)
    (placeOf d a).state (placeOf d a).offset (min ((placeOf d a).x.since + 1) 3)

/-- The place after a word of a class, and its flags. -/
def stepOf (d : Dev) (a word : Nat) (c : PtrClass) : PtrAt × Bool × Bool :=
  interpret (placeOf d a) c (bits word 0 10) (ptrRange (d.pathType a)) (lopNOf d a)

theorem ptrResult_eq (d : Dev) (a word : Nat) : d.ptrResult a word = (classOf d a word, stepOf d a word (classOf d a word)) := rfl

theorem offset_placeOf_lt (d : Dev) (a : Nat) : (placeOf d a).offset < 2 ^ 10 := bits_lt _ 0 10

theorem mod_ptrRange_lt (n pt : Nat) : n % ptrRange pt < 2 ^ 10 := by
  have hrange : 0 < ptrRange pt ∧ ptrRange pt < 2 ^ 10 := by
    unfold ptrRange
    split_ifs <;> decide
  exact (Nat.mod_lt n hrange.1).trans hrange.2

section
variable {d : Dev} {a word : Nat} {c : PtrClass} (members : List Nat) {state offset : Nat} (hclass : classOf d a word = c)
  (hplace : (stepOf d a word c).1.state = state ∧ (stepOf d a word c).1.offset = offset) (hstate : state < 4) (hoffset : offset < 2 ^ 10)
include hclass hplace hstate hoffset

theorem pointerWord_shows (hjust : (c == .inc || c == .dec) = false) : shows (pointerWord d a word members) a state offset ∧
    ((stepOf d a word c).2.1 = true → (pointerWord d a word members).flag (keyCtx O.PTR_STATUS a) 22 = true) := by
  subst hclass
  obtain ⟨rfl, rfl⟩ := hplace
  obtain ⟨y, ⟨hshows, -, hndf⟩, hword⟩ := pointerWord_cases members (ptrResult_eq d a word) hstate hoffset
  rw [hjust] at hword
  subst hword
  exact ⟨hshows, hndf⟩

theorem pointerWord_moves (hjust : (c == .inc || c == .dec) = true) : ∃ y : Dev, pointerWord d a word members =
      ((d.servedBy a).flatMap d.partners).foldl (fun z t => z.moveFill t (if c == .dec then 1 else -1))
        (y.count (keyCtx (if c == .inc then O.PJ_RX_INC else O.PJ_RX_DEC) a) 1) ∧
      shows y a state offset ∧ y.flag (keyCtx O.PTR_STATUS a) 21 = true := by
  subst hclass
  obtain ⟨rfl, rfl⟩ := hplace
  obtain ⟨y, ⟨hshows, hmoved, -⟩, hword⟩ := pointerWord_cases members (ptrResult_eq d a word) hstate hoffset
  rw [hjust] at hword
  exact ⟨y, hword, hshows, hmoved hjust⟩

end

/-! ## The period of a context (R182, R187) -/

section
variable {d : Dev} {a : Nat}

theorem pathPeriod_rests (h : d.ptrRuns a = false ∨ d.tuHeld a = true ∨ d.rxPeriod a = none) : pathPeriod d a = d := by
  rcases h with h | h | h
  · simp [pathPeriod, h]
  · simp [pathPeriod, h]
  · simp only [pathPeriod, h, ite_self]

section
variable {n : Nat} {p : Period} (hruns : d.ptrRuns a = true) (hheld : d.tuHeld a = false) (hperiod : d.rxPeriod a = some (n, p))
include hruns hheld hperiod

theorem pathPeriod_taken (h : n = (d.pathRxOf a).taken) : pathPeriod d a = d := by
  simp [pathPeriod, hruns, hheld, hperiod, h]

/-- The containers of a context after a period with its alignment; a lost period before it ends the one in progress. -/
def periodTaken (d : Dev) (a n : Nat) (p : Period) : PathRx × List (List Byte) :=
  let gap := n != (d.pathRxOf a).taken + 1
  (if gap then { d.pathRxOf a with cur := none, wait := none } else d.pathRxOf a).period (d.pathType a) p (d.alignment a p.word gap)

theorem pathPeriod_takes (h : n ≠ (d.pathRxOf a).taken) : pathPeriod d a = (periodTaken d a n p).2.foldl (fun y c => y.deliver a c)
    ((pointerWord d a p.word p.members).onPathRx a (fun _ => { (periodTaken d a n p).1 with taken := n })) := by
  have hopen : (!d.ptrRuns a || d.tuHeld a) = false := by rw [hruns, hheld]; rfl
  rw [pathPeriod, if_neg (ne_true_of_eq_false hopen), hperiod]
  exact if_neg (by simpa using h)

end

end

/-! ## The statement -/

/-- Settles O36: the period by whether it is new, then the classes of a word, each by its step of the interpreter. -/
theorem pointerInterpretation : Obligations.PointerInterpretation := by
  unfold Obligations.PointerInterpretation
  refine ⟨fun s a => ⟨fun h => ?rests, fun n p hruns hheld hperiod => ⟨fun h => ?taken, fun h => ?takes⟩⟩,
    fun d a word members => ?word⟩
  case rests => exact leaves_of_done rfl (pathPeriod_rests h)
  case taken => exact leaves_of_done rfl (pathPeriod_taken hruns hheld hperiod h)
  case takes => exact leaves_of_done rfl (pathPeriod_takes hruns hheld hperiod h)
  case word =>
    have hcur := offset_placeOf_lt d a
    have hoff := bits_lt word.toNat 0 10
    refine ⟨?allOnes, fun hc hrun => ?ais, fun hc => ?norm, fun hc hstate => ⟨fun hrun => ?followed, fun hrun => ?lost⟩,
      fun hc hsame hrun => ?new, fun hc hstate hrun => ?inv, fun hc => ?inc, fun hc => ?dec⟩
    case allOnes =>
      rintro rfl
      exact classify_allOnes _ _ _ _ _
    case ais => exact (pointerWord_shows members hc (interpret_ais _ _ _ _ hrun) (by decide) hcur rfl).1
    case norm =>
      have hstate : (placeOf d a).state = 0 := state_of_classify hc (.inl rfl)
      exact (pointerWord_shows members hc (interpret_norm _ _ _ _ hstate) (by decide) hcur rfl).1
    case followed =>
      obtain ⟨hplace, hoffset, hndf⟩ :=
        interpret_ndf_followed (placeOf d a) (bits word.toNat 0 10) (ptrRange (d.pathType a)) (lopNOf d a) hstate hrun
      obtain ⟨hshows, hlatched⟩ := pointerWord_shows members hc ⟨hplace, hoffset⟩ (by decide) hoff rfl
      exact ⟨hshows, hlatched hndf⟩
    case lost => exact (pointerWord_shows members hc (interpret_ndf_lop _ _ _ _ hstate hrun) (by decide) hcur rfl).1
    case new => exact (pointerWord_shows members hc (interpret_new _ _ _ _ hsame hrun) (by decide) hoff rfl).1
    case inv => exact (pointerWord_shows members hc (interpret_inv _ _ _ _ hstate hrun) (by decide) hcur rfl).1
    case inc =>
      have hstate : (placeOf d a).state = 0 := state_of_classify hc (.inr (.inl rfl))
      exact pointerWord_moves members hc (interpret_inc _ _ _ _ hstate) (by decide) (mod_ptrRange_lt _ _) rfl
    case dec =>
      have hstate : (placeOf d a).state = 0 := state_of_classify hc (.inr (.inr rfl))
      exact pointerWord_moves members hc (interpret_dec _ _ _ _ hstate) (by decide) (mod_ptrRange_lt _ _) rfl

end Sys2Proof.Proofs
end

section
/-!
PROOFS. Path overhead (R201 to R203, R208, R211, R212, R214): what a period counts and what it leaves of the visit, the delay marker, and the
host's trace capture and ONE_BIP.
-/
namespace Sys2Proof.Proofs
open Sys2Proof Sys2Proof.Machine

/-! ## What a period counts

A visit is observed by the containers that have arrived and the two counters of its context. Every other step of Table PO-3 leaves these. -/

/-- The containers that have arrived and the counts of a context's BIP errors and received REI. -/
def arrivals (a : Nat) (d : Dev) : SMap PathRx × Nat × Nat :=
  (d.pathRx, d.rd (keyCtx O.BIP_ERRORS a), d.rd (keyCtx O.REI_RX a))

theorem arrivals_congr {a : Nat} {d e : Dev} (hpath : e.pathRx = d.pathRx) (hregs : e.regs = d.regs) : arrivals a e = arrivals a d := by
  simp only [arrivals, hpath, rd_of_regs hregs]

/-- The values of two objects have two keys. -/
theorem keyCtx_ne_keyCtx {o o' : ObjId} (a a' : Nat) (h : o % 16777216 ≠ o' % 16777216) : keyCtx o a ≠ keyCtx o' a' := by
  intro he
  have hmod := congrArg (· % 16777216) he
  simp only [keyCtx, Nat.add_mul_mod_self_right] at hmod
  exact h hmod

section
variable {a : Nat}

/-- An object that is neither of the two counters. -/
abbrev notCounter (o : ObjId) : Prop := o % 16777216 ≠ O.BIP_ERRORS % 16777216 ∧ o % 16777216 ≠ O.REI_RX % 16777216

variable {o : ObjId}

theorem arrivals_wr (d : Dev) (b v : Nat) (h : notCounter o) : arrivals a (d.wr (keyCtx o b) v) = arrivals a d := by
  obtain ⟨hbip, hrei⟩ := h
  simp only [arrivals, wr_pathRx, rd_wr_ne d v (keyCtx_ne_keyCtx b a hbip), rd_wr_ne d v (keyCtx_ne_keyCtx b a hrei)]

theorem arrivals_wrOf (d : Dev) (n v : Nat) (h : notCounter o) : arrivals a (d.wr (keyOf o n) v) = arrivals a d := arrivals_wr d n v h

theorem arrivals_putFld (d : Dev) (b lo w x : Nat) (h : notCounter o) : arrivals a (d.putFld (keyCtx o b) lo w x) = arrivals a d :=
  arrivals_wr d b _ h

theorem arrivals_putFlag (d : Dev) (b i : Nat) (x : Bool) (h : notCounter o) : arrivals a (d.putFlag (keyCtx o b) i x) = arrivals a d :=
  arrivals_wr d b _ h

theorem arrivals_set1 (d : Dev) (b i : Nat) (h : notCounter o) : arrivals a (d.set1 (keyCtx o b) i) = arrivals a d := arrivals_wr d b _ h

theorem arrivals_when (d : Dev) (c : Bool) {f : Dev → Dev} (h : arrivals a (f d) = arrivals a d) :
    arrivals a (d.when c f) = arrivals a d := by
  cases c
  · rfl
  · exact h

theorem arrivals_acceptVal (d : Dev) (b b' ev v : Nat) {status : ObjId} (h : notCounter o) (hstatus : notCounter status) :
    arrivals a (d.acceptVal (keyCtx o b) (keyCtx status b') ev v) = arrivals a d :=
  (arrivals_wr _ b v h).trans (arrivals_when d _ (arrivals_set1 d b' ev hstatus))

end

section
variable {a : Nat} (d : Dev)

theorem arrivals_onPohCtx (b : Nat) (f : PohCtx → PohCtx) : arrivals a (d.onPohCtx b f) = arrivals a d := arrivals_congr rfl rfl

theorem arrivals_wrStr (k : Key) (v : List Byte) : arrivals a (d.wrStr k v) = arrivals a d := arrivals_congr rfl rfl

theorem arrivals_berPeriod (b errs : Nat) : arrivals a (d.berPeriod b errs) = arrivals a d := arrivals_congr rfl rfl

theorem arrivals_onPmAcc (b : Nat) (f : PmSec → PmSec) : arrivals a (d.onPmAcc b f) = arrivals a d := by
  refine arrivals_congr ?_ (onPmAcc_regs d b f)
  unfold Dev.onPmAcc
  split <;> rfl

theorem arrivals_comparePath (b : Nat) : arrivals a (d.comparePath b) = arrivals a d := by
  simp (disch := decide) only [Dev.comparePath, arrivals_putFlag]

/-- A captured trace goes to the masters alone. -/
theorem arrivals_capture (b : Nat) (v : List Byte) : arrivals a (d.capture b v) = arrivals a d := by
  have hgiven : ∀ (l : List (Nat × Nat)) (x : Dev), arrivals a (l.foldl (fun y c =>
      (y.wrStr (keyOf O.TRACE_CAPTURED c.1) v).wr (keyOf O.TRACE_CAPTURE c.1) 0) x) = arrivals a x := by
    intro l
    induction l with
    | nil => exact fun _ => rfl
    | cons c l ih => exact fun x => (ih _).trans ((arrivals_wrOf _ c.1 0 (by decide)).trans (arrivals_wrStr x _ v))
  exact (arrivals_congr rfl rfl).trans (hgiven _ d)

theorem arrivals_h4Work (b v : Nat) : arrivals a (d.h4Work b v) = arrivals a d := by
  unfold Dev.h4Work
  split
  case isTrue => rfl
  case isFalse => simp (disch := decide) only [arrivals_putFlag, arrivals_onPohCtx]

theorem arrivals_markerRx (b t : Nat) (v : Bool) : arrivals a (d.markerRx b t v) = arrivals a d := by
  unfold Dev.markerRx
  dsimp only
  split_ifs <;> simp (disch := decide) only [arrivals_onPohCtx, arrivals_putFlag, arrivals_set1, arrivals_wr]

/-- A period counts its errors and its REI, and nothing else that it does touches the counts or what has arrived. -/
theorem arrivals_pohPeriod (b : Nat) (l : List Byte) (computed : Option Byte) (t : Nat) :
    arrivals a (d.pohPeriod b l computed t) = arrivals a ((d.count (keyCtx O.BIP_ERRORS b)
      (pohBytes (isTu1 (d.pathType b)) l computed).errs).count (keyCtx O.REI_RX b) (pohBytes (isTu1 (d.pathType b)) l computed).rei) := by
  unfold Dev.pohPeriod
  dsimp -zeta only
  extract_lets k lo r x d1 sl aps code rr d2 d3 d4 d5 d6 d7
  have h2 : arrivals a d2 = arrivals a d1 := arrivals_onPohCtx d1 b _
  have h3 : arrivals a d3 = arrivals a d2 := by
    simp only [d3]
    split
    · exact (arrivals_capture _ b _).trans ((arrivals_wr _ b _ (by decide)).trans (arrivals_when d2 _ (arrivals_set1 d2 b 1 (by decide))))
    · rfl
  have h4 : arrivals a d4 = arrivals a d3 :=
    (arrivals_when _ _ (arrivals_acceptVal _ b b 2 r.label (by decide) (by decide))).trans
      (arrivals_when d3 _ (arrivals_set1 d3 b 0 (by decide)))
  have h5 : arrivals a d5 = arrivals a d4 := arrivals_when d4 _ (arrivals_acceptVal d4 b b 3 r.aps (by decide) (by decide))
  have h6 : arrivals a d6 = arrivals a d5 :=
    (arrivals_comparePath _ b).trans ((arrivals_putFld _ b 13 3 r.erdi (by decide)).trans (arrivals_putFlag d5 b 12 r.rdi (by decide)))
  have h7 : arrivals a d7 = arrivals a d6 := by
    refine (arrivals_onPmAcc _ b _).trans ?_
    split
    · rfl
    · exact arrivals_h4Work d6 b r.h4
  have hlast : arrivals a (if lo then d7.markerRx b t r.mark else d7) = arrivals a d7 := by
    split
    · exact arrivals_markerRx d7 b t r.mark
    · rfl
  rw [hlast, h7, h6, h5, h4, h3, h2]
  exact arrivals_berPeriod _ b r.errs

end

/-! ## Visits (R201 to R203) -/

/-- The device as a visit that is not held begins: HOLD is clear and what has arrived is taken. -/
def visitBegun (d : Dev) (a : Nat) : Dev := (d.putFlag (keyCtx O.POH_STATUS a) 6 false).onPathRx a (fun x => { x with todo := [] })

section
variable {d : Dev} {a : Nat}

theorem onPathRx_todo (f : PathRx → PathRx) : ((d.onPathRx a f).pathRxOf a).todo = (f (d.pathRxOf a)).todo := by
  simp [Dev.onPathRx, Dev.pathRxOf, smLook_smPut]

/-- The TUs of a container take none of the containers that have arrived. -/
theorem tuDeliver_todo (t : Nat) (raw : List Byte) : ((d.tuDeliver a t raw).pathRxOf a).todo = (d.pathRxOf a).todo := by
  unfold Dev.tuDeliver
  split
  case isTrue => rfl
  case isFalse =>
    refine (onPathRx_todo _).trans ?_
    dsimp only
    split_ifs <;> rfl

theorem tuDeliver_regs (t : Nat) (raw : List Byte) : (d.tuDeliver a t raw).regs = d.regs := by
  unfold Dev.tuDeliver
  split <;> rfl

theorem count_pathRx (k : Key) (n : Nat) : (d.count k n).pathRx = d.pathRx := by
  unfold Dev.count
  split
  · split <;> rfl
  · rfl

theorem rd_count_congr {e : Dev} {k : Key} (n : Nat) (h : e.rd k = d.rd k) : (e.count k n).rd k = (d.count k n).rd k := by
  unfold Dev.count
  split
  · split <;> simp only [Dev.countWrap, Dev.countSat, rd_wr_same, h]
  · exact h

/-- A status bit leaves the type of a path in force. -/
theorem pathType_putFlag (i : Nat) (x : Bool) : (d.putFlag (keyCtx O.POH_STATUS a) i x).pathType a = d.pathType a := by
  have hkey : keyCtx O.POH_STATUS a ≠ O.ACTIVE_BANK := fun he => keyCtx_ne_keyCtx (o' := O.ACTIVE_BANK) a 0 (by decide) he
  have hactive : (d.putFlag (keyCtx O.POH_STATUS a) i x).active = d.active := active_wr d _ hkey
  simp only [Dev.pathType, Dev.genA, hactive]

theorem pohVisit_rests (h : d.runs gPoh = false ∨ provisioned d.active a = false) : pohVisit d a = d := by
  refine if_pos ?_
  rcases h with h | h <;> simp [h]

variable (hruns : d.runs gPoh = true) (hprov : provisioned d.active a = true)
include hruns hprov

theorem pohVisit_open : (!(d.runs gPoh && provisioned d.active a)) = false := by rw [hruns, hprov]; rfl

theorem pohVisit_held (hheld : d.pohHeld a = true) : pohVisit d a =
    ((d.putFlag (keyCtx O.POH_STATUS a) 6 true).onPathRx a (fun x => { x with todo := [] })).onPohCtx a
      (fun x => { x with rei := some 0, trace := { x.trace.broken with buf := [] } }) := by
  simp [pohVisit, pohVisit_open hruns hprov, hheld]

theorem pohVisit_works (hheld : d.pohHeld a = false) : pohVisit d a = (d.pathRxOf a).todo.foldl (fun y c =>
    (y.pohPeriod a (pohOfCont (y.pathType a) c.bytes) c.bip c.stamp).tuDeliver a c.stamp c.bytes) (visitBegun d a) := by
  simp [pohVisit, pohVisit_open hruns hprov, hheld, visitBegun]

end

section
variable (d : Dev) (a : Nat)

theorem visitBegun_todo : ((visitBegun d a).pathRxOf a).todo = [] := onPathRx_todo _

theorem visitBegun_pathType : (visitBegun d a).pathType a = d.pathType a := pathType_putFlag 6 false

theorem rd_visitBegun {o : ObjId} (h : O.POH_STATUS ≠ o) : (visitBegun d a).rd (keyCtx o a) = d.rd (keyCtx o a) :=
  rd_putFlag_ne d 6 false (keyCtx_ne a h)

/-- A container's visit takes it and counts what its overhead bytes show. -/
theorem visitOf_container (c : RxCont) :
    let b := pohBytes (isTu1 (d.pathType a)) (pohOfCont (d.pathType a) c.bytes) c.bip
    let e := ((visitBegun d a).pohPeriod a (pohOfCont ((visitBegun d a).pathType a) c.bytes) c.bip c.stamp).tuDeliver a c.stamp c.bytes
    (e.pathRxOf a).todo = []
      ∧ e.rd (keyCtx O.BIP_ERRORS a) = (d.count (keyCtx O.BIP_ERRORS a) b.errs).rd (keyCtx O.BIP_ERRORS a)
      ∧ e.rd (keyCtx O.REI_RX a) = (d.count (keyCtx O.REI_RX a) b.rei).rd (keyCtx O.REI_RX a) := by
  intro b e
  have hperiod := arrivals_pohPeriod (a := a) (visitBegun d a) a (pohOfCont (d.pathType a) c.bytes) c.bip c.stamp
  rw [visitBegun_pathType] at hperiod
  simp only [arrivals, Prod.mk.injEq] at hperiod
  obtain ⟨hpath, hbip, hrei⟩ := hperiod
  have hregs : ∀ k : Key, e.rd k = ((visitBegun d a).pohPeriod a (pohOfCont (d.pathType a) c.bytes) c.bip c.stamp).rd k := by
    intro k
    rw [← visitBegun_pathType]
    exact rd_of_regs (tuDeliver_regs _ _) k
  have hcounters : keyCtx O.BIP_ERRORS a ≠ keyCtx O.REI_RX a := keyCtx_ne a (by decide)
  refine ⟨?taken, ?bip, ?rei⟩
  case taken =>
    refine (tuDeliver_todo _ _).trans ?_
    rw [visitBegun_pathType, Dev.pathRxOf, hpath, count_pathRx, count_pathRx]
    exact visitBegun_todo d a
  case bip =>
    rw [hregs, hbip, rd_count_ne _ _ hcounters.symm]
    exact rd_count_congr _ (rd_visitBegun d a (by decide))
  case rei =>
    rw [hregs, hrei]
    exact rd_count_congr _ ((rd_count_ne _ _ hcounters).trans (rd_visitBegun d a (by decide)))

end

/-- A visit leaves what its work makes of the device, with the defect visit of a VC-3 in TUG-3 after it (R217). -/
theorem leaves_pohVisit {s : State} {a : Addr} {P : Dev → Prop} {d : Dev} (h : pohVisit s.dev a.toNat = d) (hd : P d) :
    ∃ e : Dev, P e ∧ leaves (.pohVisit a) s (if e.pathType a.toNat = 6 then defectVisit e a.toNat else e) := by
  refine ⟨d, hd, leaves_of_done rfl ?_⟩
  rw [h]
  simp only [beq_iff_eq]

/-! ## The delay marker (R211, R212) -/

section
variable {d : Dev} {a : Nat}

/-- A context that originates the marker. -/
def originates (d : Dev) (a : Nat) : Prop :=
  d.runs gPoh = true ∧ provisioned d.active a = true ∧ d.pohMaster a = a ∧ d.markerMode a = 2

theorem markerTick_rests (hticked : (d.pohOf a).marker.ticked = true) (hback : (d.pohOf a).marker.back = false)
    (hretry : (d.pohOf a).marker.retry = false) : markerTick d a = d := by
  simp [markerTick, hticked, hback, hretry]

theorem markerTx_edge (hmode : d.markerMode a = 2) (hedge : (d.pohOf a).marker.edge = true) :
    d.markerTx a = ((d.wr (keyCtx O.MARKER_TX_EDGE a) d.time).putFlag (keyCtx O.POH_STATUS a) 4 true).onPohCtx a
      (fun x => { x with marker := { (d.pohOf a).marker with edge := false } }) := by
  simp [Dev.markerTx, hmode, hedge, Dev.set1]

variable (horig : originates d a)
include horig

theorem markerTick_toggles (h : (d.pohOf a).marker.ticked = false ∨ (d.pohOf a).marker.back = true ∨ (d.pohOf a).marker.retry = true) :
    markerTick d a = d.onPohCtx a (fun x => { x with marker :=
      { (d.pohOf a).marker with tx := !(d.pohOf a).marker.tx, back := false, ticked := true, retry := false, edge := true } }) := by
  obtain ⟨hruns, hprov, hmaster, hmode⟩ := horig
  refine if_pos ?_
  rcases h with h | h | h <;> simp [hruns, hprov, hmaster, hmode, h]

theorem markerLost_shows (hticked : (d.pohOf a).marker.ticked = true) (hback : (d.pohOf a).marker.back = false) :
    markerLost d a = (d.putFlag (keyCtx O.POH_STATUS a) 5 true).onPohCtx a
      (fun x => { x with marker := { (d.pohOf a).marker with retry := true } }) := by
  obtain ⟨hruns, hprov, hmaster, hmode⟩ := horig
  simp [markerLost, hruns, hprov, hmaster, hmode, hticked, hback]

end

/-! ## The selected context and the writes of a host (R77, R208, R214) -/

section
variable {d : Dev} {m : Master} {gate : Nat} (hgate : d.gateOn gate = true)
include hgate

theorem onContext_applies (f : Nat → Dev → Dev × Nat) (hlevel : adLevel (d.selected m) = 1 ∨ adLevel (d.selected m) = 2)
    (hrecord : d.hasRecord (d.selected m) = true) : d.onContext m gate [1, 2] f = f (d.selected m) d := by
  have hsome : d.selected m ≠ 0 := fun h0 => by rw [h0] at hlevel; revert hlevel; decide
  have hlevels : [1, 2].contains (adLevel (d.selected m)) = true := by rcases hlevel with h | h <;> rw [h] <;> rfl
  simp only [Dev.onContext, hgate, hlevels, hrecord, beq_false_of_ne hsome]
  rfl

theorem onContext_missing (levels : List Nat) (f : Nat → Dev → Dev × Nat) (hrecord : d.hasRecord (d.selected m) = false) :
    d.onContext m gate levels f = (d, abNoContext) := by
  simp [Dev.onContext, hgate, hrecord]

end

/-- A write that keeps the `rsvd` fields is not marked. -/
theorem rsvdCheck_clear {old v mask : Nat} (r : Dev × Nat) (h : (old ^^^ v) &&& mask = 0) : rsvdCheck old v mask r = r := by
  unfold rsvdCheck
  rw [h]
  split
  case isTrue hok =>
    obtain ⟨d, code⟩ := r
    obtain rfl : code = 0 := eq_of_beq hok
    simp only [bne_self_eq_false, Bool.or_false]
  case isFalse => rfl

/-- ONE_BIP lies outside the `rsvd` bits of POH_TEST. -/
theorem xor_oneBip_and_rsvd (v : Nat) : (v ^^^ (v ||| 2)) &&& 0xF0 = 0 := by
  refine Nat.eq_of_testBit_eq fun i => ?_
  have houtside : (Nat.testBit 2 i && Nat.testBit 0xF0 i) = false := by
    rw [← Nat.testBit_and]
    exact Nat.zero_testBit i
  simp only [Nat.testBit_and, Nat.testBit_xor, Nat.testBit_or, Nat.zero_testBit]
  revert houtside
  cases Nat.testBit v i <;> simp

/-- A value that carries ONE_BIP keeps it as it is applied. -/
theorem pohTestApply_oneBip (d : Dev) (a : Nat) : pohTestApply a (d.rd (keyCtx O.POH_TEST a) ||| 2) d =
    d.wr (keyCtx O.POH_TEST a) (d.rd (keyCtx O.POH_TEST a) ||| 2) := by
  have hor : ∀ v : Nat, (v ||| 2) ||| (v &&& 2) = v ||| 2 := by
    intro v
    refine Nat.eq_of_testBit_eq fun i => ?_
    simp only [Nat.testBit_or, Nat.testBit_and]
    cases Nat.testBit v i <;> cases Nat.testBit 2 i <;> rfl
  simp only [pohTestApply, hor]

/-- The device with the capture of a master armed on its selected context. -/
def captureArmed (d : Dev) (m : Master) : Dev :=
  { d.wr (keyOf O.TRACE_CAPTURE (masterNo m)) 1 with
    captures := d.captures.filter (fun c => c.1 != masterNo m) ++ [(masterNo m, d.selected m)] }

theorem captureArmed_undoc (d : Dev) (m : Master) : (captureArmed d m).undoc = d.undoc := by simp [captureArmed]

section
variable {d : Dev} {m : Master} (hgate : d.gateOn gPoh = true)
include hgate

theorem traceCaptureWrite_missing (hrecord : d.hasRecord (d.selected m) = false) (v : Nat) : traceCaptureWrite m v d = (d, abNoContext) :=
  onContext_missing hgate _ _ hrecord

theorem oneBip_missing (hrecord : d.hasRecord (d.selected m) = false) : oneBip m d = (d, abNoContext) := onContext_missing hgate _ _ hrecord

variable (hlevel : adLevel (d.selected m) = 1 ∨ adLevel (d.selected m) = 2) (hrecord : d.hasRecord (d.selected m) = true)
include hlevel hrecord

theorem traceCaptureWrite_arms : traceCaptureWrite m 1 d = (captureArmed d m, 0) := onContext_applies hgate _ hlevel hrecord

theorem oneBip_shadow (hshadow : d.inShadow = true) : oneBip m d = (d, abRefused) :=
  (onContext_applies hgate _ hlevel hrecord).trans
    ((rsvdCheck_clear _ (xor_oneBip_and_rsvd _)).trans (writeTogether_shadow _ _ _ hshadow))

theorem oneBip_alone (hshadow : d.inShadow = false) (hrelay : (d.inService && d.paired && d.shadowReady) = false) :
    oneBip m d = (d.wr (keyCtx O.POH_TEST (d.selected m)) (d.rd (keyCtx O.POH_TEST (d.selected m)) ||| 2), 0) := by
  refine (onContext_applies hgate _ hlevel hrecord).trans ((rsvdCheck_clear _ (xor_oneBip_and_rsvd _)).trans ?_)
  rw [writeTogether_alone _ _ hshadow hrelay, pohTestApply_oneBip]

end

/-! ## The statement -/

/-- Settles O37: the visit by what holds it and what has arrived, the marker by whether a toggle waits for its answer, then the host's two
writes by the selected context. -/
theorem pathOverheadWork : Obligations.PathOverheadWork := by
  unfold Obligations.PathOverheadWork
  refine ⟨fun s a => ⟨fun h => ?rests, fun hruns hprov => ⟨fun hheld => ?held, fun hheld => ⟨fun hnone => ?empty, fun c hone => ?container⟩,
    fun hmode hmaster => ⟨fun hticked hback => ?lost, fun h => ?toggles⟩, fun hticked hback hretry => ?waits⟩,
    fun hmode hedge => markerTx_edge hmode hedge⟩, fun s m hr => ?host⟩
  case rests => exact leaves_pohVisit (pohVisit_rests h) rfl
  case held => exact leaves_pohVisit (pohVisit_held hruns hprov hheld) rfl
  case empty =>
    have hvisit := pohVisit_works hruns hprov hheld
    rw [hnone] at hvisit
    exact leaves_pohVisit hvisit rfl
  case container =>
    have hvisit := pohVisit_works hruns hprov hheld
    rw [hone] at hvisit
    exact leaves_pohVisit hvisit (visitOf_container s.dev a.toNat c)
  case lost => exact leaves_of_done rfl (markerLost_shows ⟨hruns, hprov, hmaster, hmode⟩ hticked hback)
  case toggles => exact leaves_of_done rfl (markerTick_toggles ⟨hruns, hprov, hmaster, hmode⟩ h)
  case waits => exact leaves_of_done rfl (markerTick_rests hticked hback hretry)
  case host =>
    have hundoc := disarmed_undoc hr
    intro d a hgate
    refine ⟨fun hlevel hrecord => ⟨?capture, fun hshadow hrelay => ?oneBip, fun hshadow => ?refused⟩, fun hrecord => ⟨?noCapture, ?noBip⟩⟩
    case capture => exact leaves_of_hostNum rfl hr (traceCaptureWrite_arms hgate hlevel hrecord) ((captureArmed_undoc _ m).trans hundoc)
    case oneBip => exact leaves_of_hostNum rfl hr (oneBip_alone hgate hlevel hrecord hshadow hrelay) hundoc
    case refused => exact leaves_of_hostNum rfl hr (oneBip_shadow hgate hlevel hrecord hshadow) hundoc
    case noCapture => exact leaves_of_hostNum rfl hr (traceCaptureWrite_missing hgate hrecord 1) hundoc
    case noBip => exact leaves_of_hostNum rfl hr (oneBip_missing hgate hrecord) hundoc

end Sys2Proof.Proofs
end

section
/-!
PROOFS. The ticks of the performance monitor (R234 to R237): the second that a tick ends and the one that it starts, the flywheel and
PPS_IN, and what a tick that takes effect seals.
-/
namespace Sys2Proof.Proofs
open Sys2Proof Sys2Proof.Machine

/-! ## Fields of the status word (PM_TIME_STATUS, Table PF-10) -/

theorem fld_putFld_same (d : Dev) (k : Key) (x : Nat) {lo w : Nat} (h : lo + w ≤ 64) : (d.putFld k lo w x).fld k lo w = x % 2 ^ w := by
  rw [Dev.fld, Dev.putFld, rd_wr_same, bits_congr_mod (Nat.mod_mod _ _) h, bits_putBits_same]

theorem fld_set1_below (d : Dev) (k : Key) {lo w i : Nat} (h : lo + w ≤ i) (hw : lo + w ≤ 64) : (d.set1 k i).fld k lo w = d.fld k lo w := by
  rw [Dev.fld, Dev.set1, Dev.putFlag, Dev.putFld, rd_wr_same, bits_congr_mod (Nat.mod_mod _ _) hw, bits_putBits_below _ _ _ h, Dev.fld]

/-! ## The tick (R234) -/

/-- A tick has ended the second of `d` and given the next its number: the old one plus 1, or the written one. -/
def Ticked (d e : Dev) : Prop :=
  e.rd O.LAST_TICK = d.time ∧ e.pmTime.due = true ∧ e.pmTime.ended = d.pmTime.current
    ∧ (d.pmTime.written = false → d.pmTime.started = true → e.pmTime.current = (d.pmTime.current + 1) % 2 ^ 32
      ∧ e.rd O.PM_SECOND = (d.pmTime.current + 1) % 2 ^ 32)
    ∧ (d.pmTime.written = true → e.pmTime.current = d.rd O.PM_SECOND)

/-- The number of the second that a device's own tick starts. -/
def nextSecond (d : Dev) : Nat :=
  if d.pmTime.written then d.rd O.PM_SECOND else if d.pmTime.started then (d.pmTime.current + 1) % 2 ^ 32 else 0

/-- An irregular tick marks the status word alone. -/
theorem tick_rd (d : Dev) (irregular : Bool) {k : Key} (h : O.PM_TIME_STATUS ≠ k) :
    (d.tick irregular none).rd k = ((d.wr O.PM_SECOND (nextSecond d)).wr O.LAST_TICK d.time).rd k := by
  cases irregular
  · rfl
  · exact rd_set1_ne _ 6 h

theorem tick_ticked (d : Dev) (irregular : Bool) : Ticked d (d.tick irregular none) := by
  have htime : (d.tick irregular none).rd O.LAST_TICK = d.time := by
    rw [tick_rd d irregular (by decide), rd_wr_same]
    exact Nat.mod_eq_of_lt (rd_lt d _)
  have hnumber : (d.tick irregular none).rd O.PM_SECOND = nextSecond d % 2 ^ 64 := by
    rw [tick_rd d irregular (by decide), rd_wr_ne _ _ (by decide), rd_wr_same]
  have hended : (d.tick irregular none).pmTime.ended = d.pmTime.current := by cases irregular <;> rfl
  have hcurrent : (d.tick irregular none).pmTime.current = nextSecond d := rfl
  refine ⟨htime, rfl, hended, fun hwritten hstarted => ?counted, fun hwritten => ?written⟩
  case counted =>
    have hnext : nextSecond d = (d.pmTime.current + 1) % 2 ^ 32 := by simp [nextSecond, hwritten, hstarted]
    rw [hcurrent, hnumber, hnext]
    exact ⟨rfl, by omega⟩
  case written => rw [hcurrent, nextSecond, if_pos hwritten]

/-- A tick leaves the qualification of PPS_IN. -/
theorem tick_qualification (d : Dev) (irregular : Bool) : (d.tick irregular none).fld O.PM_TIME_STATUS 0 2 = d.fld O.PM_TIME_STATUS 0 2 := by
  have hwr : ((d.wr O.PM_SECOND (nextSecond d)).wr O.LAST_TICK d.time).fld O.PM_TIME_STATUS 0 2 = d.fld O.PM_TIME_STATUS 0 2 := by
    rw [Dev.fld, rd_wr_ne _ _ (by decide), rd_wr_ne _ _ (by decide), Dev.fld]
  refine Eq.trans ?_ hwr
  cases irregular
  · rfl
  · exact fld_set1_below _ _ (by decide) (by decide)

/-! ## PPS_IN (R235) -/

/-- PPS_IN as its qualification changes to `x`, with event `i` of the status word, after `good` good intervals. -/
def ppsTurned (d : Dev) (x i good : Nat) : Dev :=
  ((d.putFld O.PM_TIME_STATUS 0 2 x).set1 O.PM_TIME_STATUS i).onPmTime (fun t => { t with good := good })

theorem ppsTurned_tick (d : Dev) (irregular : Bool) {x i good : Nat} (hx : x < 4) (hi : 2 ≤ i) :
    Ticked d ((ppsTurned d x i good).tick irregular none)
      ∧ ((ppsTurned d x i good).tick irregular none).fld O.PM_TIME_STATUS 0 2 = x := by
  have hrd : ∀ k : Key, O.PM_TIME_STATUS ≠ k → (ppsTurned d x i good).rd k = d.rd k := fun k hk =>
    (rd_set1_ne _ i hk).trans (rd_putFld_ne d 0 2 x hk)
  constructor
  · have hticked := tick_ticked (ppsTurned d x i good) irregular
    have htime : (ppsTurned d x i good).time = d.time := hrd _ (by decide)
    unfold Ticked at hticked
    rw [htime, hrd O.PM_SECOND (by decide)] at hticked
    exact hticked
  · have hset : (ppsTurned d x i good).fld O.PM_TIME_STATUS 0 2 = x % 2 ^ 2 :=
      (fld_set1_below _ _ hi (by decide)).trans (fld_putFld_same d _ x (by decide))
    rw [tick_qualification, hset]
    exact Nat.mod_eq_of_lt hx

/-- Whether an edge that ticks ends an irregular second: the last tick is not a good interval away. -/
def irregularAfter (d : Dev) (since : Nat) : Bool := !(999900000 ≤ since && since ≤ 1000100000) && d.pmTime.started

section
variable {d : Dev} (hown : d.ticksOwn = true)
include hown

theorem ticksOwn_parts : d.inBoot = false ∧ d.flag O.CLAMP_CAUSE 0 = false ∧ d.tickFollows = false := by
  simpa [Dev.ticksOwn, and_assoc] using hown

theorem flywheelTick_ticks (hfree : d.flag O.PM_TIME_STATUS 0 = false) : flywheelTick d = d.tick false none := by
  simp [flywheelTick, hown, hfree]

theorem ppsLoss_ticks (hqualified : d.flag O.PM_TIME_STATUS 0 = true) : ppsLoss d = (ppsTurned d 0 4 0).tick false none := by
  obtain ⟨hboot, -, -⟩ := ticksOwn_parts hown
  simp only [ppsLoss, hboot, hqualified, hown]
  rfl

variable {falling : Bool} {interval since : Nat}

section
variable (hon : bit (d.genA O.PM_TIME_CTRL) 0 = true) (hedge : bit (d.genA O.PM_TIME_CTRL) 1 = falling)
  (hgood : 999900000 ≤ interval ∧ interval ≤ 1000100000)
include hon hedge hgood

theorem ppsEdge_ticks (hqualified : d.flag O.PM_TIME_STATUS 0 = true) :
    ppsEdge d falling interval since = d.tick (irregularAfter d since) none := by
  obtain ⟨hboot, hclock, hfollows⟩ := ticksOwn_parts hown
  obtain ⟨hlo, hhi⟩ := hgood
  simp [ppsEdge, hboot, hclock, hfollows, hon, hedge, hqualified, hlo, hhi, irregularAfter]

theorem ppsEdge_counts (hfree : d.flag O.PM_TIME_STATUS 0 = false) (hfew : d.pmTime.good < 2) :
    ppsEdge d falling interval since = { d with pmTime := { d.pmTime with good := d.pmTime.good + 1 } } := by
  obtain ⟨hboot, hclock, -⟩ := ticksOwn_parts hown
  obtain ⟨hlo, hhi⟩ := hgood
  have hmore : d.pmTime.good + 1 < 3 := by omega
  simp [ppsEdge, hboot, hclock, hon, hedge, hfree, hlo, hhi, hmore, Dev.onPmTime]

/-- The third good interval qualifies the input, and its edge ticks where half a second has passed since the last tick. -/
theorem ppsEdge_qualifies (hfree : d.flag O.PM_TIME_STATUS 0 = false) (htwo : d.pmTime.good = 2) (hsince : 500000000 ≤ since) :
    ppsEdge d falling interval since = (ppsTurned d 3 5 3).tick (irregularAfter d since) none := by
  obtain ⟨hboot, hclock, hfollows⟩ := ticksOwn_parts hown
  obtain ⟨hlo, hhi⟩ := hgood
  have hlate : ¬ since < 500000000 := by omega
  simp [ppsEdge, hboot, hclock, hfollows, hon, hedge, hfree, hlo, hhi, htwo, hlate, irregularAfter, ppsTurned]

end
end

theorem flywheelTick_rests {d : Dev} (hqualified : d.flag O.PM_TIME_STATUS 0 = true) : flywheelTick d = d := by
  simp [flywheelTick, hqualified]

theorem ppsEdge_rests {d : Dev} {falling : Bool} (interval since : Nat)
    (h : bit (d.genA O.PM_TIME_CTRL) 0 = false ∨ bit (d.genA O.PM_TIME_CTRL) 1 ≠ falling) : ppsEdge d falling interval since = d := by
  rcases h with hoff | hother
  · simp [ppsEdge, hoff]
  · simp [ppsEdge, hother]

/-! ## The second that closes (R236) -/

/-- A tick has taken effect on `d`: the second that ended is closed, and each context's share of it is sealed while the monitor runs. -/
def Sealed (d e : Dev) : Prop :=
  e.pmTime.due = false ∧ e.pmTime.closed = d.pmTime.ended ∧ e.pins.tick = some d.elapsed
    ∧ e.pm.map (·.1) = d.contexts ∧ (d.runs gPm = true → ∀ q ∈ e.pm, q.2.sealed = some (smLook {} d.pm q.1).acc ∧ q.2.closed = false)

theorem tickEffect_sealed {d : Dev} (hown : d.tickFollows = false) (hdue : d.pmTime.due = true) : Sealed d (tickEffect d) := by
  unfold tickEffect
  simp only [hown, Bool.false_and, Bool.false_eq_true, if_false, hdue, Bool.not_true]
  refine ⟨rfl, rfl, rfl, ?records, fun hruns q hq => ?second⟩
  case records => simp [List.map_map, Function.comp_def]
  case second =>
    obtain ⟨a, -, rfl⟩ := List.mem_map.mp hq
    simp [hruns]

/-! ## The statement -/

/-- Settles O39: each command's tick by the state of PPS_IN, then the effect of a tick that is due. -/
theorem ticks : Obligations.Ticks := by
  unfold Obligations.Ticks
  intro s
  refine ⟨fun hown hfree => ?flywheel, fun hqualified => ?held, fun hown hqualified => ?lost, fun falling interval since hown =>
    ⟨fun h => ?other, fun hon hedge hgood => ⟨fun hqualified => ?edge, fun hfree hfew => ?third, fun hfree htwo hsince => ?qualified⟩⟩,
    fun hfollows hdue => ?effect⟩
  case flywheel => exact ⟨_, leaves_of_done rfl (flywheelTick_ticks hown hfree), tick_ticked s.dev false⟩
  case held => exact leaves_of_done rfl (flywheelTick_rests hqualified)
  case lost => exact ⟨_, leaves_of_done rfl (ppsLoss_ticks hown hqualified), ppsTurned_tick s.dev false (by decide) (by decide)⟩
  case other => exact leaves_of_done rfl (ppsEdge_rests interval since h)
  case edge => exact ⟨_, leaves_of_done rfl (ppsEdge_ticks hown hon hedge hgood hqualified), tick_ticked s.dev _⟩
  case third => exact leaves_of_done rfl (ppsEdge_counts hown hon hedge hgood hfree hfew)
  case qualified =>
    exact ⟨_, leaves_of_done rfl (ppsEdge_qualifies hown hon hedge hgood hfree htwo hsince),
      ppsTurned_tick s.dev _ (by decide) (by decide)⟩
  case effect => exact ⟨_, leaves_of_done rfl rfl, tickEffect_sealed hfollows hdue⟩

end Sys2Proof.Proofs
end

section
/-!
PROOFS. What an event leaves as it is (R386 to R395), once for everything that fault collection does not touch: a value read off the device
that no dictionary value and none of the parts that an event updates enters.
-/
namespace Sys2Proof.Proofs
open Sys2Proof Sys2Proof.Machine

/-- A value read off the device in which the updates of an event do not show. -/
structure EventBlind {α : Type} (φ : Dev → α) : Prop where
  wr : ∀ (d : Dev) (k : Key) (v : Nat), φ (d.wr k v) = φ d
  onCan : ∀ (d : Dev) (f : Can → Can), φ (d.onCan f) = φ d
  onProv : ∀ (d : Dev) (f : Prov → Prov), φ (d.onProv f) = φ d
  onMode : ∀ (d : Dev) (f : ModeSt → ModeSt), φ (d.onMode f) = φ d
  onClk : ∀ (d : Dev) (f : Clk → Clk), φ (d.onClk f) = φ d
  onComa : ∀ (d : Dev) (f : Coma → Coma), φ (d.onComa f) = φ d
  onPair : ∀ (d : Dev) (f : PairSt → PairSt), φ (d.onPair f) = φ d
  onSec : ∀ (d : Dev) (f : Sec → Sec), φ (d.onSec f) = φ d
  onOut : ∀ (d : Dev) (f : Out → Out), φ (d.onOut f) = φ d
  pmBreak : ∀ d : Dev, φ d.pmBreak = φ d

theorem when_keeps {α : Type} {φ : Dev → α} {f : Dev → Dev} (hf : ∀ x : Dev, φ (f x) = φ x) (d : Dev) (c : Bool) :
    φ (d.when c f) = φ d := by
  cases c
  · rfl
  · exact hf d

theorem foldl_keeps {α β : Type} {φ : Dev → α} {f : Dev → β → Dev} (hf : ∀ (x : Dev) (i : β), φ (f x i) = φ x) (l : List β) (d : Dev) :
    φ (l.foldl f d) = φ d := by
  rw [← List.foldl_hom φ (g₂ := fun x _ => x) (fun x i => (hf x i).symm), List.foldl_fixed]

namespace EventBlind
variable {α : Type} {φ : Dev → α} (h : EventBlind φ) (d : Dev)
include h

theorem putFld (k : Key) (lo w x : Nat) : φ (d.putFld k lo w x) = φ d := h.wr d k _

theorem putFlag (k : Key) (i : Nat) (b : Bool) : φ (d.putFlag k i b) = φ d := h.wr d k _

theorem set1 (k : Key) (i : Nat) : φ (d.set1 k i) = φ d := h.wr d k _

theorem count (k : Key) (n : Nat) : φ (d.count k n) = φ d := by
  unfold Dev.count
  split
  · split <;> exact h.wr d k _
  · rfl

theorem sendMate (m : MateMsg) : φ (d.sendMate m) = φ d := h.onOut d _

theorem putWindow (w : Window) : φ (d.putWindow w) = φ d := h.onComa d _

theorem closeWindows : φ d.closeWindows = φ d := h.onComa d _

theorem upset (outcome : Nat) : φ (d.upset outcome) = φ d := by
  unfold Dev.upset
  split
  · exact h.onProv d _
  · rfl

theorem setDebug (level : Nat) (forced : Bool) : φ (d.setDebug level forced) = φ d := by
  unfold Dev.setDebug
  split
  case isTrue => rfl
  case isFalse =>
    rw [h.onSec, Dev.privateStatus, h.putFlag, when_keeps (fun x => h.putFlag x _ _ _), when_keeps (fun x => h.set1 x _ _), h.upset,
      h.set1, h.wr]

theorem recordMode (m : Nat) : φ (d.recordMode m) = φ d := by
  have hcap : ∀ (x : Dev) (cap : Nat), φ (x.capDebug cap) = φ x := by
    intro x cap
    unfold Dev.capDebug
    split
    · exact h.setDebug x cap true
    · rfl
  rw [Dev.recordMode, h.pmBreak, h.onPair, h.wr, h.onMode, hcap, h.set1, h.count, h.wr, h.putFlag, h.putFld, h.putFld]

theorem setPairState (n : Nat) : φ (d.setPairState n) = φ d := by
  unfold Dev.setPairState
  dsimp only
  split
  · exact h.putFld d _ _ _ n
  · rw [h.onPair, h.putFld]

theorem cancelSched (outcome : Nat) : φ (d.cancelSched outcome) = φ d := by
  have hlower : ∀ (x : Dev) (n : Nat), φ (x.startLower n) = φ x := fun x n => by rw [Dev.startLower, h.onClk, h.putFld, h.putFlag]
  have hended : ∀ c : Bool, φ ((d.unschedule outcome).when c (fun x => x.sendMate .commitCancel)) = φ d := fun c => by
    rw [when_keeps (fun x => h.sendMate x _), Dev.unschedule, h.onProv, h.wr, h.wr]
  unfold Dev.cancelSched
  split
  · rfl
  · dsimp only
    split_ifs
    · exact hended _
    · rw [hlower, hended]
    · exact hended _

theorem cancelEarly (outcome : Nat) : φ (d.cancelEarly outcome) = φ d := by
  unfold Dev.cancelEarly
  split
  · split
    · rfl
    · exact h.cancelSched d outcome
  · exact h.upset d outcome

theorem releaseClaim (cause : Nat) (own : Bool) : φ (d.releaseClaim cause own) = φ d := by
  rw [Dev.releaseClaim, when_keeps (fun x => h.putFlag x _ _ _), h.wr, h.setPairState, h.recordMode, h.cancelEarly, h.sendMate,
    Dev.stopClaim, h.putFlag, h.putFlag, h.putFlag]

theorem sendCan (cob : Nat) (data : List Byte) : φ (d.sendCan cob data) = φ d := by
  unfold Dev.sendCan
  dsimp only
  split_ifs
  · rfl
  · exact h.onCan d _
  · exact h.onOut d _

theorem sendEmcy (data : List Byte) (seq : Option Nat) : φ (d.sendEmcy data seq).1 = φ d := by
  unfold Dev.sendEmcy
  split
  · rfl
  · split
    · rw [h.onCan, h.onComa, when_keeps (fun x => h.count x _ _)]
    · dsimp only
      split
      · exact h.sendCan d _ data
      · rw [h.onCan, h.sendCan]

theorem reactEnd (seq : Nat) : φ (d.reactEnd seq) = φ d := by
  have hhold : ∀ c : Bool, φ (d.when c (fun x => x.putFlag O.FAULT_N_CTRL 0 true)) = φ d := when_keeps (fun x => h.putFlag x _ _ _) d
  unfold Dev.reactEnd
  split
  · rfl
  · dsimp only
    split_ifs
    · rfl
    · rw [h.putWindow, hhold]
    · rw [h.closeWindows]
      split
      · rw [h.putWindow, h.sendEmcy, h.putWindow, hhold]
      · rw [h.sendEmcy, h.putWindow, hhold]
    · rw [h.closeWindows, h.sendEmcy, h.putWindow, hhold]

theorem react (seq : Nat) : φ (d.react seq) = φ d := by
  unfold Dev.react
  split
  · rfl
  · rw [h.reactEnd, when_keeps (fun x => h.releaseClaim x _ _), h.putWindow]

theorem writeEntry (e : Ev) (severe forced : Bool) : φ (d.writeEntry e severe forced) = φ d := by
  rw [Dev.writeEntry, when_keeps (fun x => h.count x _ _), h.onComa]

/-- An event changes no value that none of its updates shows in. -/
theorem raise (e : Ev) : φ (d.raise e) = φ d := by
  have hnoted : ∀ (x : Dev) (c : Bool) (f : Coma → Coma), φ (x.when c (fun y => y.onComa f)) = φ x := fun x c f =>
    when_keeps (fun y => h.onComa y f) x c
  unfold Dev.raise
  split
  · rfl
  · dsimp only
    split
    · split_ifs
      · rw [h.react, h.putWindow, hnoted, h.onComa, hnoted, hnoted]
      · rw [hnoted, h.onComa, hnoted, hnoted]
    · split_ifs
      · rw [h.react, h.onComa, hnoted, h.writeEntry, hnoted, hnoted]
      · rw [hnoted, h.writeEntry, hnoted, hnoted]

theorem memoryError (region offset : Nat) : φ (d.memoryError region offset) = φ d := by
  rw [Dev.memoryError, h.raise, h.onPair]

end EventBlind

end Sys2Proof.Proofs
end

section
/-!
PROOFS. The records of the performance monitor (R236 to R253): close-outs of paths and clients, the management controller's rollover, the
snapshot of the clients, and the accesses of a host.
-/
namespace Sys2Proof.Proofs
open Sys2Proof Sys2Proof.Machine

/-! ## What an event leaves of the monitor -/

theorem eventBlind_pm : EventBlind Dev.pm where
  wr _ _ _ := rfl
  onCan _ _ := rfl
  onProv _ _ := rfl
  onMode _ _ := rfl
  onClk _ _ := rfl
  onComa _ _ := rfl
  onPair _ _ := rfl
  onSec _ _ := rfl
  onOut _ _ := rfl
  pmBreak d := by unfold Dev.pmBreak; split <;> rfl

/-- The number of the second whose close-outs run. -/
def closedSecond (d : Dev) : Nat := d.pmTime.closed

theorem eventBlind_closedSecond : EventBlind closedSecond where
  wr _ _ _ := rfl
  onCan _ _ := rfl
  onProv _ _ := rfl
  onMode _ _ := rfl
  onClk _ _ := rfl
  onComa _ _ := rfl
  onPair _ _ := rfl
  onSec _ _ := rfl
  onOut _ _ := rfl
  pmBreak d := by unfold Dev.pmBreak; split <;> rfl

/-! ## Bins (R239, R245) -/

theorem bin_spoil (p : PmCtx) (i : Fin 4) : (p.spoil i.val).bin i.val = (p.bin i.val).spoiled := by
  fin_cases i <;> rfl

theorem spoil_closed (p : PmCtx) (i : Nat) : (p.spoil i).closed = p.closed := by
  unfold PmCtx.spoil
  split_ifs <;> rfl

/-- The first second toward a change of availability confirms none. -/
theorem runToward_first (un ses : Bool) : (runToward un ses 0).2 = false := by
  unfold runToward
  split <;> rfl

/-- A second that confirms no change of availability counts once in both current bins. -/
theorem count_secs {p : PmCtx} (hne : p.neRun = 0) (hfe : p.feRun = 0) (second : Nat) (x : PmSec) (ho irregular : Bool) :
    (p.count second x ho irregular).b15.cur.secs = p.b15.cur.secs + 1
      ∧ (p.count second x ho irregular).b24.cur.secs = p.b24.cur.secs + 1 := by
  have hput : ∀ (b : PmBin) (irr first : Bool),
      (if first then (if irr then b.flagged 2 else b).flagged 1 else if irr then b.flagged 2 else b).secs = b.secs := by
    intro b irr first
    cases irr <;> cases first <;> rfl
  simp only [PmCtx.count, hne, hfe, runToward_first, Bool.false_eq_true, if_false, hput, and_self]

/-! ## Close-outs of a path (R236, R240) -/

/-- The record of a path with its sealed second `x` counted, or missed, and its bins rolled over. -/
def closedRecord (d : Dev) (a : Nat) (x : PmSec) : PmCtx :=
  let p := smLook {} d.pm a
  let t := d.pmTime
  let p1 := if t.whole && !x.fresh then p.count t.closed x (adLevel a == 2) t.sealedIrr else p.miss t.closed t.sealedIrr
  { p1 with closed := true, b15 := p1.b15.close 900 t.current t.sealedShf t.ticks, b24 := p1.b24.close 86400 t.current t.sealedShf t.ticks }

section
variable {d : Dev} {a : Nat}

theorem closePath_counts {x : PmSec} (hsealed : (smLook {} d.pm a).sealed = some x) (hopen : (smLook {} d.pm a).closed = false)
    (hprov : provisioned d.active a = true) : closePath d a = { d with pm := smPut {} d.pm a (closedRecord d a x) } := by
  simp only [closePath, hsealed, hopen, hprov]
  rfl

theorem closePath_again (hclosed : (smLook {} d.pm a).closed = true) : closePath d a = d := by
  unfold closePath
  dsimp only
  split
  · rfl
  · simp [hclosed]

theorem closed_binSpoil_error (i : Nat) (hclosed : (smLook {} d.pm a).closed = true) :
    (smLook {} ((d.binSpoil a i).memoryErrorSomewhere 3).pm a).closed = true := by
  have hpm : ((d.binSpoil a i).memoryErrorSomewhere 3).pm = (d.binSpoil a i).pm := eventBlind_pm.memoryError _ _ _
  rw [hpm, Dev.binSpoil, smLook_smPut, if_pos rfl, spoil_closed, hclosed]

end

section
variable {d : Dev} {a : Addr} (i : Nat) (hruns : d.runs gPm = true) (hprov : provisioned d.active a.toNat = true)
include hruns hprov

theorem closeOut_clean : closeOut d .clean i (.path a) = closePath d a.toNat := by
  simp [closeOut, hruns, hprov, Dev.visitEcc, Dev.eccHit, Dev.when]

theorem closeOut_uncorrectable (hclosed : (smLook {} d.pm a.toNat).closed = true) :
    closeOut d .uncorrectable i (.path a) = (d.binSpoil a.toNat i).memoryErrorSomewhere 3 := by
  have hvisit : closeOut d .uncorrectable i (.path a) = closePath ((d.binSpoil a.toNat i).memoryErrorSomewhere 3) a.toNat := by
    simp [closeOut, hruns, hprov, Dev.visitEcc, Dev.eccHit, Dev.when]
  rw [hvisit, closePath_again (closed_binSpoil_error i hclosed)]

end

/-! ## Close-outs of a client (R245, R249) -/

/-- A second that was not whole counts for nothing. -/
theorem closeClient_missed {d : Dev} {c : Nat} {x : CpmSec} (hsealed : (smLook {} d.cpm c).sealed = some x) (hpart : d.pmTime.whole = false) :
    closeClient d c = (({ d with cpm := smPut {} d.cpm c { smLook ({} : CpmCtx) d.cpm c with sealed := none, run := 0, last := [] } }).putFlag
      (keyAt O.CPM_STATUS c) 0 false) := by
  simp [closeClient, hsealed, hpart]

section
variable (d : Dev) (c : Nat)

theorem cpmEvent_closedSecond (detail : Nat) (clear : Bool) : closedSecond (d.cpmEvent c detail clear) = closedSecond d :=
  eventBlind_closedSecond.raise d _

theorem cpmAlerts_closedSecond : closedSecond (d.cpmAlerts c) = closedSecond d := by
  have hone : ∀ (x : Dev) (i j : Nat) (now raised : Bool), closedSecond (if raised then
      ((x.putFlag (keyAt O.CPM_STATUS c) i now).set1 (keyAt O.CPM_STATUS c) j).cpmEvent c i
      else x.putFlag (keyAt O.CPM_STATUS c) i now) = closedSecond x := by
    intro x i j now raised
    cases raised
    · rfl
    · exact cpmEvent_closedSecond _ c i false
  exact (hone _ 2 4 _ _).trans (hone d 1 3 _ _)

theorem cpmChange_closedSecond (last : List (Bool × Bool)) (un : Bool) : closedSecond (d.cpmChange c last un) = closedSecond d := by
  unfold Dev.cpmChange
  dsimp only
  rw [cpmEvent_closedSecond]
  cases un <;> rfl

theorem closeClient_closedSecond : closedSecond (closeClient d c) = closedSecond d := by
  have hcount := eventBlind_closedSecond.count
  have hflip : ∀ (x : Dev) (flip un : Bool) (last : List (Bool × Bool)),
      closedSecond (x.when flip (fun y => y.cpmChange c last un)) = closedSecond x := fun x flip un last =>
    when_keeps (fun y => cpmChange_closedSecond y c last un) x flip
  unfold closeClient
  dsimp only
  split
  · rfl
  · split
    · rfl
    · rw [cpmAlerts_closedSecond, hflip]
      split
      · rw [hcount, hcount]; rfl
      · rw [hcount, hcount, hcount]; rfl

end

/-! ## Rollovers of the management controller (R237) -/

theorem managementRollover_rolls {d : Dev} (hboot : d.inBoot = false) (hclamp : d.clamped = false) (hidle : d.runs gPm = false) :
    managementRollover d = { d with pm := d.contexts.map (fun a =>
      let p := smLook {} d.pm a
      (a, { p with b15 := p.b15.roll 900 d.pmTime.current d.pmTime.sealedShf d.pmTime.ticks
                   b24 := p.b24.roll 86400 d.pmTime.current d.pmTime.sealedShf d.pmTime.ticks })) } := by
  simp [managementRollover, hboot, hclamp, hidle]

theorem managementRollover_rests {d : Dev} (hruns : d.runs gPm = true) : managementRollover d = d := by
  simp [managementRollover, hruns]

/-! ## Snapshots (R39, R252) -/

theorem pmSnapshot_rests {d : Dev} (hnone : d.pmTime.snap = false) : pmSnapshot d = d := by
  simp [pmSnapshot, hnone]

/-- A gated monitor lets a SYNC pass. -/
theorem pmSnapshot_gated {d : Dev} (hgate : d.gateOn gPm = false) : pmSnapshot d = d.onPmTime (fun t => { t with snap := false }) := by
  cases hsnap : d.pmTime.snap
  case true => simp [pmSnapshot, hsnap, hgate]
  case false =>
    have hsame : ({ d.pmTime with snap := false } : PmTime) = d.pmTime := by rw [← hsnap]
    rw [pmSnapshot_rests hsnap, Dev.onPmTime, hsame]

/-- The counters of a client copied to its entry of the snapshot. -/
def clientCopied (d : Dev) (c : Nat) : Dev :=
  d.wrStr (O.CPM_SNAPSHOT + c) ([O.CPM_ES, O.CPM_SES, O.CPM_UAT, O.CPM_SECONDS].flatMap (fun o => bytesBE 4 (d.rd (keyAt o c))))

theorem clientCopied_closedSecond (d : Dev) (c : Nat) : closedSecond (clientCopied d c) = closedSecond d := rfl

/-- The clients as a snapshot copies them: their close-outs come first. -/
def snapped (d : Dev) : Dev :=
  (List.range 32).foldl clientCopied (if d.runs gPm then (List.range 32).foldl closeClient d else d)

theorem snapped_closedSecond (d : Dev) : closedSecond (snapped d) = closedSecond d := by
  rw [snapped, foldl_keeps clientCopied_closedSecond]
  split
  · exact foldl_keeps closeClient_closedSecond _ d
  · rfl

theorem pmSnapshot_taken {d : Dev} (hsnap : d.pmTime.snap = true) (hgate : d.gateOn gPm = true) : pmSnapshot d =
    (((snapped d).wr O.SNAP_SECOND (closedSecond (snapped d))).count O.SNAP_COUNT 1).onPmTime (fun t => { t with snap := false }) := by
  simp only [pmSnapshot, hsnap, hgate]
  rfl

/-- A snapshot bears the number of the second that closed last. -/
theorem pmSnapshot_second {d : Dev} (hsnap : d.pmTime.snap = true) (hgate : d.gateOn gPm = true) :
    (pmSnapshot d).rd O.SNAP_SECOND = d.pmTime.closed % 2 ^ 64 := by
  rw [pmSnapshot_taken hsnap hgate, rd_of_regs (onPmTime_regs _ _), rd_count_ne _ _ (by decide), rd_wr_same, snapped_closedSecond]
  rfl

/-! ## Accesses of a host (R234, R246, R253, Table PF-10) -/

/-- A client whose counters, extremes and window a host clears. -/
def clientCleared (d : Dev) (c : Nat) : Dev :=
  let z := [O.CPM_ES, O.CPM_SES, O.CPM_UAT, O.CPM_SECONDS, O.DELAY_MAX, O.ASYM_MAX].foldl (fun w o => w.wr (keyAt o c) 0) d
  ({ z.wr (keyAt O.DELAY_MIN c) 0xFFFFFFFF with cpm := smPut {} z.cpm c { smLook ({} : CpmCtx) z.cpm c with window := [] } }).cpmAlerts c

theorem ungated_gated {d : Dev} {gate : Nat} (f : Dev → Dev × Nat) (hgate : d.gateOn gate = false) : d.ungated gate f = (d, 0) := by
  simp [Dev.ungated, hgate]

section
variable {d : Dev} (hgate : d.gateOn gPm = true)
include hgate

theorem pmSecondWrite_numbers (v : Nat) :
    pmSecondWrite v false d = ((d.wr O.PM_SECOND v).onPmTime (fun t => { t with written := true }), 0) := by
  simp [pmSecondWrite, Dev.ungated, hgate]

theorem pmSecondWrite_loses (v : Nat) : pmSecondWrite v true d = (d.putFlag O.PM_TIME_STATUS 7 true, 0) := by
  simp [pmSecondWrite, Dev.ungated, hgate, Dev.set1]

theorem pmClear_missing {m : Master} (hrecord : d.hasRecord (d.selected m) = false) (v : Nat) : pmClear m v d = (d, abNoContext) :=
  onContext_missing hgate _ _ hrecord

theorem pmClear_clears {m : Master} {v : Nat} (hlevel : adLevel (d.selected m) = 1 ∨ adLevel (d.selected m) = 2)
    (hrecord : d.hasRecord (d.selected m) = true) (hlo : 1 ≤ v) (hhi : v ≤ 3) : pmClear m v d =
      ({ d with pm := smPut {} d.pm (d.selected m) { smLook {} d.pm (d.selected m) with
        b15 := if bit v 0 then (smLook {} d.pm (d.selected m)).b15.clear else (smLook {} d.pm (d.selected m)).b15
        b24 := if bit v 1 then (smLook {} d.pm (d.selected m)).b24.clear else (smLook {} d.pm (d.selected m)).b24 } }, 0) := by
  have hvalue : ¬ (v < 1 ∨ 3 < v) := by omega
  rw [pmClear, onContext_applies hgate _ hlevel hrecord, if_neg (by simpa using hvalue)]

theorem cpmClear_clears (c : Nat) : cpmClear c 1 d = (clientCleared d c, 0) := by
  rw [cpmClear, Dev.ungated, if_pos hgate]
  rfl

theorem clientCleared_undoc (c : Nat) : (clientCleared d c).undoc = d.undoc := by
  have hcleared : clientCleared d c = (cpmClear c 1 d).1 := by rw [cpmClear_clears hgate]
  rw [hcleared]
  simp

end

/-! ## Reads of PM_BLOCK (R253) -/

/-- The row of PM_BLOCK (Table PF-8). -/
def pmBlockRow : ObjDef := { base := 0x3804, sub := 2, ty := .dom 64 4096, acc := .ro }

theorem findObj_pmBlock : findObj 0x3804 2 = some pmBlockRow := by decide +kernel

theorem indexExists_pmBlock : indexExists 0x3804 = true := by decide +kernel

theorem readObj_pmBlock {d : Dev} {m : Master} {len : Nat} (hgate : d.gateOn gPm = true) (hboot : d.inBoot = false) (hlen : len ≠ 0) :
    d.readObj m 0x3804 2 (some len) .clean = (d, { data := (pmBlock d m len).1, fin := .pmBlock m (pmBlock d m len).2 }) := by
  have hblock : gateBitOf 0x3804 = some gPm := rfl
  have hrunning : d.gatedObj pmBlockRow 0x3804 = false := by simp [Dev.gatedObj, hblock, hgate]
  have hbonded : d.bondedIndex 0x3804 = false := rfl
  have hacc : pmBlockRow.acc = .ro := rfl
  have hguard : pmBlockRow.guard = false := rfl
  have hlength : readLengthOk pmBlockRow.ty (some len) = true := by simpa [readLengthOk, pmBlockRow] using hlen
  have hcontext : contextCode d pmBlockRow (d.selected m) = 0 := by simp [contextCode, isContextField, pmBlockRow]
  have hvalue : valueOf d m pmBlockRow 0x3804 2 (d.selected m) (some len) =
      (d, { data := (pmBlock d m len).1, fin := .pmBlock m (pmBlock d m len).2 }) := rfl
  simp [Dev.readObj, readAt, hboot, indexExists_pmBlock, findObj_pmBlock, hrunning, hbonded, hacc, hguard, hlength, hcontext, Dev.eccHit,
    hvalue]

theorem leaves_pmBlockRead {s : State} {m : Master} {len : Nat} (hr : reachable s m) (hgate : s.dev.gateOn gPm = true) (hlen : len ≠ 0) :
    leaves (.pmBlockRead m { maxLen := len, complete := true, ecc := .clean }) s
      (answered (pmBlockDone s.dev m (pmBlockCount s.dev m len)) m 0 (pmBlock s.dev m len).1) := by
  have ⟨⟨hboot, hdoc⟩, _⟩ := hr
  have hheld : s.dev.heldBack 0x3804 2 false = false := by simp [Dev.heldBack, findObj_pmBlock, pmBlockRow]
  exact leaves_of_hostRead rfl hr rfl rfl hheld (readObj_pmBlock hgate hboot hlen) rfl hdoc

/-- The records of a read, one by one. -/
theorem pmBlock_data (d : Dev) (m : Master) (len : Nat) : (pmBlock d m len).1 =
    let sel := d.rd (keyOf O.PM_BLOCK_SELECT (masterNo m))
    (List.range (pmBlockCount d m len)).flatMap (fun i => (d.byNumber (bits sel 29 3) (bits sel 0 16 + i)).elim (List.replicate 64 0)
      (fun x => binBytes (bits sel 29 3 == 2) ((smLook {} d.pm x).bin (bits sel 16 2)))) := by
  refine congrArg (List.range (pmBlockCount d m len)).flatMap (funext fun i => ?_)
  unfold pmBlockRecord
  dsimp only
  split <;> simp [*]

/-! ## The statement -/

/-- Settles O40: the visits and the snapshot by the state that they meet, then the host's accesses by the gate and the selected context. -/
theorem pmRecords : Obligations.PmRecords := by
  unfold Obligations.PmRecords
  refine ⟨fun s => ⟨fun a x hruns hsealed hprov => ⟨fun bin hopen => ?closes, fun bin hclosed => ⟨?again, ?error⟩, fun bin => ?spoilt,
      fun _ _ hne hfe irregular ho => ?counted⟩,
    fun c x hruns hsealed hpart ecc bin => ?client, fun hboot hclamp hidle => ?rolls, fun hruns => ?rests, fun hnone => ?noSync,
    fun hgate => ?gated, fun hsnap hgate => ?snapshot⟩, fun s m hr => ?host⟩
  case closes => exact leaves_of_done rfl ((closeOut_clean _ hruns hprov).trans (closePath_counts hsealed hopen hprov))
  case again => exact leaves_of_done rfl ((closeOut_clean _ hruns hprov).trans (closePath_again hclosed))
  case error => exact leaves_of_done rfl (closeOut_uncorrectable _ hruns hprov hclosed)
  case spoilt =>
    dsimp only
    rw [bin_spoil]
    exact ⟨rfl, rfl, rfl, rfl⟩
  case counted => exact count_secs hne hfe _ _ ho irregular
  case client => exact leaves_of_done rfl ((if_pos hruns).trans (closeClient_missed hsealed hpart))
  case rolls => exact leaves_of_done rfl (managementRollover_rolls hboot hclamp hidle)
  case rests => exact leaves_of_done rfl (managementRollover_rests hruns)
  case noSync => exact leaves_of_done rfl (pmSnapshot_rests hnone)
  case gated => exact leaves_of_done rfl (pmSnapshot_gated hgate)
  case snapshot =>
    refine ⟨_, leaves_of_done rfl rfl, ?_, pmSnapshot_second hsnap hgate⟩
    rw [pmSnapshot_taken hsnap hgate]
    rfl
  case host =>
    have hundoc := disarmed_undoc hr
    refine ⟨fun hgate => ⟨fun v => ⟨?numbers, ?loses⟩, fun hlevel hrecord => ⟨?clear15, ?clear24, ?clearBoth⟩,
      fun hrecord => ⟨?missing15, ?missing24, ?missingBoth⟩, fun c => ?cpmClear⟩, fun hgate v b => ?discarded, fun hgate len hlen => ?block⟩
    case numbers => exact leaves_of_hostNum rfl hr (pmSecondWrite_numbers hgate v.toNat) hundoc
    case loses => exact leaves_of_hostNum rfl hr (pmSecondWrite_loses hgate v.toNat) hundoc
    case clear15 => exact leaves_of_hostNum rfl hr (pmClear_clears hgate hlevel hrecord (by decide) (by decide)) hundoc
    case clear24 => exact leaves_of_hostNum rfl hr (pmClear_clears hgate hlevel hrecord (by decide) (by decide)) hundoc
    case clearBoth => exact leaves_of_hostNum rfl hr (pmClear_clears hgate hlevel hrecord (by decide) (by decide)) hundoc
    case missing15 => exact leaves_of_hostNum rfl hr (pmClear_missing hgate hrecord 1) hundoc
    case missing24 => exact leaves_of_hostNum rfl hr (pmClear_missing hgate hrecord 2) hundoc
    case missingBoth => exact leaves_of_hostNum rfl hr (pmClear_missing hgate hrecord 3) hundoc
    case cpmClear => exact leaves_of_hostNum rfl hr (cpmClear_clears hgate c.val) ((clientCleared_undoc hgate c.val).trans hundoc)
    case discarded => exact leaves_of_hostNum rfl hr (ungated_gated _ hgate) hundoc
    case block =>
      have hread := leaves_pmBlockRead hr hgate hlen
      rw [pmBlock_data] at hread
      exact hread

end Sys2Proof.Proofs
end

section
/-!
PROOFS. The visits and timers of protection switching (R257 to R269): a selector's visit by whether its protecting member exists, the ends
of hold-off, WTR and exercise, and the APS failures of a group.
-/
namespace Sys2Proof.Proofs
open Sys2Proof Sys2Proof.Machine

/-! ## The record of a selector or group -/

theorem protOf_onProt (d : Dev) (w : Nat) (f : Prot → Prot) : (d.onProt w f).protOf w = f (d.protOf w) := by
  simp [Dev.protOf, Dev.onProt, smLook_smPut]

theorem protOf_wr (d : Dev) (k : Key) (v w : Nat) : (d.wr k v).protOf w = d.protOf w := rfl

theorem protOf_putFlag (d : Dev) (k : Key) (i : Nat) (b : Bool) (w : Nat) : (d.putFlag k i b).protOf w = d.protOf w := rfl

theorem protStatus_selector {w : Nat} (hlevel : adLevel w ≠ 3) : protStatus w = keyCtx O.SNCP_STATUS w := by simp [protStatus, hlevel]

theorem protCommand_selector {w : Nat} (hlevel : adLevel w ≠ 3) : protCommand w = keyCtx O.SNCP_COMMAND w := by simp [protCommand, hlevel]

section
variable {d : Dev} {w : Nat} (hruns : d.runs gProtection = true)
include hruns

/-! ## A selector's visit (R257) -/

/-- What a visit decides for the selector of a working member, from its record, its status and the triggers latched. -/
def selectorDecision (d : Dev) (w : Nat) : Decision :=
  decide1 false (protCtl d.active w) (d.rd (keyCtx O.SNCP_STATUS w)) (d.memberTriggers w) (d.memberTriggers (protPartner d.active w))
    d.elapsed (d.protOf w)

section
variable (hlevel : adLevel w ≠ 3) (hpartner : protPartner d.active w ≠ 0)
include hlevel hpartner

theorem selectorVisit_inactive (hactive : protActive d.active w = false) :
    selectorVisit d w = d.putFlag (keyCtx O.SNCP_STATUS w) 12 true := by
  simp [selectorVisit, hruns, hlevel, hpartner, hactive, protStatus_selector]

theorem selectorVisit_active (hactive : protActive d.active w = true) :
    selectorVisit d w = ((d.onProt w (fun _ => { (selectorDecision d w).p with want := (selectorDecision d w).sel })).wr
      (keyCtx O.SNCP_STATUS w) (putBits (statusOf (d.rd (keyCtx O.SNCP_STATUS w)) (selectorDecision d w) (selectorDecision d w).rank)
        12 1 0)).showCommand w := by
  simp [selectorVisit, hruns, hlevel, hpartner, hactive, protStatus_selector, selectorDecision]

theorem selectorVisit_decides (hactive : protActive d.active w = true) :
    (selectorVisit d w).protOf w = { (selectorDecision d w).p with want := (selectorDecision d w).sel }
      ∧ (selectorVisit d w).rd (keyCtx O.SNCP_COMMAND w) = (selectorDecision d w).p.cmd % 2 ^ 64 := by
  rw [selectorVisit_active hruns hlevel hpartner hactive, Dev.showCommand, protOf_wr, protOf_wr, protOf_onProt,
    protCommand_selector hlevel, rd_wr_same]
  exact ⟨rfl, rfl⟩

end

/-! ## Timers (R259, R264, R265) -/

theorem wtrExpiry_ends {x : Nat} (hwtr : (d.protOf w).wtr = some x) : wtrExpiry d w =
    ((d.onProt w (fun p => { p with wtr := none, want := false })).putFld (protStatus w) 8 4 0).putFlag (protStatus w) 7 false := by
  simp [wtrExpiry, hruns, hwtr]

/-- The hold-off timer of the working member's SF class: a trigger that is still set takes effect at the next latch, else the timer is gone. -/
theorem holdOffExpiry_working (hactive : protActive d.active w = true) (hhold : (d.protOf w).holdW = some (false, false)) :
    ((holdOffExpiry d w .working).protOf w).holdW =
      if d.memberTriggers w &&& bits (protCtl d.active w) 0 6 &&& 0x1F ≠ 0 then some (false, true) else none := by
  simp [holdOffExpiry, hruns, hactive, protOf_putFlag, protOf_onProt, hhold]

theorem exerciseEnd_ends (p : Nat) : exerciseEnd d p = d.onProt (portAddr p) (fun x => { x with exer := false }) := if_pos hruns

/-! ## APS failures (R269) -/

section
variable {f : ApsFailure} (hactive : protActive d.active (portAddr w) = true)
include hactive

theorem fopDeclare_declares (hcause : d.apsCause w f = true) (hfree : d.flag (keyAt O.MSP_STATUS w) (apsBit f) = false) :
    fopDeclare d w f = (((d.putFlag (keyAt O.MSP_STATUS w) (apsBit f) true).set1 (keyAt O.MSP_STATUS w) 20).count
      (keyAt O.FOP_COUNT w) 1).protEvent (apsCode f) 0 (portAddr w) := by
  simp [fopDeclare, hruns, hactive, hcause, hfree]

theorem apsClear_clears (hcause : d.apsCause w f = false) : apsClear d w f = d.putFlag (keyAt O.MSP_STATUS w) (apsBit f) false := by
  simp [apsClear, hruns, hactive, hcause]

end
end

theorem fopDeclare_rests {d : Dev} {w : Nat} {f : ApsFailure} (hcause : d.apsCause w f = false) : fopDeclare d w f = d := by
  simp [fopDeclare, hcause]

/-- The report of an APS failure names the group's port and no member. -/
theorem protEvent_port (d : Dev) (code : Nat) (p : Fin 64) : d.protEvent code 0 (portAddr p.val) =
    d.raise { cls := clsProtection, inst := 0, level := 3, addr := portAddr p.val, detail := code * 2 ^ 24 } := by
  rw [Dev.protEvent, adLevel_portAddr, Nat.zero_min, Nat.add_zero]

/-- Settles O41: the visit by whether the selector is active, each timer by the record that it meets, an APS failure by its cause. -/
theorem protectionTimers : Obligations.ProtectionTimers := by
  unfold Obligations.ProtectionTimers
  intro s hruns
  refine ⟨fun a hlevel hpartner => ⟨fun hactive => ?inactive, fun hactive => ?decides⟩, fun t x hwtr => ?wtr,
    fun t k hactive => ⟨_, leaves_of_done rfl rfl, fun hk hhold => ?holdOff⟩, fun p => ?exercise,
    fun p f hactive => ⟨fun hcause hfree => ?declares, fun hcause => ⟨?rests, ?clears⟩⟩⟩
  case inactive => exact leaves_of_done rfl (selectorVisit_inactive hruns hlevel hpartner hactive)
  case decides => exact ⟨_, leaves_of_done rfl rfl, selectorVisit_decides hruns hlevel hpartner hactive⟩
  case wtr => exact leaves_of_done rfl (wtrExpiry_ends hruns hwtr)
  case holdOff =>
    subst hk
    rw [holdOffExpiry_working hruns hactive hhold]
    exact ⟨fun hset => if_pos hset, fun hclear => if_neg (not_not.mpr hclear)⟩
  case exercise => exact leaves_of_done rfl (exerciseEnd_ends hruns p.val)
  case declares => exact leaves_of_done rfl ((fopDeclare_declares hruns hactive hcause hfree).trans (protEvent_port _ _ p))
  case rests => exact leaves_of_done rfl (fopDeclare_rests hcause)
  case clears => exact leaves_of_done rfl (apsClear_clears hruns hactive hcause)

end Sys2Proof.Proofs
end

section
/-!
PROOFS. What a step leaves of the cells of memory (R428, Table AR-5): memory stays canonical, and only a debugger's write leaves a cell in a
region whose placement the manual does not publish (log entries 8 and 110). With it, where a step starts: the front command, the reset state.
-/
namespace Sys2Proof.Proofs
open Sys2Proof Sys2Proof.Machine

/-! ## Cells kept -/

/-- A device holds the cells of another from address 600000h up or fewer, and its memory is canonical if the other's is. -/
def CellsKept (d e : Dev) : Prop :=
  (Memory.wf d.mem = true → Memory.wf e.mem = true) ∧ ∀ x ∈ e.mem, 0x600000 ≤ x.1 → x ∈ d.mem

theorem cellsKept_of_mem {d e : Dev} (h : e.mem = d.mem) : CellsKept d e := by
  rw [CellsKept, h]
  exact ⟨id, fun _ hx _ => hx⟩

theorem cellsKept_of_memory {d e : Dev} (h : e.memory = d.memory) : CellsKept d e := cellsKept_of_mem h

theorem CellsKept.refl (d : Dev) : CellsKept d d := cellsKept_of_mem rfl

theorem CellsKept.trans {d e f : Dev} (h : CellsKept d e) (h' : CellsKept e f) : CellsKept d f :=
  ⟨fun hd => h'.1 (h.1 hd), fun x hx hhigh => h.2 x (h'.2 x hx hhigh) hhigh⟩

/-- Cells that leave memory take nothing of its form. -/
theorem cellsKept_of_sublist {d e : Dev} (h : e.mem.Sublist d.mem) : CellsKept d e :=
  ⟨wf_of_sublist h, fun _ hx _ => h.subset hx⟩

theorem cellsKept_ite {d : Dev} {c : Prop} [Decidable c] {x y : Dev × Nat} (hx : CellsKept d x.1) (hy : CellsKept d y.1) :
    CellsKept d (if c then x else y).1 := by
  split
  · exact hx
  · exact hy

/-! ## Banks (R85, R421, R428) -/

/-- An edit drops the cells that a debugger left in the body of the pending bank. -/
theorem cellsKept_edit (d : Dev) (f : Bank → Bank) : CellsKept d (d.edit f) := cellsKept_of_sublist List.filter_sublist

/-- The copy of a bank ends below 600000h: both banks lie there. -/
theorem cellsKept_bankCopied (d : Dev) : CellsKept d (bankCopied d) := by
  unfold bankCopied
  split
  · exact .refl d
  · refine ⟨wf_copyCells d.mem _ _, fun x hx hhigh => ?_⟩
    simp only [copyCells, List.mem_append, List.mem_map, List.mem_filter] at hx
    rcases hx with (⟨hrest, -⟩ | ⟨c, ⟨-, hc⟩, rfl⟩) | ⟨hrest, -⟩
    · exact (mem_dropCells.mp hrest).1
    · have hbase : bankBase (!d.activeB) ≤ 0x400000 := by cases d.activeB <;> decide
      simp only [Bool.and_eq_true, decide_eq_true_eq] at hc
      omega
    · exact (mem_dropCells.mp hrest).1

/-- The bank of a joint commit is an edit. -/
theorem cellsKept_commitIn (d : Dev) (msg : CommitMsg) : CellsKept d (commitIn d msg) := by
  cases msg with
  | cancel => exact cellsKept_of_memory (by simp [commitIn])
  | bank b crcOk =>
    have hverified : CellsKept d ((d.channelUsed 1).mateVerify 32768) := cellsKept_of_memory (by simp)
    unfold commitIn commitBank
    dsimp only
    (repeat' split)
    · exact .refl d
    · exact hverified
    · exact ((hverified.trans (cellsKept_of_memory (Dev.onProv_memory _ _))).trans (cellsKept_edit _ _)).trans
        (cellsKept_of_memory (Dev.admitting_memory _ _))

/-- The generation part of a copy is an edit; the records of the other parts hold no cell. -/
theorem cellsKept_copied (d : Dev) (p : CopyPart) : CellsKept d (copied d p) := by
  unfold copied
  (repeat' split)
  case h_1.isTrue => exact (cellsKept_edit d _).trans (cellsKept_of_memory (Dev.progress_memory _ _ _))
  all_goals exact cellsKept_of_memory (by simp)

theorem cellsKept_eraseBanks (d : Dev) : CellsKept d d.eraseBanks := cellsKept_of_sublist List.filter_sublist

theorem cellsKept_burnEnded (d : Dev) : CellsKept d (burnEnded d) := by
  unfold burnEnded
  dsimp only
  (repeat' split)
  · exact .refl d
  · refine ((cellsKept_of_memory ?_).trans (cellsKept_eraseBanks _)).trans (cellsKept_of_memory (Dev.capDebug_memory _ _))
    simp
  · exact cellsKept_of_memory (by simp)
  · exact cellsKept_of_memory (by simp)

/-- A reset clears memory. -/
theorem cellsKept_rebooted (d e : Dev) (cause straps : Nat) : CellsKept e (d.rebooted cause straps) := by
  have hmem : (d.rebooted cause straps).mem = [] := by
    simp only [Dev.rebooted, wr_mem, putFlag_mem, wrStr_mem]
    rfl
  rw [CellsKept, hmem]
  exact ⟨fun _ => rfl, fun _ hx => nomatch hx⟩

theorem cellsKept_resetPulse (d : Dev) (lowNs straps : Nat) : CellsKept d (resetPulse d lowNs straps) := by
  unfold resetPulse
  (repeat' split)
  · exact .refl d
  · exact cellsKept_rebooted d d _ _
  · exact cellsKept_rebooted _ d _ _
  · exact cellsKept_of_memory (Dev.fresh_memory d)

/-! ## Writes of the dictionary -/

/-- An edit that also marks a changed `rsvd` field. -/
theorem cellsKept_edit_undoc (d : Dev) (f : Bank → Bank) (u : Bool) : CellsKept d { d.edit f with undoc := u } := cellsKept_edit d f

theorem cellsKept_mapBlockWrite (m : Master) (data : List Byte) (d : Dev) : CellsKept d (mapBlockWrite m data d).1 := by
  unfold mapBlockWrite
  iterate 5 refine cellsKept_ite (.refl d) ?_
  exact (cellsKept_edit d _).trans (cellsKept_of_memory (Dev.mapAdvance_memory _ m _))

theorem cellsKept_pathTypeWrite (m : Master) (v : Nat) (d : Dev) : CellsKept d (pathTypeWrite m v d).1 := by
  unfold pathTypeWrite
  iterate 3 refine cellsKept_ite (.refl d) ?_
  exact cellsKept_ite (cellsKept_edit d _) (.refl d)

theorem cellsKept_portTypeWrite (p v : Nat) (d : Dev) : CellsKept d (portTypeWrite p v d).1 := by
  unfold portTypeWrite
  iterate 2 refine cellsKept_ite (.refl d) ?_
  exact cellsKept_ite (cellsKept_edit d _) (.refl d)

theorem cellsKept_secPolicyApply (v : Nat) (d : Dev) : CellsKept d (secPolicyApply v d).1 := by
  unfold secPolicyApply
  exact cellsKept_ite (.refl d) (cellsKept_edit_undoc d _ _)

theorem cellsKept_holdWrite (d : Dev) (m : Master) (idx sub : Nat) (data : List Byte) : CellsKept d (d.holdWrite m idx sub data).1 :=
  cellsKept_of_memory (Dev.holdWrite_memory d m idx sub data)

theorem cellsKept_pathTypeHost (m : Master) (v : Nat) (d : Dev) : CellsKept d (pathTypeHost m v d).1 :=
  cellsKept_ite (cellsKept_holdWrite d m _ _ _) (cellsKept_pathTypeWrite m v d)

theorem cellsKept_portTypeHost (m : Master) (p v : Nat) (d : Dev) : CellsKept d (portTypeHost m p v d).1 :=
  cellsKept_ite (cellsKept_holdWrite d m _ _ _) (cellsKept_portTypeWrite p v d)

/-! ### Objects that act when written -/

/-- A group of objects changes no cell where it takes a write. -/
def ActedAside (d : Dev) (x : Acted) : Prop := ∀ r : Dev × Nat, x = some r → r.1.memory = d.memory

theorem actedAside_none (d : Dev) : ActedAside d none := fun _ h => nomatch h

/-- In a chain of objects, one whose effect changes no cell stands aside where the rest of the chain does. -/
theorem actedAside_ite {d : Dev} {c : Prop} [Decidable c] {r : Dev × Nat} {y : Acted} (hr : r.1.memory = d.memory)
    (hy : ActedAside d y) : ActedAside d (if c then some r else y) := by
  split
  · exact fun _ h => Option.some.inj h ▸ hr
  · exact hy

theorem actedAside_unitWrite (d : Dev) (m : Master) (id i v hw : Nat) : ActedAside d (unitWrite d m id i v hw) := by
  unfold unitWrite
  iterate 16 refine actedAside_ite (by simp) ?_
  exact actedAside_none d

theorem actedAside_secWrite (d : Dev) (m : Master) (id v : Nat) (data : List Byte) : ActedAside d (secWrite d m id v data) := by
  unfold secWrite
  iterate 7 refine actedAside_ite (by simp) ?_
  exact actedAside_none d

theorem actedAside_pairedObject (d : Dev) (idx sub id i a v : Nat) (data : List Byte) :
    ActedAside d (pairedObject d idx sub id i a v data) := by
  unfold pairedObject
  iterate 12 refine actedAside_ite (by simp) ?_
  exact actedAside_none d

theorem actedAside_lineWrite (d : Dev) (m : Master) (id i v hw : Nat) : ActedAside d (lineWrite d m id i v hw) := by
  unfold lineWrite
  iterate 8 refine actedAside_ite (by simp) ?_
  exact actedAside_none d

theorem nowWrite_memory (d : Dev) (m : Master) (o : ObjDef) (idx sub : Nat) (data : List Byte) (hw : Nat) :
    (nowWrite d m o idx sub data hw).1.memory = d.memory := by
  unfold nowWrite
  dsimp only
  split
  · next h => exact actedAside_unitWrite d m _ _ _ _ _ h
  · next h => exact actedAside_secWrite d m _ _ _ _ h
  · next h => exact actedAside_pairedObject d _ _ _ _ _ _ _ _ h
  · next h => exact actedAside_lineWrite d m _ _ _ _ _ h
  · simp

/-! ### Edits, guarded objects and the whole write -/

theorem cellsKept_genWrite (d : Dev) (m : Master) (o : ObjDef) (idx sub : Nat) (data : List Byte) :
    CellsKept d (genWrite d m o idx sub data).1 := by
  unfold genWrite
  refine cellsKept_ite (cellsKept_pathTypeWrite m _ d) (cellsKept_ite (cellsKept_portTypeWrite _ _ d)
    (cellsKept_ite (cellsKept_mapBlockWrite m data d) (cellsKept_ite (.refl d) (cellsKept_ite (cellsKept_edit d _) ?_))))
  exact cellsKept_ite (.refl d) (cellsKept_ite (.refl d) (cellsKept_edit_undoc d _ _))

theorem cellsKept_guardApply (m : Master) (o : ObjDef) (i v : Nat) (d : Dev) : CellsKept d (guardApply m o i v d).1 := by
  unfold guardApply
  refine cellsKept_ite (cellsKept_of_memory (by simp)) (cellsKept_ite (cellsKept_rebooted d d _ _) ?_)
  iterate 9 refine cellsKept_ite (cellsKept_of_memory (by simp)) ?_
  exact cellsKept_secPolicyApply v d

/-- A completing write breaks the arm, or takes it and applies its value (R52). -/
theorem cellsKept_completeGuard {apply : Nat → Dev → Dev × Nat} (happly : ∀ v x, CellsKept x (apply v x).1) (d : Dev) (m : Master)
    (idx n w c : Nat) (lenOk : Bool) : CellsKept d (d.completeGuard m idx n w c lenOk apply).1 := by
  unfold Dev.completeGuard
  iterate 4 refine cellsKept_ite (cellsKept_of_memory (by simp)) ?_
  exact (cellsKept_of_memory (Dev.onMaster_memory d m _)).trans (happly _ _)

theorem cellsKept_completing {apply : Nat → Dev → Dev × Nat} (happly : ∀ v x, CellsKept x (apply v x).1) (d : Dev) (m : Master)
    (idx n w v : Nat) : CellsKept d (d.completing m idx n w v apply).1 :=
  cellsKept_ite (.refl d) (cellsKept_completeGuard happly d m idx n w _ true)

theorem cellsKept_openWrite (d : Dev) (m : Master) (o : ObjDef) (idx sub : Nat) (data : List Byte) (hw : Nat) (sized : Bool) :
    CellsKept d (openWrite d m o idx sub data hw sized).1 := by
  unfold openWrite
  iterate 6 refine cellsKept_ite (.refl d) ?_
  exact cellsKept_ite (cellsKept_ite (cellsKept_holdWrite d m idx sub data) (cellsKept_genWrite d m o idx sub data))
    (cellsKept_of_memory (nowWrite_memory d m o idx sub data hw))

theorem cellsKept_dropArm (d : Dev) (m : Master) (cause : Nat) : CellsKept d (d.dropArm m cause) :=
  cellsKept_of_memory (Dev.dropArm_memory d m cause)

theorem cellsKept_writeSized (d : Dev) (m : Master) (idx sub : Nat) (data : List Byte) (hw : Nat) (sized : Bool) :
    CellsKept d (d.writeSized m idx sub data hw sized).1 := by
  unfold Dev.writeSized
  refine cellsKept_ite (.refl d) (cellsKept_ite (cellsKept_dropArm d m 4) ?_)
  split
  · exact cellsKept_dropArm d m 4
  · next o _ =>
    refine cellsKept_ite (cellsKept_of_memory (Dev.armGuard_memory d m _ _ _ _ _)) (cellsKept_ite (cellsKept_ite
      (cellsKept_holdWrite d m idx sub data) ?_) ?_)
    · exact cellsKept_completeGuard (fun v x => cellsKept_guardApply m o _ v x) d m idx _ _ _ _
    · exact (cellsKept_dropArm d m 4).trans (cellsKept_openWrite _ m o idx sub data hw sized)

theorem cellsKept_writeObj (d : Dev) (m : Master) (idx sub : Nat) (data : List Byte) (hw : Nat) :
    CellsKept d (d.writeObj m idx sub data hw).1 := cellsKept_writeSized d m idx sub data hw true

theorem cellsKept_plainWrite {f : Dev → Dev × Nat} (hf : ∀ x, CellsKept x (f x).1) (d : Dev) (m : Master) :
    CellsKept d (d.plainWrite m f).1 :=
  cellsKept_ite (.refl d) ((cellsKept_dropArm d m 4).trans (hf _))

/-! ## Waiting requests -/

theorem cellsKept_selecting {α : Type} {f : Dev → Dev × α} (hf : ∀ x, CellsKept x (f x).1) (d : Dev) (m : Master) (a : Nat) :
    CellsKept d (d.selecting m a f).1 :=
  ((cellsKept_of_memory (Dev.wr_memory d _ a)).trans (hf _)).trans (cellsKept_of_memory (Dev.wr_memory _ _ _))

theorem cellsKept_finish (d : Dev) (m : Master) (r : Req) (x : ReadAns) : CellsKept d (d.finish m r x) :=
  cellsKept_of_memory (Dev.finish_memory d m r x)

theorem cellsKept_accessOf (d : Dev) (m : Master) (ecc : Ecc) (b : ReqBody) : CellsKept d (accessOf d m ecc b).1 := by
  cases b with
  | read idx sub n => exact cellsKept_of_memory (Dev.readObj_memory d m idx sub _ ecc)
  | write idx sub data => exact cellsKept_writeObj d m idx sub data 0
  | unsized idx sub data => exact cellsKept_writeSized d m idx sub data 0 false
  | writeAt a idx sub data => exact cellsKept_selecting (fun x => cellsKept_writeObj x m idx sub data 0) d m a
  | tableRead idx sub start count => exact .refl d
  | tableWrite idx sub start count data => exact cellsKept_dropArm d m 4

theorem cellsKept_drainQueue (m : Master) (n : Nat) (d : Dev) : CellsKept d (drainQueue m n d) := by
  induction n generalizing d with
  | zero => exact .refl d
  | succ n ih =>
    unfold drainQueue
    split
    · exact .refl d
    · split
      · exact .refl d
      · exact ((cellsKept_accessOf d m _ _).trans (cellsKept_finish _ m _ _)).trans (ih _)

theorem cellsKept_drain (d : Dev) : CellsKept d d.drain :=
  ((cellsKept_drainQueue .spi 16 d).trans (cellsKept_drainQueue .can 16 _)).trans (cellsKept_drainQueue .mgmt 16 _)

theorem cellsKept_tableWriteOne (d : Dev) (m : Master) (r : Req) (idx sub start count : Nat) (wire : List Byte) :
    CellsKept d (tableWriteOne d m r idx sub start count wire) := by
  unfold tableWriteOne
  dsimp only
  split
  · exact cellsKept_finish d m r _
  · next a _ =>
    have hwrite := fun v => cellsKept_selecting (fun x => cellsKept_writeObj x m idx sub v 0) d m a
    (repeat' split)
    · exact (hwrite _).trans (cellsKept_finish _ m r _)
    · exact (hwrite _).trans (cellsKept_finish _ m r _)
    · exact (hwrite _).trans (cellsKept_of_memory (Dev.goesOn_memory _ m r _))

theorem cellsKept_slotAccess (d : Dev) (m : Master) (r : Req) (ecc : Ecc) : CellsKept d (slotAccess d m r ecc) := by
  have haccess : ∀ (x : Dev) (e : Ecc) (b : ReqBody), CellsKept x ((accessOf x m e b).1.finish m r (accessOf x m e b).2) :=
    fun x e b => (cellsKept_accessOf x m e b).trans (cellsKept_finish _ m r _)
  unfold slotAccess
  split
  · exact cellsKept_of_memory (tableReadOne_memory d m r _ _ _ _ ecc)
  · split
    · exact cellsKept_of_memory (pmBlockOne_memory d m r _ ecc)
    · exact haccess d ecc _
  · split
    · exact (cellsKept_of_memory (Dev.slotError_memory d _)).trans (cellsKept_finish _ m r _)
    · have hecc := cellsKept_of_memory (Dev.eccHit_memory d (slotRegion d r.body) ecc)
      dsimp only
      split
      · exact hecc.trans (cellsKept_tableWriteOne _ m r _ _ _ _ _)
      · exact hecc.trans (haccess _ .clean _)

theorem cellsKept_hostSlot (d : Dev) (m : Master) (collision : Bool) (ecc : Ecc) : CellsKept d (hostSlot d m collision ecc) := by
  unfold hostSlot
  split
  · exact .refl d
  · (repeat' split)
    · exact .refl d
    · exact cellsKept_drain d
    · exact (cellsKept_slotAccess d m _ ecc).trans (cellsKept_drain _)

/-! ## Transports -/

theorem cellsKept_queueReq (d : Dev) (m : Master) (r : Req) : CellsKept d (d.queueReq m r).1 :=
  cellsKept_of_memory (Dev.queueReq_memory d m r)

theorem cellsKept_milberQueue (d : Dev) (r : Req) (f : Frame) : CellsKept d (milberQueue d r f) := by
  unfold milberQueue
  dsimp only
  iterate 6
    split
    · exact cellsKept_of_memory (by simp)
  exact ((cellsKept_queueReq d .spi r).trans (cellsKept_of_memory (acceptWord_memory _ _ _))).trans (cellsKept_drain _)

theorem cellsKept_sdoRun (d : Dev) (r : SdoReq) : CellsKept d (sdoRun d r) := by
  unfold sdoRun
  dsimp only
  iterate 4
    split
    · exact cellsKept_of_memory (by simp)
  have hrun : ∀ x : Dev, x.memory = d.memory → CellsKept d ((x.queueReq .can (sdoReq r)).1.drain) := fun x hx =>
    ((cellsKept_of_memory hx).trans (cellsKept_queueReq x .can _)).trans (cellsKept_drain _)
  split
  · exact (hrun _ (by simp)).trans (cellsKept_of_memory (Dev.onCanM_memory _ _))
  · exact hrun _ (by simp)

/-! ## Outcomes -/

/-- Where a command's outcome goes on, its device keeps the cells. -/
def OutcomeKeeps (s : State) (o : Host.Outcome State Fault Refusal) : Prop := ∀ t, o = .next t → CellsKept s.dev t.dev

theorem outcomeKeeps_fault (s : State) (f : Fault) : OutcomeKeeps s (.fault f) := fun _ h => nomatch h

section
variable {s : State} {d : Dev} {m : Master}

theorem outcomeKeeps_next (h : CellsKept s.dev d) : OutcomeKeeps s (.next { s with dev := d }) := by
  rintro t ⟨⟩
  exact h

theorem outcomeKeeps_done (h : CellsKept s.dev d) : OutcomeKeeps s (done s d) :=
  outcomeKeeps_next (h.trans (cellsKept_of_memory (tpdoSweep_memory s.dev d)))

theorem outcomeKeeps_stop (h : CellsKept s.dev d) : OutcomeKeeps s (if d.undoc then .fault .rsvdChanged else done s d) := by
  split
  · exact outcomeKeeps_fault s _
  · exact outcomeKeeps_done h

theorem outcomeKeeps_hostDone {r : Dev × Nat} {data : List Byte} (h : CellsKept s.dev r.1) : OutcomeKeeps s (hostDone s m r data) := by
  unfold hostDone
  split
  · exact outcomeKeeps_fault s _
  · exact outcomeKeeps_done (h.trans (cellsKept_of_memory (Dev.onMaster_memory _ m _)))

theorem outcomeKeeps_hostTurn {q : Req} {r : Dev × Nat} {data : List Byte} (h : CellsKept s.dev r.1) :
    OutcomeKeeps s (hostTurn s m q r data) := by
  unfold hostTurn
  split
  · exact outcomeKeeps_hostDone (.refl _)
  · split
    · exact outcomeKeeps_hostDone h
    · exact outcomeKeeps_hostDone (cellsKept_queueReq s.dev m q)

theorem outcomeKeeps_hostWrite {idx sub : Nat} {data : List Byte} {f : Dev → Dev × Nat} (hf : ∀ x, CellsKept x (f x).1) :
    OutcomeKeeps s (hostWrite s m idx sub data f) :=
  outcomeKeeps_hostTurn (cellsKept_plainWrite hf s.dev m)

theorem outcomeKeeps_hostNum {k : Key} {v : Nat} {f : Dev → Dev × Nat} (hf : ∀ x, CellsKept x (f x).1) :
    OutcomeKeeps s (hostNum s m k v f) :=
  outcomeKeeps_hostWrite hf

/-- A host write whose effect changes no cell. -/
theorem outcomeKeeps_hostWrite_of_memory {idx sub : Nat} {data : List Byte} {f : Dev → Dev × Nat}
    (hf : ∀ x : Dev, (f x).1.memory = x.memory) : OutcomeKeeps s (hostWrite s m idx sub data f) :=
  outcomeKeeps_hostWrite fun x => cellsKept_of_memory (hf x)

theorem outcomeKeeps_hostGuard {idx n w v : Nat} {apply : Nat → Dev → Dev × Nat} (happly : ∀ v x, CellsKept x (apply v x).1) :
    OutcomeKeeps s (hostGuard s m idx n w v apply) :=
  outcomeKeeps_hostTurn (cellsKept_completing happly s.dev m idx n w v)

theorem outcomeKeeps_hostRead {k : Key} {r : DomRead} : OutcomeKeeps s (hostRead s m k r) := by
  unfold hostRead
  dsimp only
  split
  · exact outcomeKeeps_hostDone (cellsKept_queueReq s.dev m _)
  · refine outcomeKeeps_hostTurn (cellsKept_of_memory ?_)
    simp

end

/-! ## Commands -/

theorem cellsKept_privateRun {f : Dev → Dev} (hf : ∀ x, CellsKept x (f x)) (d : Dev) (code : Nat) : CellsKept d (privateRun d code f) := by
  have hload := cellsKept_of_memory (Dev.tapLoad_memory d code [])
  unfold privateRun Dev.when
  split
  · exact hload.trans (hf _)
  · exact hload

theorem cellsKept_debugControl (op : Nat) (d : Dev) : CellsKept d (debugControl op d) := by
  unfold debugControl
  (repeat' split)
  · exact cellsKept_of_memory (by simp)
  · exact (cellsKept_of_memory (Dev.putFlag_memory d _ _ _)).trans (cellsKept_drain _)
  · exact .refl d

theorem outcomeKeeps_rxAdaptation (s : State) (l : RxLane) (v : BitVec 25) (host : Option (Master × BitVec 32)) :
    OutcomeKeeps s (exec (.rxAdaptation l v host) s) := by
  match host with
  | none => exact outcomeKeeps_done (cellsKept_of_memory (by simp))
  | some (m, w) =>
    show OutcomeKeeps s (if _ then hostWrite _ _ _ _ _ _ else hostWrite _ _ _ _ _ _)
    split
    · exact outcomeKeeps_hostWrite_of_memory (by simp)
    · have hadapted : CellsKept s.dev (rxAdapted s.dev l v.toNat) := cellsKept_of_memory (rxAdapted_memory s.dev l v.toNat)
      exact fun t ht => hadapted.trans (outcomeKeeps_hostWrite_of_memory (fun _ => rfl) t ht)

/-- Every command but a debugger's access keeps the cells. -/
theorem exec_keeps {c : Instr} (hc : ∀ (a : BitVec 32) (w : Option Byte), c ≠ .dbgMem a w) (s : State) : OutcomeKeeps s (exec c s) := by
  cases c
  case dbgMem a w => exact absurd rfl (hc a w)
  case milberNop | milberInvalidOpcode | spiFrameError | milberStatus | milberFetch =>
    exact outcomeKeeps_stop (cellsKept_of_memory (by simp))
  case milberRead | milberWrite | milberTableRead | milberTableWrite => exact outcomeKeeps_stop (cellsKept_milberQueue s.dev _ _)
  case sdoTransfer => exact outcomeKeeps_stop (cellsKept_sdoRun s.dev _)
  case hostSlotAccess => exact outcomeKeeps_stop (cellsKept_hostSlot s.dev _ _ _)
  case bankCopyEnd => exact outcomeKeeps_stop ((cellsKept_bankCopied s.dev).trans (cellsKept_drain _))
  case dbgCtrl op => exact outcomeKeeps_stop (cellsKept_privateRun (cellsKept_debugControl op.val) s.dev _)
  case commitBank => exact outcomeKeeps_done (cellsKept_commitIn s.dev _)
  case copy => exact outcomeKeeps_done (cellsKept_copied s.dev _)
  case fuseBurnEnd => exact outcomeKeeps_done (cellsKept_burnEnded s.dev)
  case powerOn => exact outcomeKeeps_next (cellsKept_rebooted _ _ _ _)
  case resetN => exact outcomeKeeps_next (cellsKept_resetPulse _ _ _)
  case watchdogExpiry =>
    refine outcomeKeeps_next ?_
    split
    · exact .refl _
    · exact cellsKept_rebooted _ _ _ _
  case rxAdaptation => exact outcomeKeeps_rxAdaptation _ _ _ _
  case registerWrite | guardArmingWrite => exact outcomeKeeps_hostTurn (cellsKept_writeObj s.dev _ _ _ _ _)
  case txSquelch | prbsCtrl => exact outcomeKeeps_hostTurn (cellsKept_of_memory (by simp))
  case secPolicy =>
    exact outcomeKeeps_hostTurn (cellsKept_ite (cellsKept_holdWrite s.dev _ _ _ _)
      (cellsKept_completing (fun v x => cellsKept_secPolicyApply v x) s.dev _ _ _ _ _))
  case clear | lockoutOfProtection | forcedSwitchToProtection | forcedSwitchToWorking | manualSwitchToProtection | manualSwitchToWorking |
      exercise => exact outcomeKeeps_hostTurn (cellsKept_of_memory (by simp))
  case dccRxRead | mapBlockRead | mapBlockActiveRead | pmBlockRead | history | attestReport => exact outcomeKeeps_hostRead
  case pathType => exact outcomeKeeps_hostNum (cellsKept_pathTypeHost _ _)
  case portType => exact outcomeKeeps_hostNum (cellsKept_portTypeHost _ _ _)
  case mapBlockWrite =>
    exact outcomeKeeps_hostWrite fun x => cellsKept_ite (cellsKept_holdWrite x _ _ _ _) (cellsKept_mapBlockWrite _ _ x)
  case unitReset => exact outcomeKeeps_hostGuard fun v x => cellsKept_rebooted x x _ _
  case forceHandover | pairCtrl | modeGuardedInert | modeGuardedShadow | modeGuardedQuiesce | modeGuardedBisque | opOverride |
      blockClockEnable | reaction | lifecycleRequest | zeroise | rollbackAdvance | tokenApplyDebugUnlock | tokenApplyReturned |
      tokenApplyOwnerKey => exact outcomeKeeps_hostGuard fun v x => cellsKept_of_memory (by simp)
  case severeSetting f _ => cases f <;> exact outcomeKeeps_hostWrite_of_memory (by simp)
  case contextSelect | selectStep | mapBlockSelect | traceCapture | oneBip | pmSecond | pmClear15Min | pmClear24Hour | pmClearBoth |
      cpmClear | modeRequestInert | modeRequestService | modeRequestShadow | modeRequestQuiesce | wakeCtrl | opRetry | timeStep | ackSeq |
      injectFire | faultNCtrl | go | abort | running | nonceNew | debugClose | sessionChallengeNew | sessionEnd | oneB1 | oneB2 |
      oneSmBip | onePmBip | commit | cancelSwitch | pendingReset | dccTxWrite | farReport | token | sessionResponse | attestNonce =>
    exact outcomeKeeps_hostWrite_of_memory (by simp)
  all_goals exact outcomeKeeps_done (cellsKept_of_memory (by simp))

/-! ## The statements -/

/-- Settles O6: every command but a debugger's access keeps the cells from 600000h up, or drops them. -/
theorem memoryOnlyByDebugger : Obligations.MemoryOnlyByDebugger := by
  unfold Obligations.MemoryOnlyByDebugger
  intro c s t hc h
  exact (exec_keeps hc s t h).2

/-- A debugger's access leaves memory canonical: a read changes no cell, and a write puts its byte in place (R428). -/
theorem dbgMem_wf {s t : State} {a : BitVec 32} {w : Option Byte} (hwf : Memory.wf s.dev.mem = true) (h : exec (.dbgMem a w) s = .next t) :
    Memory.wf t.dev.mem = true := by
  have hrun : ∀ f : Dev → Dev, (∀ x, Memory.wf x.mem = true → Memory.wf (f x).mem = true) →
      Memory.wf (privateRun s.dev 0x43 f).mem = true := by
    intro f hf
    have hload : Memory.wf (s.dev.tapLoad 0x43 []).mem = true := (cellsKept_of_memory (Dev.tapLoad_memory s.dev 0x43 [])).1 hwf
    unfold privateRun Dev.when
    split
    · exact hf _ hload
    · exact hload
  obtain rfl := Host.Outcome.next.inj h
  refine (cellsKept_of_memory (tpdoSweep_memory s.dev _)).1 ?_
  cases w with
  | none => exact hrun _ fun x => (cellsKept_of_memory (memoryRead_memory a.toNat x)).1
  | some v => exact hrun _ fun x => wf_memoryWrite x a.toNat v

theorem exec_wf (c : Instr) {s t : State} (hwf : Memory.wf s.dev.mem = true) (h : exec c s = .next t) : Memory.wf t.dev.mem = true := by
  by_cases hc : ∃ (a : BitVec 32) (w : Option Byte), c = .dbgMem a w
  · obtain ⟨a, w, rfl⟩ := hc
    exact dbgMem_wf hwf h
  · exact (exec_keeps (fun a w e => hc ⟨a, w, e⟩) s t h).1 hwf

/-- Settles O1: the step function takes the front command and leaves the rest. -/
theorem stepRunsFront : Obligations.StepRunsFront := by
  unfold Obligations.StepRunsFront
  intro c rest s hpending
  unfold step
  rw [hpending]

/-- Settles O3: the reset state lists two values only, so that any other object reads its table's default. -/
theorem resetState : Obligations.ResetState := by
  unfold Obligations.ResetState
  refine ⟨rfl, rfl, rfl, by decide +kernel, rfl, rfl, rfl, rfl, rfl, rfl, fun k hmode hsec => ?_⟩
  have hlook : smLook (dfltWord k) State.reset.dev.regs k = dfltWord k := by
    simp only [State.reset, devReset, smLook]
    rw [if_neg (Ne.symm hmode), if_neg (Ne.symm hsec)]
  rw [Dev.rd, hlook, dfltWord, BitVec.toNat_ofNat]

/-- Settles O5: an idle step and every command but a debugger's access keep the cells, and a debugger's access puts one in its place. -/
theorem memoryStaysCanonical : Obligations.MemoryStaysCanonical := by
  unfold Obligations.MemoryStaysCanonical
  intro s t hwf h
  unfold step at h
  split at h
  · have hidle : CellsKept s.dev (idle s).dev := (cellsKept_of_memory (Dev.advance_memory s.dev _)).trans (cellsKept_drain _)
    exact (outcomeKeeps_stop hidle t h).1 hwf
  · next c rest _ => exact exec_wf c (s := { s with pending := rest }) hwf h

end Sys2Proof.Proofs
end

section
/-!
PROOFS. What a field or a flag of a stored value reads after a field, a flag or another value has been written, bit by bit; and the outcome
of a guarded row whose master is armed (R52).
-/
namespace Sys2Proof.Proofs
open Sys2Proof Sys2Proof.Machine

/-! ## Bits of a replaced field -/

theorem testBit_putBits (v lo w x i : Nat) :
    (putBits v lo w x).testBit i = if i < lo then v.testBit i else if i - lo < w then x.testBit (i - lo) else v.testBit i := by
  have hput : putBits v lo w x = 2 ^ lo * (2 ^ w * (v / 2 ^ lo / 2 ^ w) + x % 2 ^ w) + v % 2 ^ lo := by
    rw [putBits, sub_bits_mul]
    ring
  rw [hput, Nat.testBit_two_pow_mul_add _ (Nat.mod_lt _ (Nat.two_pow_pos lo)),
    Nat.testBit_two_pow_mul_add _ (Nat.mod_lt _ (Nat.two_pow_pos w))]
  split
  · next h => simp [Nat.testBit_mod_two_pow, h]
  · next h =>
    split
    · next hw => simp [Nat.testBit_mod_two_pow, hw]
    · next hw =>
      rw [Nat.testBit_div_two_pow, Nat.testBit_div_two_pow]
      congr 1
      omega

theorem bits_congr {u v lo w : Nat} (h : ∀ i, lo ≤ i → i < lo + w → u.testBit i = v.testBit i) : bits u lo w = bits v lo w := by
  refine Nat.eq_of_testBit_eq fun i => ?_
  simp only [bits, Nat.testBit_mod_two_pow, Nat.testBit_div_two_pow]
  by_cases hi : i < w
  · rw [h (i + lo) (by omega) (by omega)]
  · simp [hi]

/-! ## Flags and fields of the device -/

section
variable (d : Dev) (k : Key)

theorem flag_of_rd {d e : Dev} {k : Key} (h : e.rd k = d.rd k) (i : Nat) : e.flag k i = d.flag k i := by rw [Dev.flag, Dev.flag, h]

theorem fld_of_rd {d e : Dev} {k : Key} (h : e.rd k = d.rd k) (lo w : Nat) : e.fld k lo w = d.fld k lo w := by rw [Dev.fld, Dev.fld, h]

/-- A field is made of flags. -/
theorem fld_of_flags {d e : Dev} {k : Key} {lo w : Nat} (h : ∀ i, lo ≤ i → i < lo + w → e.flag k i = d.flag k i) :
    e.fld k lo w = d.fld k lo w := bits_congr h

theorem flag_putFld (lo w x : Nat) {i : Nat} (hi : i < 64) :
    (d.putFld k lo w x).flag k i = if i < lo then d.flag k i else if i - lo < w then x.testBit (i - lo) else d.flag k i := by
  simp only [Dev.flag, Dev.putFld, rd_wr_same, bit, Nat.testBit_mod_two_pow, hi, decide_true, Bool.true_and, testBit_putBits]

theorem flag_putFld_outside {lo w i : Nat} (x : Nat) (hi : i < 64) (h : i < lo ∨ lo + w ≤ i) :
    (d.putFld k lo w x).flag k i = d.flag k i := by
  rw [flag_putFld d k lo w x hi]
  rcases h with h | h
  · rw [if_pos h]
  · rw [if_neg (by omega), if_neg (by omega)]

theorem flag_putFlag_same {i : Nat} (b : Bool) (hi : i < 64) : (d.putFlag k i b).flag k i = b := by
  rw [Dev.putFlag, flag_putFld d k i 1 _ hi, if_neg (Nat.lt_irrefl i), if_pos (by omega), Nat.sub_self]
  cases b <;> rfl

theorem flag_putFlag_ne {i j : Nat} (b : Bool) (hi : i < 64) (h : i ≠ j) : (d.putFlag k j b).flag k i = d.flag k i :=
  flag_putFld_outside d k _ hi (by omega)

theorem fld_putFld_outside {lo w lo' w' : Nat} (x : Nat) (hw : lo' + w' ≤ 64) (h : lo' + w' ≤ lo ∨ lo + w ≤ lo') :
    (d.putFld k lo w x).fld k lo' w' = d.fld k lo' w' :=
  fld_of_flags fun _ _ _ => flag_putFld_outside d k x (by omega) (by omega)

theorem fld_putFlag_outside {lo w j : Nat} (b : Bool) (hw : lo + w ≤ 64) (h : lo + w ≤ j ∨ j < lo) :
    (d.putFlag k j b).fld k lo w = d.fld k lo w :=
  fld_putFld_outside d k _ hw (by omega)

theorem flag_set1_same {i : Nat} (hi : i < 64) : (d.set1 k i).flag k i = true := flag_putFlag_same d k true hi

theorem flag_set1_ne {i j : Nat} (hi : i < 64) (h : i ≠ j) : (d.set1 k j).flag k i = d.flag k i := flag_putFlag_ne d k true hi h

theorem fld_set1_outside {lo w j : Nat} (hw : lo + w ≤ 64) (h : lo + w ≤ j ∨ j < lo) : (d.set1 k j).fld k lo w = d.fld k lo w :=
  fld_putFlag_outside d k true hw h

end

/-! ## Commands -/

theorem gives_of_done {c : Instr} {s : State} {d : Dev} {P : Dev → Prop} (hc : exec c s = done s d) (h : P d) : gives c s P :=
  ⟨d, hc, h⟩

theorem taken_undoc {s : State} {m : Master} {idx n v : Nat} (h : armedFor s m idx n v) : (taken s m).undoc = false := by
  obtain ⟨⟨⟨-, hdoc⟩, -⟩, -⟩ := h
  simpa [taken] using hdoc

/-- The completing write of an armed master carries the complement of its value: the arm is taken and the value applied (R52). -/
theorem completing_armed {s : State} {m : Master} {idx n w v : Nat} {apply : Nat → Dev → Dev × Nat} (h : armedFor s m idx n v)
    (hv : v < 2 ^ w) : s.dev.completing m idx n w v apply = apply v (taken s m) := by
  obtain ⟨⟨⟨hboot, -⟩, -⟩, hpriv, harm⟩ := h
  have hcomplement : 2 ^ w - 1 - v + v + 1 = 2 ^ w := by omega
  simp [Dev.completing, Dev.completeGuard, hboot, hpriv, harm, Nat.mod_eq_of_lt hv, hcomplement, taken]

theorem leaves_of_hostGuard {c : Instr} {s : State} {m : Master} {idx n w v code : Nat} {apply : Nat → Dev → Dev × Nat} {d : Dev}
    (hc : exec c s = hostGuard s m idx n w v apply) (h : armedFor s m idx n v) (hv : v < 2 ^ w)
    (happly : apply v (taken s m) = (d, code)) (hd : d.undoc = false) : leaves c s (answered d m code []) :=
  leaves_of_hostTurn hc h.1 ((completing_armed h hv).trans happly) hd

end Sys2Proof.Proofs
end

section
/-!
PROOFS. Requests for a mode (R348, R349) and WAKE_CTRL (R352); the change of the mode at a frame boundary (R350, R320).
-/
namespace Sys2Proof.Proofs
open Sys2Proof Sys2Proof.Machine

/-! ## Requests (R348, R349) -/

section
variable {d : Dev} {t : Nat}

/-- The object that a request came through takes its target. -/
def requestRecorded (d : Dev) (t : Nat) (guarded : Bool) : Dev := if guarded then d.wr O.MODE_GUARDED t else d.wr O.MODE_REQUEST t

theorem requestMode_accepted {guarded : Bool} (h : modeRefusal d t guarded = 0) :
    d.requestMode t guarded = ((requestRecorded d t guarded).startTransition t, 0) := by
  simp [Dev.requestMode, requestRecorded, h]

theorem requestMode_refused {guarded : Bool} (h : modeRefusal d t guarded ≠ 0) :
    d.requestMode t guarded = ((d.putFld O.MODE_STATUS 16 4 (modeRefusal d t guarded)).set1 O.MODE_STATUS 21, 0x08000022) := by
  simp [Dev.requestMode, Dev.refuseMode, h, abRefused]

theorem modeRequestWrite_inRange (h : 1 ≤ t ∧ t ≤ 5) : modeRequestWrite t d = d.requestMode t false := by
  rw [modeRequestWrite, if_neg (by simp; omega)]

theorem requestMode_undoc {guarded : Bool} {e : Dev} {code : Nat} (h : d.requestMode t guarded = (e, code)) : e.undoc = d.undoc := by
  have hkept : (d.requestMode t guarded).1.undoc = d.undoc := by simp
  rwa [h] at hkept

/-- The request rows of MODE_REQUEST and of MODE_GUARDED, with their targets. -/
def requestRows (m : Master) : List (Instr × Nat) :=
  [(.modeRequestInert m, 1), (.modeRequestService m, 2), (.modeRequestShadow m, 3), (.modeRequestQuiesce m, 4)]

def guardedRows (m : Master) : List (Instr × Nat) :=
  [(.modeGuardedInert m, 1), (.modeGuardedShadow m, 3), (.modeGuardedQuiesce m, 4), (.modeGuardedBisque m, 5)]

theorem exec_of_requestRows {m : Master} {c : Instr} (h : (c, t) ∈ requestRows m) (s : State) :
    (1 ≤ t ∧ t ≤ 5) ∧ exec c s = hostNum s m O.MODE_REQUEST t (modeRequestWrite t) := by
  simp only [requestRows, List.mem_cons, Prod.mk.injEq, List.not_mem_nil, or_false] at h
  rcases h with ⟨rfl, rfl⟩ | ⟨rfl, rfl⟩ | ⟨rfl, rfl⟩ | ⟨rfl, rfl⟩ <;> exact ⟨by decide, rfl⟩

theorem exec_of_guardedRows {m : Master} {c : Instr} (h : (c, t) ∈ guardedRows m) (s : State) :
    t < 2 ^ 8 ∧ exec c s = hostGuard s m 0x2001 2 8 t modeGuardedApply := by
  simp only [guardedRows, List.mem_cons, Prod.mk.injEq, List.not_mem_nil, or_false] at h
  rcases h with ⟨rfl, rfl⟩ | ⟨rfl, rfl⟩ | ⟨rfl, rfl⟩ | ⟨rfl, rfl⟩ <;> exact ⟨by decide, rfl⟩

/-- A request of MODE_REQUEST by a master in its turn, by the answer to the request. -/
theorem leaves_modeRequest {s : State} {m : Master} {c : Instr} {e : Dev} {code : Nat} (hr : reachable s m) (hc : (c, t) ∈ requestRows m)
    (h : (disarmed s m).requestMode t false = (e, code)) : leaves c s (answered e m code []) := by
  obtain ⟨hrange, hexec⟩ := exec_of_requestRows hc s
  exact leaves_of_hostNum hexec hr ((modeRequestWrite_inRange hrange).trans h) ((requestMode_undoc h).trans (disarmed_undoc hr))

theorem leaves_modeGuarded {s : State} {m : Master} {c : Instr} {e : Dev} {code : Nat} (ha : armedFor s m 0x2001 2 t)
    (hc : (c, t) ∈ guardedRows m) (h : (taken s m).requestMode t true = (e, code)) : leaves c s (answered e m code []) := by
  obtain ⟨hrange, hexec⟩ := exec_of_guardedRows hc s
  exact leaves_of_hostGuard hexec ha hrange h ((requestMode_undoc h).trans (taken_undoc ha))

/-- What Table MO-5 has no cause against. -/
theorem modeRefusal_zero {guarded : Bool} (h : modeRefusal d t guarded = 0) :
    d.clamped = false ∧ d.mode.trans = none ∧ modeListed d.modeCode t = true ∧ modeNeedsGuard d.modeCode t = guarded := by
  unfold modeRefusal at h
  split at h
  · exact absurd h (by decide)
  · split at h
    · exact absurd h (by decide)
    · split at h
      · exact absurd h (by decide)
      · split at h
        · exact absurd h (by decide)
        · simp_all

theorem rd_sendRequest (d : Dev) (cause : Nat) (k : Key) : (d.sendRequest cause).rd k = d.rd k := by
  rw [Dev.sendRequest, rd_of_regs (onPair_regs _ _), Dev.sendMate, rd_of_regs (onOut_regs _ _)]

/-- The device of a started transition, whether or not the mate is asked first (R340). -/
theorem startTransition_fields (d : Dev) {t : Nat} (ht : t < 8) : (d.startTransition t).flag O.MODE_STATUS 10 = true
    ∧ (d.startTransition t).fld O.MODE_STATUS 4 3 = t ∧ (d.startTransition t).mode.trans.map (fun x => x.target) = some t := by
  have hshown : (d.startTransition t).rd O.MODE_STATUS
      = ((d.putFlag O.MODE_STATUS 10 true).putFld O.MODE_STATUS 4 3 t).rd O.MODE_STATUS := by
    unfold Dev.startTransition Dev.when
    dsimp only
    split
    · rw [rd_sendRequest, rd_of_regs (onMode_regs _ _)]
    · rw [rd_of_regs (onMode_regs _ _)]
  refine ⟨?_, ?_, ?_⟩
  · rw [flag_of_rd hshown, flag_putFld_outside _ _ _ (by decide) (by decide), flag_putFlag_same _ _ _ (by decide)]
  · rw [fld_of_rd hshown, fld_putFld_same _ _ _ (by decide)]
    exact Nat.mod_eq_of_lt ht
  · unfold Dev.startTransition Dev.when
    dsimp only
    split <;> rfl

end

/-! ## WAKE_CTRL (R352) -/

section
variable {d : Dev} {v : Nat}

theorem wakeWrite_range (h : bits v 1 2 = 3) : wakeWrite v d = (d, 0x06090030) := by simp [wakeWrite, h, abRange]

theorem wakeWrite_taken (h : bits v 1 2 ≠ 3) (hrsvd : (d.rd O.WAKE_CTRL ^^^ v) &&& 0xF8 = 0) : wakeWrite v d = (d.wr O.WAKE_CTRL v, 0) := by
  have hmark : (d.undoc || (d.rd O.WAKE_CTRL ^^^ v) &&& 0xF8 != 0) = d.undoc := by simp [hrsvd]
  unfold wakeWrite
  rw [if_neg (by simpa using h), hmark]
  rfl

theorem wakeWrite_undocumented (h : bits v 1 2 ≠ 3) (hrsvd : (d.rd O.WAKE_CTRL ^^^ v) &&& 0xF8 ≠ 0) : (wakeWrite v d).1.undoc = true := by
  unfold wakeWrite
  rw [if_neg (by simpa using h)]
  simp [hrsvd]

end

/-- A host access in its turn whose effect changes a `rsvd` field stops the machine (R47; log entry 7). -/
theorem exec_fault_of_undoc {c : Instr} {s : State} {m : Master} {q : Req} {r : Dev × Nat} (hc : exec c s = hostTurn s m q r)
    (hr : reachable s m) (h : r.1.undoc = true) : exec c s = .fault .rsvdChanged := by
  obtain ⟨⟨hboot, -⟩, hturn⟩ := hr
  rw [hc, hostTurn, hboot, hturn]
  exact if_pos h

/-- Settles O51: the answer of a request is Table MO-5's cause, and WAKE_CTRL's its value's. -/
theorem modeRequests : Obligations.ModeRequests := by
  unfold Obligations.ModeRequests
  intro s m hr
  refine ⟨fun c t hc => ⟨fun h => ?_, fun h => ?_⟩, fun c t hc ha => ⟨fun h => ?_, fun h => ?_⟩,
    fun d t g ht => ⟨modeRefusal_zero, startTransition_fields d ht⟩, fun v => ⟨fun h => ?_, fun h hrsvd => ?_, fun h hrsvd => ?_⟩⟩
  · exact leaves_modeRequest hr hc (requestMode_accepted h)
  · exact leaves_modeRequest hr hc (requestMode_refused h)
  · exact leaves_modeGuarded ha hc (requestMode_accepted h)
  · exact leaves_modeGuarded ha hc (requestMode_refused h)
  · exact leaves_of_hostNum rfl hr (wakeWrite_range h) (disarmed_undoc hr)
  · exact leaves_of_hostNum rfl hr (wakeWrite_taken h hrsvd) (disarmed_undoc hr)
  · exact exec_fault_of_undoc rfl hr ((congrArg (fun r => r.1.undoc) (plainWrite_of_reachable hr _)).trans (wakeWrite_undocumented h hrsvd))

/-! ## The change at a frame boundary (R350, R320) -/

/-- The banks of the device: no event, no record of a mode and no pair logic changes one. -/
def banks (d : Dev) : Bank × Bank := (d.bankA, d.bankB)

theorem eventBlind_banks : EventBlind banks where
  wr _ _ _ := rfl
  onCan _ _ := rfl
  onProv _ _ := rfl
  onMode _ _ := rfl
  onClk _ _ := rfl
  onComa _ _ := rfl
  onPair _ _ := rfl
  onSec _ _ := rfl
  onOut _ _ := rfl
  pmBreak d := by unfold Dev.pmBreak; split <;> rfl

theorem keyAt_ne {o k : Nat} (i : Nat) (h : k < o) : keyAt o i ≠ k := Nat.ne_of_gt (h.trans_le (Nat.le_add_right o (i * 256)))

theorem pmBreak_mode (d : Dev) : d.pmBreak.mode = d.mode := by
  unfold Dev.pmBreak
  split <;> rfl

section
variable (d : Dev)

/-- The record of a change shows the mode, with no transition under way, at the time of the change (R350 step 4). -/
theorem recordMode_modeCode {m : Nat} (hm : m < 8) : (d.recordMode m).modeCode = m := by
  unfold Dev.recordMode Dev.modeCode
  dsimp only
  rw [fld_of_rd (rd_pmBreak _ _), fld_of_rd (rd_of_regs (onPair_regs _ _) _), fld_of_rd (rd_wr_ne _ _ (by decide)),
    fld_of_rd (rd_of_regs (onMode_regs _ _) _), fld_of_rd (rd_capDebug _ _ (by decide) (by decide)),
    fld_set1_outside _ _ (by decide) (by decide), fld_of_rd (rd_count_ne _ _ (by decide)), fld_of_rd (rd_wr_ne _ _ (by decide)),
    fld_putFlag_outside _ _ _ (by decide) (by decide), fld_putFld_outside _ _ _ (by decide) (by decide),
    fld_putFld_same _ _ _ (by decide)]
  exact Nat.mod_eq_of_lt hm

theorem recordMode_ends {α : Type} {φ : Dev → α} {c : α} (hbreak : ∀ x : Dev, φ x.pmBreak = φ x)
    (hpair : ∀ (x : Dev) (f : PairSt → PairSt), φ (x.onPair f) = φ x) (hwr : ∀ (x : Dev) (k : Key) (v : Nat), φ (x.wr k v) = φ x)
    (hend : ∀ x : Dev, φ (x.onMode (fun s => { s with trans := none })) = c) (m : Nat) : φ (d.recordMode m) = c := by
  rw [Dev.recordMode, hbreak, hpair, hwr, hend]

theorem recordMode_trans (m : Nat) : (d.recordMode m).mode.trans = none :=
  recordMode_ends d (φ := fun x => x.mode.trans) (fun x => congrArg ModeSt.trans (pmBreak_mode x)) (fun _ _ => rfl) (fun _ _ _ => rfl)
    (fun _ => rfl) m

theorem recordMode_entryTime (m : Nat) : (d.recordMode m).rd O.MODE_ENTRY_TIME = d.time := by
  unfold Dev.recordMode
  dsimp only
  rw [rd_pmBreak, rd_of_regs (onPair_regs _ _), rd_wr_ne _ _ (by decide), rd_of_regs (onMode_regs _ _),
    rd_capDebug _ _ (by decide) (by decide), rd_set1_ne _ _ (by decide), rd_count_ne _ _ (by decide), rd_wr_same]
  exact Nat.mod_eq_of_lt (rd_lt d _)

theorem cancelEarly_time (outcome : Nat) : (d.cancelEarly outcome).time = d.time :=
  rd_cancelEarly d outcome (by decide) (by decide) (by decide)

/-- The end of a drive: the SerDes power down and the pair logic stops (R351, Table MO-3). -/
def poweredDown (d : Dev) (quiesce : Bool) : Dev := (d.serdesDown quiesce).pairIdle

/-- What no value, no lane state and no pair state enters stays. -/
theorem poweredDown_keeps {α : Type} {φ : Dev → α} (hwr : ∀ (x : Dev) (k : Key) (v : Nat), φ (x.wr k v) = φ x)
    (hline : ∀ (x : Dev) (f : LineSt → LineSt), φ (x.onLine f) = φ x) (hpair : ∀ (x : Dev) (f : PairSt → PairSt), φ (x.onPair f) = φ x)
    (quiesce : Bool) : φ (poweredDown d quiesce) = φ d := by
  have hfld : ∀ (x : Dev) (k : Key) (lo w v : Nat), φ (x.putFld k lo w v) = φ x := fun x k _ _ _ => hwr x k _
  have hflag : ∀ (x : Dev) (k : Key) (i : Nat) (b : Bool), φ (x.putFlag k i b) = φ x := fun x k _ _ => hwr x k _
  have hstate : ∀ x : Dev, φ (x.setPairState 0) = φ x := fun x => by
    rw [Dev.setPairState, if_neg (by decide), hpair, hfld]
  have hlane : ∀ (x : Dev) (l : Nat), φ (if quiesce && d.genBit (keyAt O.LANE_CTRL l) 7 then x
      else (x.putFld (keyAt O.LANE_STATUS l) 0 4 0).spoilGate l) = φ x := by
    intro x l
    split
    · rfl
    · rw [Dev.spoilGate, hline, hfld]
  unfold poweredDown Dev.pairIdle Dev.serdesDown Dev.stopClaim
  dsimp only
  rw [hpair, hwr, hfld, hfld, hflag, hstate, hflag, hflag, hflag, hline, foldl_keeps (fun x q => hflag x _ _ _), foldl_keeps hlane]

/-- The values that a power-down writes lie in the objects of lanes and quads, and in the pair's. -/
theorem rd_poweredDown (quiesce : Bool) {k : Nat} (hlane : k < O.LANE_STATUS) (hquad : k < O.QUAD_STATUS) (hpair : O.PAIR_STATUS ≠ k)
    (hmate : O.MATE_STATUS ≠ k) : (poweredDown d quiesce).rd k = d.rd k := by
  have hone : ∀ (x : Dev) (l : Nat), (if quiesce && d.genBit (keyAt O.LANE_CTRL l) 7 then x
      else (x.putFld (keyAt O.LANE_STATUS l) 0 4 0).spoilGate l).rd k = x.rd k := by
    intro x l
    split
    · rfl
    · rw [Dev.spoilGate, rd_of_regs (onLine_regs _ _), rd_putFld_ne _ _ _ _ (keyAt_ne l hlane)]
  unfold poweredDown Dev.pairIdle
  dsimp only
  rw [rd_of_regs (onPair_regs _ _), rd_wr_ne _ _ hmate, rd_putFld_ne _ _ _ _ hpair, rd_putFld_ne _ _ _ _ hpair, rd_putFlag_ne _ _ _ hpair,
    rd_setPairState _ _ hpair, rd_stopClaim _ hpair]
  unfold Dev.serdesDown
  dsimp only
  rw [rd_of_regs (onLine_regs _ _), foldl_keeps (φ := fun x => x.rd k) (fun x q => rd_putFlag_ne x (k := quadKey q) _ _ (keyAt_ne (4 * q) hquad)),
    foldl_keeps (φ := fun x => x.rd k) hone]

theorem poweredDown_claiming (quiesce : Bool) : (poweredDown d quiesce).flag O.PAIR_STATUS 7 = false := by
  unfold poweredDown Dev.pairIdle
  dsimp only
  rw [flag_of_rd (rd_of_regs (onPair_regs _ _) _), flag_of_rd (rd_wr_ne _ _ (by decide)),
    flag_putFld_outside _ _ _ (by decide) (by decide), flag_putFld_outside _ _ _ (by decide) (by decide),
    flag_putFlag_ne _ _ _ (by decide) (by decide)]
  unfold Dev.setPairState Dev.stopClaim
  dsimp only
  rw [if_neg (by decide), flag_of_rd (rd_of_regs (onPair_regs _ _) _), flag_putFld_outside _ _ _ (by decide) (by decide),
    flag_putFlag_ne _ _ _ (by decide) (by decide), flag_putFlag_ne _ _ _ (by decide) (by decide), flag_putFlag_same _ _ _ (by decide)]

end

section
variable {d : Dev} {t : Trans}

theorem modeChange_idle (h : d.mode.trans = none) : modeChange d = d := by simp only [modeChange, h]

theorem modeChange_waits (ht : d.mode.trans = some t) (h : d.clamped = true ∨ t.handshake.isSome = true ∨ d.swapCommitted = true) :
    modeChange d = d := by
  rcases h with h | h | h <;> simp [modeChange, ht, h]

/-- What the change of a started transition leaves where nothing holds it back. -/
def changed (d : Dev) (g : Nat) : Dev := (d.cancelEarly 3).recordMode g

/-- The mode that a transition ends in: Shadow in place of Service where a paired unit finds a claim (R320). -/
def goal (d : Dev) (t : Trans) : Nat := if t.target == 2 && d.paired && d.claimIn then 3 else t.target

theorem goal_of_ne {n : Nat} (h : t.target = n) (hn : n ≠ 2) : goal d t = n := by
  subst h
  simp [goal, hn]

section
variable (ht : d.mode.trans = some t) (hclamp : d.clamped = false) (hshake : t.handshake = none) (hswap : d.swapCommitted = false)
include ht hclamp hshake hswap

theorem modeChange_goes : modeChange d =
    if goal d t == 1 || goal d t == 4 then
      (poweredDown (changed d (goal d t)) (goal d t == 4)).when (goal d t == 1 && d.sec.zeroising) Dev.zeroiseBurn
    else ((if d.inInert || d.inQuiesce then (changed d (goal d t)).receiveStart else (changed d (goal d t)).actionsStart).when d.inService
      Dev.stopClaim).enterClaim (goal d t) := by
  have hgo : (d.clamped || t.handshake.isSome || d.swapCommitted) = false := by rw [hclamp, hshake, hswap]; rfl
  simp only [modeChange, ht, hgo]
  exact if_neg Bool.false_ne_true

/-- In Inert and Quiesce the drives stop. -/
theorem modeChange_stops (h : t.target = 1 ∨ t.target = 4) : ∃ e : Dev, modeChange d = e ∧ e.modeCode = t.target ∧ e.mode.trans = none
    ∧ e.rd O.MODE_ENTRY_TIME = d.time ∧ e.flag O.PAIR_STATUS 7 = false ∧ banks e = banks d := by
  have hgoal : goal d t = t.target := goal_of_ne rfl (by omega)
  have hgo := modeChange_goes ht hclamp hshake hswap
  have hdown : (t.target == 1 || t.target == 4) = true := by rcases h with h | h <;> rw [h] <;> rfl
  rw [hgoal, if_pos hdown] at hgo
  have hburn : ∀ {α : Type} {φ : Dev → α} (x : Dev) (c : Bool), (∀ y : Dev, φ y.zeroiseBurn = φ y) → φ (x.when c Dev.zeroiseBurn) = φ x :=
    fun x c hφ => when_keeps hφ x c
  have hrd : ∀ {k : Nat}, k < O.LANE_STATUS → k < O.QUAD_STATUS → O.PAIR_STATUS ≠ k → O.MATE_STATUS ≠ k →
      (modeChange d).rd k = (changed d t.target).rd k := fun hl hq hp hm => by
    rw [hgo, hburn (φ := fun x => x.rd _) _ _ fun y => rfl, rd_poweredDown _ _ hl hq hp hm]
  refine ⟨_, rfl, ?mode, ?trans, ?time, ?claim, ?banks⟩
  case mode =>
    rw [Dev.modeCode, fld_of_rd (hrd (by decide) (by decide) (by decide) (by decide))]
    exact recordMode_modeCode _ (by omega)
  case trans =>
    rw [hgo, hburn (φ := Dev.mode) _ _ fun y => rfl, poweredDown_keeps (φ := Dev.mode) _ (fun _ _ _ => rfl) (fun _ _ => rfl)
      (fun _ _ => rfl)]
    exact recordMode_trans _ _
  case time =>
    rw [hrd (by decide) (by decide) (by decide) (by decide), changed, recordMode_entryTime, cancelEarly_time]
  case claim =>
    rw [hgo, hburn (φ := fun x => x.flag O.PAIR_STATUS 7) _ _ fun y => rfl, poweredDown_claiming]
  case banks =>
    rw [hgo, hburn (φ := banks) _ _ fun y => rfl, poweredDown_keeps (φ := banks) _ (fun _ _ _ => rfl) (fun _ _ => rfl)
      (fun _ _ => rfl), changed, eventBlind_banks.recordMode, eventBlind_banks.cancelEarly]

theorem modeChange_starts {n : Nat} (hgoal : goal d t = n) (h1 : n ≠ 1) (h4 : n ≠ 4) : modeChange d =
    ((if d.inInert || d.inQuiesce then (changed d n).receiveStart else (changed d n).actionsStart).when d.inService Dev.stopClaim).enterClaim
      n := by
  have hgo := modeChange_goes ht hclamp hshake hswap
  rwa [hgoal, if_neg (by simp [h1, h4])] at hgo

end
end

/-- Settles O52: what holds the change back, and the two kinds of mode that it leads to. -/
theorem modeChangeAtFrame : Obligations.ModeChangeAtFrame := by
  unfold Obligations.ModeChangeAtFrame
  intro s d
  refine ⟨fun h => leaves_of_done rfl (modeChange_idle h), fun t ht => ⟨fun h => leaves_of_done rfl (modeChange_waits ht h),
    fun hclamp hshake hswap => ⟨fun h => ?stops, fun h => ?starts⟩⟩⟩
  case stops =>
    obtain ⟨e, he, hmode, htrans, htime, hclaim, hbanks⟩ := modeChange_stops ht hclamp hshake hswap h
    exact ⟨e, leaves_of_done rfl he, hmode, htrans, htime, hclaim, congrArg Prod.fst hbanks, congrArg Prod.snd hbanks⟩
  case starts =>
    have hgoal : goal d t = if t.target = 2 ∧ d.paired = true ∧ d.claimIn = true then 3 else t.target := by
      simp [goal, and_assoc]
    have hrange : goal d t ≠ 1 ∧ goal d t ≠ 4 ∧ goal d t < 8 := by
      rw [hgoal]
      split <;> omega
    rw [← hgoal]
    exact ⟨recordMode_modeCode _ hrange.2.2, recordMode_trans _ _, leaves_of_done rfl (modeChange_starts ht hclamp hshake hswap rfl
      hrange.1 hrange.2.1)⟩

end Sys2Proof.Proofs
end

section
/-!
PROOFS. Resets and Boot (R353 to R357, R420, R422, R428, R462): what a reset keeps, the glitch filter of RESET_N, the stages of Boot and its
end in Inert.
-/
namespace Sys2Proof.Proofs
open Sys2Proof Sys2Proof.Machine

/-! ## Resets (R353, R420) -/

/-- What the always-on domain keeps beside the OTP, in a device that is else as after power-on. -/
def resetBase (d : Dev) : Dev :=
  { devReset with elapsed := d.elapsed, free := d.free, jtag := d.jtag, out := { can := d.out.can, mate := d.out.mate } }

/-- What the OTP and Saggar's store keep. -/
def resetKept (d : Dev) : Dev :=
  (((resetBase d).wr O.LIFECYCLE d.burnAll.lifecycle).wr O.ROLLBACK_COUNTER (d.burnAll.rd O.ROLLBACK_COUNTER)).wr O.REPORT_COUNTER
    (d.burnAll.rd O.REPORT_COUNTER) |>.wrStr O.OWNER_KEY_FP (d.burnAll.rdStr O.OWNER_KEY_FP)

theorem rebooted_eq (d : Dev) (cause straps : Nat) : d.rebooted cause straps =
    ((((resetKept d).putFlag O.SEC_STATUS 0 (d.burnAll.flag O.SEC_STATUS 0)).putFlag O.SEC_STATUS 1
      (d.burnAll.flag O.SEC_STATUS 1 && d.burnAll.lifecycle != 3)).wr O.RESET_CAUSE cause).wr O.STRAPS
        (straps % 2048 + 2048 * ofBit (d.flag O.STRAPS 11)) := rfl

theorem rd_wrStr (d : Dev) (k k' : Key) (v : List Byte) : (d.wrStr k v).rd k' = d.rd k' := rfl

theorem rd_resetBase (d : Dev) (k : Key) : (resetBase d).rd k = devReset.rd k := rfl

section
variable (d : Dev) (cause straps : Nat)

/-- A value that is neither the cause, the straps nor a flag of Saggar is what the OTP kept, or the default. -/
theorem rd_rebooted {k : Key} (hcause : O.RESET_CAUSE ≠ k) (hstraps : O.STRAPS ≠ k) (hsec : O.SEC_STATUS ≠ k) :
    (d.rebooted cause straps).rd k = (resetKept d).rd k := by
  rw [rebooted_eq, rd_wr_ne _ _ hstraps, rd_wr_ne _ _ hcause, rd_putFlag_ne _ _ _ hsec, rd_putFlag_ne _ _ _ hsec]

theorem rd_resetKept {k : Key} (hlife : O.LIFECYCLE ≠ k) (hroll : O.ROLLBACK_COUNTER ≠ k) (hreport : O.REPORT_COUNTER ≠ k) :
    (resetKept d).rd k = devReset.rd k := by
  rw [resetKept, rd_wrStr, rd_wr_ne _ _ hreport, rd_wr_ne _ _ hroll, rd_wr_ne _ _ hlife, rd_resetBase]

theorem rebooted_inBoot : (d.rebooted cause straps).inBoot = true := by
  have hmode : (d.rebooted cause straps).rd O.MODE_STATUS = devReset.rd O.MODE_STATUS :=
    (rd_rebooted d cause straps (by decide) (by decide) (by decide)).trans (rd_resetKept d (by decide) (by decide) (by decide))
  rw [Dev.inBoot, Dev.modeCode, fld_of_rd hmode]
  rfl

theorem rebooted_debug : (d.rebooted cause straps).debug = 0 := by
  rw [Dev.debug, rd_rebooted d cause straps (by decide) (by decide) (by decide), rd_resetKept d (by decide) (by decide) (by decide)]
  decide +kernel

theorem rebooted_cause (h : cause < 4) : (d.rebooted cause straps).rd O.RESET_CAUSE = cause := by
  rw [rebooted_eq, rd_wr_ne _ _ (by decide), rd_wr_same]
  omega

theorem rebooted_straps (x : Straps) : (d.rebooted cause x.toNat).fld O.STRAPS 0 11 = x.toNat := by
  have hx := x.isLt
  rw [rebooted_eq, Dev.fld, rd_wr_same, bits]
  cases d.flag O.STRAPS 11 <;> simp only [ofBit] <;> omega

theorem rebooted_lifecycle : (d.rebooted cause straps).lifecycle = d.burnAll.lifecycle := by
  rw [Dev.lifecycle, rd_rebooted d cause straps (by decide) (by decide) (by decide), resetKept, rd_wrStr, rd_wr_ne _ _ (by decide),
    rd_wr_ne _ _ (by decide), rd_wr_same]
  exact Nat.mod_eq_of_lt (rd_lt d.burnAll O.LIFECYCLE)

theorem rebooted_rollback : (d.rebooted cause straps).rd O.ROLLBACK_COUNTER = d.burnAll.rd O.ROLLBACK_COUNTER := by
  rw [rd_rebooted d cause straps (by decide) (by decide) (by decide), resetKept, rd_wrStr, rd_wr_ne _ _ (by decide), rd_wr_same]
  exact Nat.mod_eq_of_lt (rd_lt d.burnAll _)

theorem rebooted_reports : (d.rebooted cause straps).rd O.REPORT_COUNTER = d.burnAll.rd O.REPORT_COUNTER := by
  rw [rd_rebooted d cause straps (by decide) (by decide) (by decide), resetKept, rd_wrStr, rd_wr_same]
  exact Nat.mod_eq_of_lt (rd_lt d.burnAll _)

theorem rebooted_ownerKey : (d.rebooted cause straps).rdStr O.OWNER_KEY_FP = d.burnAll.rdStr O.OWNER_KEY_FP := by
  have hstrs : (d.rebooted cause straps).rdStr O.OWNER_KEY_FP = (resetKept d).rdStr O.OWNER_KEY_FP := rfl
  rw [hstrs, resetKept, rdStr_wrStr, if_pos rfl]

variable {d}

/-- Without a burn in progress the OTP is as it was. -/
theorem burnAll_of_none (h : d.sec.burns = []) : d.burnAll = d.onSec (fun x => { x with burns := [] }) := by rw [Dev.burnAll, h]; rfl

/-- A lifecycle burn in progress is completed (R420). -/
theorem burnAll_lifecycle {v : Nat} (hv : v < 4) (h : d.sec.burns = [.lifecycle v]) : d.burnAll.lifecycle = v := by
  have hburnt : d.burnAll.rd O.LIFECYCLE = (d.wr O.LIFECYCLE v).rd O.LIFECYCLE := by rw [Dev.burnAll, h]; rfl
  rw [Dev.lifecycle, hburnt, rd_wr_same]
  omega

end

/-- RESET_N below 2 µs is ignored, from 10 µs on it resets, and between the model's free value decides (R462; log entry 5). -/
theorem resetPulse_short (d : Dev) {n : Nat} (straps : Nat) (h : n < 2000) : resetPulse d n straps = d := if_pos h

theorem resetPulse_long (d : Dev) {n : Nat} (straps : Nat) (h : 10000 ≤ n) : resetPulse d n straps = d.rebooted 1 straps := by
  rw [resetPulse, if_neg (by omega), if_pos h]

theorem resetPulse_between (d : Dev) {n : Nat} (straps : Nat) (hlo : 2000 ≤ n) (hhi : n < 10000) :
    resetPulse d n straps = d.fresh ∨ resetPulse d n straps = d.fresh.rebooted 1 straps := by
  rw [resetPulse, if_neg (by omega), if_neg (by omega)]
  split
  · exact .inr rfl
  · exact .inl rfl

/-! ## Boot (R355, R422) -/

section
variable {d : Dev}

/-- The first condition that fails names the error: none is left where all of R422 hold. -/
theorem slotError_manifest (second : Bool) (b : List Byte) (segments : Bool) : slotError d second (.manifest b segments) = 0 ↔
    manifestFits b = true ∧ manifestSigned d b = true ∧ segments = true ∧ d.rd O.ROLLBACK_COUNTER ≤ ofBytesBE (manifestAt b 4 4) := by
  simp only [slotError]
  by_cases hform : manifestFits b = true ∧ manifestSigned d b = true
  · obtain ⟨hfits, hsigned⟩ := hform
    cases segments <;> cases second <;> simp [hfits, hsigned]
  · have hbad : (!manifestFits b || !manifestSigned d b) = true := by
      cases hf : manifestFits b <;> cases hs : manifestSigned d b <;> simp_all
    rw [if_pos hbad]
    constructor
    · intro h
      omega
    · rintro ⟨hfits, hsigned, -⟩
      exact absurd ⟨hfits, hsigned⟩ hform

theorem sramCleared_clears (hboot : d.inBoot = true) (hstage : d.mode.boot = .memoryClear) :
    sramCleared d = d.onMode (fun m => { m with boot := .firstSlot }) := by simp [sramCleared, hboot, hstage]

/-- The digest and the stage of a slot that verified. -/
def slotAccepted (d : Dev) (second : Bool) (b : List Byte) : Dev :=
  (d.wrStr O.MANIFEST_DIGEST (fitBytes 64 (Config.digest (manifestAt b 0 656)))).onMode (fun m => { m with
    boot := .firmware, slot := bootSlot d second, slotRb := ofBytesBE (manifestAt b 4 4), fallback := second })

/-- The manifest that a slot holds. -/
def slotManifest : SlotContent → List Byte
  | .manifest b _ => b
  | .unreadable => []

/-- A slot whose check found an error. -/
def slotRefused (d : Dev) (second : Bool) (c : SlotContent) : Dev :=
  d.onMode (fun m => { m with
    bootError := slotError d second c, boot := if !second && d.fld O.STRAPS 8 2 < 2 then .secondSlot else .halted })

/-- The stage of Boot in which a slot is checked. -/
def slotStage (second : Bool) : BootStage := if second then .secondSlot else .firstSlot

theorem slotRefused_first (c : SlotContent) : slotRefused d false c = d.onMode (fun m => { m with
    bootError := slotError d false c, boot := if d.fld O.STRAPS 8 2 < 2 then .secondSlot else .halted }) := by simp [slotRefused]

theorem slotRefused_second (c : SlotContent) :
    slotRefused d true c = d.onMode (fun m => { m with bootError := slotError d true c, boot := .halted }) := by simp [slotRefused]

variable (hboot : d.inBoot = true) (hclamp : d.clamped = false) {second : Bool} (hstage : d.mode.boot = slotStage second) {c : SlotContent}
include hboot hclamp hstage

theorem slotVerified_eq : slotVerified d c =
    if slotError d second c = 0 then slotAccepted d second (slotManifest c) else slotRefused d second c := by
  have hsecond : (d.mode.boot == .secondSlot) = second := by rw [hstage]; cases second <;> rfl
  have hguard : (!d.inBoot || d.clamped || !(second || d.mode.boot == .firstSlot)) = false := by
    rw [hboot, hclamp, hstage]
    cases second <;> rfl
  simp only [slotVerified, hsecond, hguard, beq_iff_eq]
  cases c <;> rfl

/-- The check of a slot, as the next stage shows it. -/
theorem slotVerified_cases : (slotVerified d c).inBoot = true ∧
    (slotError d second c = 0 → (slotVerified d c).mode.boot = .firmware ∧ (slotVerified d c).mode.slot = bootSlot d second
      ∧ (slotVerified d c).mode.fallback = second) ∧
    (slotError d second c ≠ 0 → slotVerified d c = slotRefused d second c) := by
  rw [slotVerified_eq hboot hclamp hstage]
  by_cases h : slotError d second c = 0
  · rw [if_pos h]
    exact ⟨hboot, fun _ => ⟨rfl, rfl, rfl⟩, fun hne => absurd h hne⟩
  · rw [if_neg h]
    exact ⟨hboot, fun he => absurd he h, fun _ => rfl⟩

end

/-! ## The end of Boot (R356 to R358) -/

theorem smLook_filter {α : Type} (x : α) (p : Nat → Bool) (m : SMap α) {k : Nat} (h : p k = true) :
    smLook x (m.filter (fun e => p e.1)) k = smLook x m k := by
  induction m with
  | nil => rfl
  | cons e r ih =>
    obtain ⟨j, v⟩ := e
    by_cases hj : j = k
    · subst hj
      simp [smLook, h]
    · by_cases hp : p j = true <;> simp [smLook, hp, hj, ih]

/-- Whether an object lies outside 1000 to 1FFF. -/
def notCommunication (k : Nat) : Bool := Key.idx k < 0x1000 || 0x1FFF < Key.idx k

/-- The device with 1000 to 1FFF at their defaults. -/
def communicationReset (d : Dev) : Dev := { d with regs := d.regs.filter (fun e => notCommunication e.1) }

/-- The node-ID of the CAN layer (R64). -/
def nodeOf (d : Dev) : Nat := if d.rd O.NODE_ID_OVERRIDE != 0 then d.rd O.NODE_ID_OVERRIDE else d.fld O.STRAPS 0 7

/-- The defaults of the CAN layer with the values of 20F0 applied (R63 to R65). -/
def canDefaults (d : Dev) : Dev :=
  ((([0, 1, 2, 3].foldl (fun x n => x.wr (keyAt O.TPDO_COB_ID n) (0x180 + 0x100 * n + nodeOf d)) (communicationReset d.dropEmcy)).wr
    O.COB_ID_EMCY (0x80 + nodeOf d)).onCan (fun c => { c with
      nodeId := nodeOf d, sdo := none, inhibited := [], waiting := [], held := []
      nmt := if nodeOf d == 0 then .silent else .initialising })).wr O.CAN_BITRATE_ACTIVE (d.rd O.CAN_BITRATE)

theorem canInit_eq (d : Dev) :
    d.canInit = if nodeOf d == 0 || d.rd O.CAN_BITRATE == 0 then canDefaults d else (canDefaults d).canBootUp := rfl

theorem rd_communicationReset (d : Dev) {k : Key} (h : notCommunication k = true) : (communicationReset d).rd k = d.rd k :=
  congrArg BitVec.toNat (smLook_filter (dfltWord k) notCommunication d.regs h)

/-- An object outside 1000 to 1FFF other than the rate in force: the initialisation of the CAN layer leaves it (R63). -/
def canInitKeeps (k : Key) : Prop :=
  notCommunication k = true ∧ O.CAN_BITRATE_ACTIVE ≠ k ∧ O.COB_ID_EMCY ≠ k ∧ ∀ n ∈ [0, 1, 2, 3], keyAt O.TPDO_COB_ID n ≠ k

theorem rd_canInit (d : Dev) {k : Key} (h : canInitKeeps k) : d.canInit.rd k = d.rd k := by
  obtain ⟨hidx, hrate, hemcy, htpdo⟩ := h
  have hcob : ∀ (f : Nat → Nat) (x : Dev), ([0, 1, 2, 3].foldl (fun x n => x.wr (keyAt O.TPDO_COB_ID n) (f n)) x).rd k = x.rd k :=
    fun f x => by
      simp only [List.foldl_cons, List.foldl_nil]
      rw [rd_wr_ne _ _ (htpdo 3 (by decide)), rd_wr_ne _ _ (htpdo 2 (by decide)), rd_wr_ne _ _ (htpdo 1 (by decide)),
        rd_wr_ne _ _ (htpdo 0 (by decide))]
  have hdropped : d.dropEmcy.rd k = d.rd k := rfl
  have hdefaults : (canDefaults d).rd k = d.rd k := by
    rw [canDefaults, rd_wr_ne _ _ hrate, rd_of_regs (onCan_regs _ _), rd_wr_ne _ _ hemcy, hcob, rd_communicationReset _ hidx, hdropped]
  rw [canInit_eq]
  split
  · exact hdefaults
  · rw [Dev.canBootUp, rd_of_regs (onCan_regs _ _), rd_sendCan, hdefaults]

theorem banks_canInit (d : Dev) : banks d.canInit = banks d := by
  have hb := eventBlind_banks
  have hcleared : banks (communicationReset d.dropEmcy) = banks d := rfl
  have hdefaults : banks (canDefaults d) = banks d := by
    rw [canDefaults, hb.wr, hb.onCan, hb.wr, foldl_keeps (fun x n => hb.wr x _ _), hcleared]
  rw [canInit_eq]
  split
  · exact hdefaults
  · rw [Dev.canBootUp, hb.onCan, hb.sendCan, hdefaults]

/-- Boot has ended but for the selection of the reference and the CAN layer: generation 0 in both banks, Inert, OP2 (R356, R357). -/
def firmwareUp (d : Dev) (ms : Nat) : Dev :=
  let d1 := { d with bankA := generation0, bankB := generation0 }
  let d2 := ((d1.putFld O.MODE_STATUS 0 3 1).putFld O.MODE_STATUS 4 3 1).wr O.MODE_ENTRY_TIME d.time
  ((d2.wr O.ACTIVE_CRC generation0.genCrc.toNat).wr O.ACTIVE_OP 2).wr O.BOOT_INFO
    (d.mode.slotRb % 256 * 2 ^ 16 + ms * 2 ^ 8 + 4 * ofBit d.mode.fallback + d.mode.slot)

section
variable {d : Dev} (ms : Nat)

theorem bootEnded_eq (hboot : d.inBoot = true) (hclamp : d.clamped = false) (hstage : d.mode.boot = .firmware) : bootEnded d ms =
    (((firmwareUp d ms).putFld O.CLOCK_STATUS 0 2 (firmwareUp d ms).bestRef).when ((firmwareUp d ms).bestRef == 3)
      (fun x => x.enterClamp 8)).canInit := by
  have hgo : (!d.inBoot || d.clamped || d.mode.boot != .firmware) = false := by rw [hboot, hclamp, hstage]; rfl
  simp only [bootEnded, hgo]
  exact if_neg Bool.false_ne_true

theorem firmwareUp_active (d : Dev) : (firmwareUp d ms).active = generation0 := ite_self _

theorem generation0_refCtrl : bit (bankRd generation0 O.REF_CTRL) 2 = true := by decide +kernel

/-- The synthesiser's reference is enabled in generation 0: where it is qualified, a reference is selected (R364). -/
theorem firmwareUp_bestRef (hsynth : d.flag O.CLOCK_STATUS 6 = true) : (firmwareUp d ms).bestRef ≠ 3 := by
  have hflag : (firmwareUp d ms).flag O.CLOCK_STATUS 6 = d.flag O.CLOCK_STATUS 6 := flag_of_rd (by
    unfold firmwareUp
    dsimp only
    rw [rd_wr_ne _ _ (by decide), rd_wr_ne _ _ (by decide), rd_wr_ne _ _ (by decide), rd_wr_ne _ _ (by decide),
      rd_putFld_ne _ _ _ _ (by decide), rd_putFld_ne _ _ _ _ (by decide)]
    rfl) 6
  have husable : (firmwareUp d ms).refUsable 2 = true := by
    rw [Dev.refUsable, Dev.genBit, Dev.genA, firmwareUp_active, generation0_refCtrl, hflag, hsynth]
    rfl
  rw [Dev.bestRef, husable]
  split
  · decide
  · split <;> decide

theorem rd_firmwareUp_status : (firmwareUp d ms).rd O.MODE_STATUS =
    ((d.putFld O.MODE_STATUS 0 3 1).putFld O.MODE_STATUS 4 3 1).rd O.MODE_STATUS := by
  unfold firmwareUp
  dsimp only
  rw [rd_wr_ne _ _ (by decide), rd_wr_ne _ _ (by decide), rd_wr_ne _ _ (by decide), rd_wr_ne _ _ (by decide)]
  rfl

/-- Boot ends in Inert where the synthesiser's reference is qualified. -/
theorem bootEnded_ends (hboot : d.inBoot = true) (hclamp : d.clamped = false) (hstage : d.mode.boot = .firmware)
    (hsynth : d.flag O.CLOCK_STATUS 6 = true) : (bootEnded d ms).modeCode = 1 ∧ banks (bootEnded d ms) = (generation0, generation0)
      ∧ (bootEnded d ms).rd O.ACTIVE_OP = 2 ∧ (bootEnded d ms).clamped = false := by
  have hbest : ((firmwareUp d ms).bestRef == 3) = false := by simpa using firmwareUp_bestRef ms hsynth
  have hended : bootEnded d ms = ((firmwareUp d ms).putFld O.CLOCK_STATUS 0 2 (firmwareUp d ms).bestRef).canInit := by
    rw [bootEnded_eq ms hboot hclamp hstage, hbest]
    rfl
  have hrd : ∀ {k : Key}, canInitKeeps k → O.CLOCK_STATUS ≠ k → (bootEnded d ms).rd k = (firmwareUp d ms).rd k := fun hk hclock => by
    rw [hended, rd_canInit _ hk, rd_putFld_ne _ _ _ _ hclock]
  have hstatus := (hrd (k := O.MODE_STATUS) (by unfold canInitKeeps; decide +kernel) (by decide)).trans (rd_firmwareUp_status ms)
  refine ⟨?mode, ?banks, ?op, ?clamp⟩
  case mode =>
    rw [Dev.modeCode, fld_of_rd hstatus, fld_putFld_outside _ _ _ (by decide) (by decide), fld_putFld_same _ _ _ (by decide)]
    rfl
  case banks =>
    rw [hended, banks_canInit, eventBlind_banks.putFld]
    rfl
  case op =>
    rw [hrd (by unfold canInitKeeps; decide +kernel) (by decide), firmwareUp, rd_wr_ne _ _ (by decide), rd_wr_same,
      Nat.mod_eq_of_lt (by decide)]
  case clamp =>
    rw [Dev.clamped, flag_of_rd hstatus, flag_putFld_outside _ _ _ (by decide) (by decide),
      flag_putFld_outside _ _ _ (by decide) (by decide)]
    exact hclamp

end

/-! ## The statement -/

/-- Settles O53: each reset is the reboot with its cause, the stages of Boot follow the check of the slots, and Boot ends in Inert. -/
theorem resetsAndBoot : Obligations.ResetsAndBoot := by
  unfold Obligations.ResetsAndBoot
  intro s x d
  have hdev : ∀ {e f : Dev}, e = f → (Host.Outcome.next { s with dev := e } : Host.Outcome State Fault Refusal) = .next { s with dev := f } :=
    fun h => congrArg (fun e => Host.Outcome.next { s with dev := e }) h
  refine ⟨rfl, fun n => ⟨fun h => hdev (resetPulse_short d _ h), fun hlo hhi => ?between, fun h => hdev (resetPulse_long d _ h)⟩,
    fun h => hdev (if_pos h), fun h => hdev (if_neg (by simpa using h)), fun m ha => ?unitReset, fun c hc => ?kept, fun hboot hstage => ?clear,
    fun c hboot hclamp => ⟨fun hstage => ?first, fun hstage => ?second⟩, fun b segments second => slotError_manifest second b segments,
    fun second => rfl, fun n hboot hclamp hstage hsynth => ?ended⟩
  case between =>
    rcases resetPulse_between d x.toNat hlo hhi with h | h
    · exact .inl (hdev h)
    · exact .inr (hdev h)
  case unitReset => exact leaves_of_hostGuard rfl ha (by decide) rfl (documented_rebooted _ _ _)
  case kept =>
    refine ⟨rebooted_inBoot d c _, rebooted_cause d _ _ hc, rebooted_straps d c x, rebooted_debug d c _, rfl, rfl, rfl,
      fun hburns => ?_, fun v hv hburns => (rebooted_lifecycle d c _).trans (burnAll_lifecycle hv hburns)⟩
    have hnone := burnAll_of_none hburns
    refine ⟨(rebooted_lifecycle d c _).trans ?_, (rebooted_rollback d c _).trans ?_, (rebooted_reports d c _).trans ?_,
      (rebooted_ownerKey d c _).trans ?_⟩ <;> rw [hnone] <;> rfl
  case clear => exact leaves_of_done rfl (sramCleared_clears hboot hstage)
  case first =>
    obtain ⟨hin, hgood, hbad⟩ := slotVerified_cases hboot hclamp (second := false) hstage (c := c)
    exact gives_of_done rfl ⟨hin, hgood, fun h => (hbad h).trans (slotRefused_first c)⟩
  case second =>
    obtain ⟨hin, hgood, hbad⟩ := slotVerified_cases hboot hclamp (second := true) hstage (c := c)
    exact gives_of_done rfl ⟨hin, hgood, fun h => (hbad h).trans (slotRefused_second c)⟩
  case ended =>
    obtain ⟨hmode, hbanks, hop, hunclamped⟩ := bootEnded_ends n.toNat hboot hclamp hstage hsynth
    exact gives_of_done rfl ⟨hmode, congrArg Prod.fst hbanks, congrArg Prod.snd hbanks, hop, hunclamped⟩

end Sys2Proof.Proofs
end

section
/-!
PROOFS. Delineation of a cell lane (R298, R299, Table TF-1): the states that block lock, its loss and the header of a cell lead to.
-/
namespace Sys2Proof.Proofs
open Sys2Proof Sys2Proof.Machine

/-! ## The state of a lane -/

/-- DELIN_STATE of a lane: 0 HUNT, 1 PRESYNC, 2 SYNC, 3 NO_LOCK. -/
def delinState (d : Dev) (c : CellLane) : Nat := d.fld (laneKey c) 1 2

/-- The bytes of a received cell after the lane's polarity (R298). -/
def cellOf (d : Dev) (raw : List Byte) : CellLane → List Byte
  | .tfi l => d.tfiPolar l.val 1 raw
  | .mate _ => raw

theorem rd_onCellLane (d : Dev) (c : CellLane) (f : TfiLane → TfiLane) (k : Key) : (d.onCellLane c f).rd k = d.rd k := by
  cases c <;> rfl

theorem cellLane_onCellLane (d : Dev) (c : CellLane) (f : TfiLane → TfiLane) : (d.onCellLane c f).cellLane c = f (d.cellLane c) := by
  cases c <;> simp [Dev.onCellLane, Dev.cellLane, Dev.onTfi, Dev.onMateLane, Dev.tfiOf, smLook_smPut]

theorem cellLane_count (d : Dev) (c : CellLane) (k : Key) (n : Nat) : (d.count k n).cellLane c = d.cellLane c := by
  unfold Dev.count
  split
  · split <;> rfl
  · rfl

/-- The subindex of a key is that of its object. -/
theorem sub_keyAt (o i : Nat) : Key.sub (keyAt o i) = o % 256 := Nat.add_mul_mod_self_right o i 256

theorem sub_laneKey (c : CellLane) : Key.sub (laneKey c) = 3 ∨ Key.sub (laneKey c) = 4 := by
  cases c with
  | tfi l => exact .inr (sub_keyAt _ _)
  | mate k => exact .inl (sub_keyAt _ _)

theorem ne_laneKey {k : Key} (c : CellLane) (h : Key.sub k < 3) : k ≠ laneKey c := by
  rintro rfl
  rcases sub_laneKey c with hc | hc <;> omega

/-- A lane shows the state that it enters. -/
theorem delinState_setDelin (d : Dev) (c : CellLane) {st : Nat} (h : st < 4) : delinState (d.setDelin c st) c = st := by
  have hput : ∀ f, ((d.putFld (laneKey c) 1 2 st).onCellLane c f).fld (laneKey c) 1 2 = st := fun f => by
    rw [fld_of_rd (rd_onCellLane _ _ _ _), fld_putFld_same _ _ _ (by decide)]
    exact Nat.mod_eq_of_lt h
  have hleft : ∀ f g, ((((d.putFld (laneKey c) 1 2 st).onCellLane c f).set1 (laneKey c) 9).onCellLane c g).fld (laneKey c) 1 2 = st :=
    fun f g => by
      rw [fld_of_rd (rd_onCellLane _ _ _ _), fld_set1_outside _ _ (by decide) (by decide), hput]
  unfold Dev.setDelin delinState
  dsimp only
  cases c with
  | tfi l =>
    dsimp only
    rw [fld_of_rd (rd_putFlag_ne _ _ _ (ne_laneKey (.tfi l) (by decide)))]
    split
    · exact hleft _ _
    · exact hput _
  | mate k =>
    dsimp only
    split
    · rw [fld_of_rd (rd_putFlag_ne _ _ _ (ne_laneKey (.mate k) (by decide)))]
      exact hleft _ _
    · exact hput _

/-! ## Cells (R299) -/

section
variable {d : Dev} {c : CellLane}

theorem delineate_hunt (h : delinState d c = 0) : d.delineate c true = d.setDelin c 1 := by
  rw [delinState] at h
  simp [Dev.delineate, h]

theorem delineate_presync (h : delinState d c = 1) : d.delineate c true =
    if 5 ≤ (d.cellLane c).good then d.setDelin c 2 else d.onCellLane c (fun y => { y with good := y.good + 1 }) := by
  rw [delinState] at h
  simp [Dev.delineate, h]

theorem delineate_presync_errored (h : delinState d c = 1) : d.delineate c false = d.setDelin c 0 := by
  rw [delinState] at h
  simp [Dev.delineate, h]

theorem delineate_sync_errored (h : delinState d c = 2) : d.delineate c false =
    if 6 ≤ (d.cellLane c).bad then d.setDelin c 0 else d.onCellLane c (fun y => { y with bad := y.bad + 1 }) := by
  rw [delinState] at h
  simp [Dev.delineate, h]

theorem blockLock_kept (h : delinState d c ≠ 3) : blockLock d c = d := by
  rw [delinState] at h
  simp [blockLock, h]

theorem blockLockLoss_lost (h : delinState d c = 3) : blockLockLoss d c = d := by
  rw [delinState] at h
  simp [blockLockLoss, h]

variable (hruns : d.cellLaneRuns c = true)
include hruns

theorem blockLock_locks (h : delinState d c = 3) : blockLock d c = d.setDelin c 0 := by
  rw [delinState] at h
  simp [blockLock, hruns, h]

theorem blockLockLoss_falls (h : delinState d c ≠ 3) : blockLockLoss d c = d.setDelin c 3 := by
  rw [delinState] at h
  simp [blockLockLoss, hruns, h]

variable {raw : List Byte} (hlen : raw.length = 80) (syncOk : Bool)
include hlen

/-- Out of SYNC a cell is delineated and no more. -/
theorem cellReceived_searching (hstate : delinState d c ≠ 2) : cellReceived d c raw syncOk =
    d.delineate c (hec (cellOf d raw c) == ((cellOf d raw c).getD 7 0).toNat) := by
  rw [delinState] at hstate
  have hraw : fitBytes 80 raw = raw := List.take_left' hlen
  cases c <;> simp [cellReceived, hruns, hraw, hstate, cellOf]

/-- A cell with an errored header is delineated, and counted in SYNC of a TFI lane. -/
theorem cellReceived_errored (hbad : hec (cellOf d raw c) ≠ ((cellOf d raw c).getD 7 0).toNat) :
    cellReceived d c raw syncOk = d.delineate c false ∨
      ∃ l : Fin 32, cellReceived d c raw syncOk = (d.delineate c false).count (keyAt O.HEC_ERRORS l.val) 1 := by
  have hraw : fitBytes 80 raw = raw := List.take_left' hlen
  have hhec : (hec (cellOf d raw c) == ((cellOf d raw c).getD 7 0).toNat) = false := by simpa using hbad
  cases c with
  | mate k => exact .inl (by simp only [cellOf] at hhec; simp only [cellReceived, hruns, hraw, hhec]; rfl)
  | tfi l =>
    simp only [cellOf] at hhec
    simp only [cellReceived, hruns, hraw, hhec, Bool.false_and, Bool.not_true, Bool.not_false, Bool.false_eq_true, if_false, if_true]
    split
    · exact .inl rfl
    · exact .inr ⟨l, rfl⟩

/-- An errored header leaves the state and the items of the lane as its delineation does. -/
theorem cellReceived_errored_lane (hbad : hec (cellOf d raw c) ≠ ((cellOf d raw c).getD 7 0).toNat) :
    delinState (cellReceived d c raw syncOk) c = delinState (d.delineate c false) c
      ∧ (cellReceived d c raw syncOk).cellLane c = (d.delineate c false).cellLane c := by
  rcases cellReceived_errored hruns hlen syncOk hbad with h | ⟨l, h⟩
  · rw [h]
    exact ⟨rfl, rfl⟩
  · rw [h]
    have hne : keyAt O.HEC_ERRORS l.val ≠ laneKey c := ne_laneKey c (by rw [sub_keyAt]; decide)
    exact ⟨fld_of_rd (rd_count_ne _ _ hne) 1 2, cellLane_count _ _ _ _⟩

end

/-- Settles O45: each row of Table TF-1, from the state of the lane and the header of the cell. -/
theorem delineation : Obligations.Delineation := by
  unfold Obligations.Delineation
  intro s c hruns
  have hset : ∀ st, st < 4 → delinState (s.dev.setDelin c st) c = st := fun st h => delinState_setDelin s.dev c h
  have hkept : ∀ f, delinState (s.dev.onCellLane c f) c = delinState s.dev c := fun f => fld_of_rd (rd_onCellLane _ _ _ _) _ _
  refine ⟨fun h => ?locks, fun h => leaves_of_done rfl (blockLock_kept h), fun h => ?falls, fun h => leaves_of_done rfl (blockLockLoss_lost h),
    fun raw syncOk hlen => ?cells⟩
  case locks => exact gives_of_done rfl ((congrArg (delinState · c) (blockLock_locks hruns h)).trans (hset 0 (by decide)))
  case falls => exact gives_of_done rfl ((congrArg (delinState · c) (blockLockLoss_falls hruns h)).trans (hset 3 (by decide)))
  case cells =>
    refine ⟨fun hgood => ?good, fun hbad => ?bad⟩
    case good =>
      have hheader : hec (cellOf s.dev raw c) = ((cellOf s.dev raw c).getD 7 0).toNat := by cases c <;> exact hgood
      have hrecv : delinState s.dev c ≠ 2 → cellReceived s.dev c raw syncOk = s.dev.delineate c true := fun h => by
        rw [cellReceived_searching hruns hlen syncOk h, hheader, beq_self_eq_true]
      refine ⟨fun h => gives_of_done rfl ?_, fun h hmany => gives_of_done rfl ?_, fun h hfew => gives_of_done rfl ?_⟩
      · have hne : delinState s.dev c ≠ 2 := by rw [delinState, h]; decide
        exact (congrArg (delinState · c) ((hrecv hne).trans (delineate_hunt h))).trans (hset 1 (by decide))
      · have hne : delinState s.dev c ≠ 2 := by rw [delinState, h]; decide
        rw [hrecv hne, delineate_presync h, if_pos hmany]
        exact hset 2 (by decide)
      · have hne : delinState s.dev c ≠ 2 := by rw [delinState, h]; decide
        rw [hrecv hne, delineate_presync h, if_neg (by omega), cellLane_onCellLane]
        exact ⟨(hkept _).trans h, rfl⟩
    case bad =>
      have hheader : hec (cellOf s.dev raw c) ≠ ((cellOf s.dev raw c).getD 7 0).toNat := by cases c <;> exact hbad
      have hlane := cellReceived_errored_lane hruns hlen syncOk hheader
      refine ⟨fun h => gives_of_done rfl ?_, fun h hmany => gives_of_done rfl ?_, fun h hfew => gives_of_done rfl ?_⟩
      · rw [delineate_presync_errored h] at hlane
        exact hlane.1.trans (hset 0 (by decide))
      · rw [delineate_sync_errored h, if_pos hmany] at hlane
        exact hlane.1.trans (hset 0 (by decide))
      · rw [delineate_sync_errored h, if_neg (by omega), cellLane_onCellLane] at hlane
        exact ⟨(hlane.1.trans (hkept _)).trans h, congrArg TfiLane.bad hlane.2⟩

end Sys2Proof.Proofs
end

section
/-!
PROOFS. A client visit with PIN_MODE 0, and FAR_REPORT (R284, R288, R295).
-/
namespace Sys2Proof.Proofs
open Sys2Proof Sys2Proof.Machine

/-! ## The bank in force through a visit -/

section
variable (d : Dev) (c : Nat)

theorem active_raise (e : Ev) : (d.raise e).active = d.active :=
  active_congr (rd_raise d e (by decide)) (congrArg Prod.fst (eventBlind_banks.raise d e)) (congrArg Prod.snd (eventBlind_banks.raise d e))

theorem active_slewTo (t : Nat) : (d.slewTo c t).active = d.active := by
  unfold Dev.slewTo
  split <;> rfl

theorem active_setPin (st : Nat) : (d.setPin c st).active = d.active := by
  have hk : keyAt O.PIN_STATUS c ≠ O.ACTIVE_BANK := keyAt_ne c (by decide)
  have hput : ((d.putFld (keyAt O.PIN_STATUS c) 0 3 st).set1 (keyAt O.PIN_STATUS c) 14).active = d.active :=
    (active_wr _ _ hk).trans (active_wr _ _ hk)
  unfold Dev.setPin
  dsimp only
  split_ifs
  · rfl
  · exact (active_raise _ _).trans hput
  · exact (active_raise _ _).trans hput
  · exact hput

theorem active_pinAt (st : Nat) (fill : Int) : (d.pinAt c st fill false).active = d.active := by
  unfold Dev.pinAt
  dsimp only
  split
  · exact (active_slewTo _ c _).trans (active_setPin d c 5)
  · exact (active_slewTo _ c _).trans (active_setPin d c st)

theorem active_farCheck : (d.farCheck c).active = d.active := by
  have hk : keyAt O.PIN_STATUS c ≠ O.ACTIVE_BANK := keyAt_ne c (by decide)
  unfold Dev.farCheck
  dsimp only
  split
  · exact active_wr (d.wrStr (keyAt O.FAR_REPORT c) (List.replicate 16 0)) _ hk
  · rfl

/-- MEMBER_SKEW as a visit gives it: a value, or none. -/
def skewGiven (d : Dev) (c : Nat) (v : Option Int) : Dev :=
  match v with
  | some s => (d.wr (keyAt O.MEMBER_SKEW c) (ofSigned 32 s)).putFlag (keyAt O.PIN_STATUS c) 11 true
  | none => (d.wr (keyAt O.MEMBER_SKEW c) noReading).putFlag (keyAt O.PIN_STATUS c) 11 false

theorem active_skewGiven (v : Option Int) : (skewGiven d c v).active = d.active := by
  have hput : ∀ (n : Nat) (b : Bool), ((d.wr (keyAt O.MEMBER_SKEW c) n).putFlag (keyAt O.PIN_STATUS c) 11 b).active = d.active :=
    fun n b => (active_wr _ _ (keyAt_ne c (by decide))).trans (active_wr _ _ (keyAt_ne c (by decide)))
  cases v
  · exact hput _ _
  · exact hput _ _

/-- A visit gives the skew a value or none, or leaves it: the two stamps are not of one edge. -/
theorem skewWork_gives : d.skewWork c = d ∨ ∃ v, d.skewWork c = skewGiven d c v := by
  unfold Dev.skewWork
  dsimp only
  generalize (if d.boundPath c == 0 then 0 else d.partnerOf (d.boundPath c)) = p
  split
  · exact .inr ⟨none, rfl⟩
  · split
    · exact .inr ⟨_, rfl⟩
    · split
      · exact .inl rfl
      · exact .inr ⟨_, rfl⟩

theorem active_skewWork : (d.skewWork c).active = d.active := by
  rcases skewWork_gives d c with h | ⟨v, h⟩
  · rw [h]
  · rw [h, active_skewGiven]

theorem active_holdEnds : (d.holdEnds c).active = d.active := by
  unfold Dev.holdEnds
  dsimp only
  split
  · split
    · rfl
    · exact active_pinAt _ c _ _
  · rfl

end

/-! ## A visit with PIN_MODE 0 (R284, R295) -/

section
variable (d : Dev) (c : Nat)

/-- The port that a visit finds: a stale report discarded, the skew computed, a hold without its cause ended. -/
def visited (d : Dev) (c : Nat) : Dev := ((d.farCheck c).skewWork c).holdEnds c

/-- A port that is OFF and heads for the fill of 1024 bits. -/
def pinnedOff (d : Dev) (c : Nat) : Dev := ((d.setPin c 0).slewTo c 1024).onClient c (fun x => { x with before := none })

/-- What a visit shows of a port. -/
def fillShown (d : Dev) (c : Nat) : Dev := (d.wr (keyAt O.BUFFER_FILL c) (d.fillNow c)).wrStr (keyAt O.PIN_REPORT c) (d.pinReport c)

theorem clientVisit_off {d : Dev} {c : Nat} (hruns : d.clientRuns c = true) (hmode : d.genFld (keyAt O.PIN_CTRL c) 0 2 = 0) :
    clientVisit d c = fillShown (pinnedOff (visited d c) c) c := by
  have hactive : (visited d c).active = d.active := by
    rw [visited, active_holdEnds, active_skewWork, active_farCheck]
  have hkept : (visited d c).genFld (keyAt O.PIN_CTRL c) 0 2 = 0 := by rw [Dev.genFld, Dev.genA, hactive]; exact hmode
  unfold clientVisit
  rw [if_neg (by simp [hruns])]
  exact congrArg (fun x => fillShown x c) (if_pos (beq_iff_eq.mpr hkept))

theorem clientOf_onClient (f : ClientSt → ClientSt) : (d.onClient c f).clientOf c = f (d.clientOf c) := by
  simp [Dev.clientOf, Dev.onClient, smLook_smPut]

theorem slewTo_target (t : Nat) : ((d.slewTo c t).clientOf c).target = t := by
  unfold Dev.slewTo
  split
  · next h => simpa using h
  · rw [clientOf_onClient]

theorem slewTo_regs (t : Nat) : (d.slewTo c t).regs = d.regs := by
  unfold Dev.slewTo
  split <;> rfl

theorem fld_setPin_off : (d.setPin c 0).fld (keyAt O.PIN_STATUS c) 0 3 = 0 := by
  unfold Dev.setPin
  dsimp only
  split
  · next h => simpa using h
  · rw [if_neg (by decide), if_neg (by decide), fld_set1_outside _ _ (by decide) (by decide), fld_putFld_same _ _ _ (by decide),
      Nat.zero_mod]

theorem pinnedOff_client : ((pinnedOff d c).clientOf c).target = 1024 ∧ ((pinnedOff d c).clientOf c).before = none := by
  rw [pinnedOff, clientOf_onClient]
  exact ⟨slewTo_target _ c 1024, rfl⟩

theorem pinnedOff_state : (pinnedOff d c).fld (keyAt O.PIN_STATUS c) 0 3 = 0 :=
  (fld_of_rd (rd_of_regs (slewTo_regs (d.setPin c 0) c 1024) _) 0 3).trans (fld_setPin_off d c)

theorem fillShown_clientOf : (fillShown d c).clientOf c = d.clientOf c := rfl

/-- The mean fill follows the client, the bank in force and the time. -/
theorem fillNow_congr {d e : Dev} {c : Nat} (hactive : e.active = d.active) (hclients : e.clients = d.clients) (htime : e.elapsed = d.elapsed) :
    e.fillNow c = d.fillNow c := by
  simp only [Dev.fillNow, Dev.fillBy, Dev.pinSlew, Dev.clientType, Dev.genFld, Dev.genA, Dev.clientOf, hactive, hclients, htime]
  rfl

theorem fillShown_fillNow : (fillShown d c).fillNow c = d.fillNow c :=
  fillNow_congr (active_wr d _ (keyAt_ne c (by decide))) rfl rfl

theorem rd_fillShown : (fillShown d c).rd (keyAt O.BUFFER_FILL c) = (fillShown d c).fillNow c % 2 ^ 64 := by
  rw [fillShown_fillNow]
  exact rd_wr_same d _ _

theorem fld_fillShown : (fillShown d c).fld (keyAt O.PIN_STATUS c) 0 3 = d.fld (keyAt O.PIN_STATUS c) 0 3 := by
  have hne : keyAt O.BUFFER_FILL c ≠ keyAt O.PIN_STATUS c := fun h => absurd (Nat.add_right_cancel h) (by decide)
  exact fld_of_rd (rd_wr_ne d _ hne) 0 3

end

/-! ## FAR_REPORT (R288, R295) -/

section
variable {d : Dev} {c : Nat} {l : List Byte}

/-- A write of FAR_REPORT by a master in its turn, by its effect. -/
theorem leaves_farReport {s : State} {m : Master} {c : Fin 32} {e : Dev} {code : Nat} (hr : reachable s m)
    (hgate : (disarmed s m).gateOn gClient = true) (h : farWrite c.val l (disarmed s m) = (e, code)) (hd : e.undoc = false) :
    leaves (.farReport m c l) s (answered e m code []) := by
  have hwrite : (disarmed s m).ungated gClient (farWrite c.val l) = (e, code) := (if_pos hgate).trans h
  exact leaves_of_hostTurn rfl hr ((plainWrite_of_reachable hr _).trans hwrite) hd

theorem farWrite_shadow (h : d.inShadow = true) : farWrite c l d = (d, 0x08000022) := writeTogether_shadow _ _ _ h

theorem writeTogether_bad {w : PairedWrite} {check : Nat} {apply : Dev → Dev} (hshadow : d.inShadow = false) (hcheck : check ≠ 0) :
    d.writeTogether w check apply = (d, check) := by
  simp [Dev.writeTogether, hshadow, hcheck]

theorem farWrite_length (hshadow : d.inShadow = false) (hlen : l.length ≠ 16) : farWrite c l d = (d, 0x06070010) := by
  rw [farWrite, if_pos (by simpa using hlen)]
  exact writeTogether_bad hshadow (by decide)

theorem farWrite_role (hshadow : d.inShadow = false) (hlen : l.length = 16)
    (hrole : ((farOf l).role ≠ 1 ∧ (farOf l).role ≠ 2) ∨ (farOf l).role = d.clientRole c) : farWrite c l d = (d, 0x06090030) := by
  rw [farWrite, if_neg (by simp [hlen]), if_pos (by simpa using hrole)]
  exact writeTogether_bad hshadow (by decide)

theorem farWrite_taken (hshadow : d.inShadow = false) (hlen : l.length = 16) (hrole : (farOf l).role = 1 ∨ (farOf l).role = 2)
    (hother : (farOf l).role ≠ d.clientRole c) (hrelay : (d.inService && d.paired && d.shadowReady) = false) :
    farWrite c l d = (farApply c l d, 0) := by
  have hgood : ¬ (((farOf l).role != 1 && (farOf l).role != 2) || (farOf l).role == d.clientRole c) = true := by
    rcases hrole with h | h <;> simp_all
  rw [farWrite, if_neg (by simp [hlen]), if_neg hgood]
  exact writeTogether_alone _ _ hshadow hrelay

end

/-- Settles O44: the visit by the port that PIN_MODE 0 leaves, the report by the first check that refuses it. -/
theorem clientVisitsAndReports : Obligations.ClientVisitsAndReports := by
  unfold Obligations.ClientVisitsAndReports
  refine ⟨fun s c hruns hmode => ?visit, fun s m c l hr hgate => ?report⟩
  case visit =>
    refine gives_of_done rfl ?_
    rw [clientVisit_off hruns hmode, fillShown_clientOf, fld_fillShown, rd_fillShown]
    obtain ⟨htarget, hbefore⟩ := pinnedOff_client (visited s.dev c.val) c.val
    exact ⟨htarget, hbefore, pinnedOff_state _ _, rfl⟩
  case report =>
    have hdoc := disarmed_undoc hr
    exact ⟨fun hshadow => leaves_farReport hr hgate (farWrite_shadow hshadow) hdoc, fun hshadow => ⟨fun hlen => leaves_farReport hr hgate (farWrite_length hshadow hlen) hdoc,
      fun hlen hrole => leaves_farReport hr hgate (farWrite_role hshadow hlen hrole) hdoc,
      fun hlen hrole hother hrelay => leaves_farReport hr hgate (farWrite_taken hshadow hlen hrole hother hrelay) hdoc⟩⟩

end Sys2Proof.Proofs
end

section
/-!
PROOFS. Claims and grants of a pair, and its handovers at an agreed boundary (R318 to R320, R330 to R338).
-/
namespace Sys2Proof.Proofs
open Sys2Proof Sys2Proof.Machine

/-! ## What a change of the mode and a cancelled switch-in leave -/

/-- The values that the record of a mode writes. -/
def modeTouches : List Key := [O.MODE_STATUS, O.MODE_ENTRY_TIME, O.MODE_CHANGES, O.SEC_STATUS, O.DEBUG_LEVEL, O.MODE_GUARDED]

section
variable (d : Dev)

theorem rd_recordMode_ne (m : Nat) {k : Key} (h : k ∉ modeTouches) : (d.recordMode m).rd k = d.rd k := by
  simp only [modeTouches, List.mem_cons, not_or, List.not_mem_nil, not_false_eq_true, and_true, ← ne_eq] at h
  obtain ⟨hstatus, htime, hcount, hsec, hlevel, hguard⟩ := h
  unfold Dev.recordMode
  rw [rd_pmBreak, rd_of_regs (onPair_regs _ _), rd_wr_ne _ _ hguard.symm, rd_of_regs (onMode_regs _ _), rd_capDebug _ _ hlevel.symm hsec.symm,
    rd_set1_ne _ _ hstatus.symm, rd_count_ne _ _ hcount.symm, rd_wr_ne _ _ htime.symm, rd_putFlag_ne _ _ _ hstatus.symm,
    rd_putFld_ne _ _ _ _ hstatus.symm, rd_putFld_ne _ _ _ _ hstatus.symm]

theorem count_keeps {α : Type} {φ : Dev → α} (hwr : ∀ (x : Dev) (k : Key) (v : Nat), φ (x.wr k v) = φ x) (k : Key) (n : Nat) :
    φ (d.count k n) = φ d := by
  unfold Dev.count
  split
  · split
    · exact hwr d k _
    · exact hwr d k _
  · rfl

section
variable {α : Type} {φ : Dev → α} (hwr : ∀ (x : Dev) (k : Key) (v : Nat), φ (x.wr k v) = φ x)
  (hprov : ∀ (x : Dev) (f : Prov → Prov), φ (x.onProv f) = φ x)
include hprov

theorem upset_keeps (outcome : Nat) : φ (d.upset outcome) = φ d := by
  unfold Dev.upset
  split
  · exact hprov d _
  · rfl

include hwr

/-- A cancelled switch-in shows in the values of one, in the provisioning, in Kiln and in a message to the mate alone (R93, R374). -/
theorem cancelEarly_keeps (hout : ∀ (x : Dev) (f : Out → Out), φ (x.onOut f) = φ x) (hclk : ∀ (x : Dev) (f : Clk → Clk), φ (x.onClk f) = φ x)
    (outcome : Nat) : φ (d.cancelEarly outcome) = φ d := by
  have hlower : ∀ (x : Dev) (t : Nat), φ (x.startLower t) = φ x := fun x t => by
    rw [Dev.startLower, hclk, Dev.putFld, hwr, Dev.putFlag, Dev.putFld, hwr]
  unfold Dev.cancelEarly
  split
  · next x h =>
    split
    · rfl
    · have hun : φ (unscheduled d x outcome) = φ d := by
        rw [unscheduled, when_keeps (f := fun y => y.sendMate .commitCancel) (fun y => hout y _), Dev.unschedule, hprov, hwr, hwr]
      rcases cancelSched_cases h outcome with he | ⟨home, he⟩
      · rw [he, hun]
      · rw [he, hlower, hun]
  · exact upset_keeps d hprov outcome

variable (hsec : ∀ (x : Dev) (f : Sec → Sec), φ (x.onSec f) = φ x)
include hsec

theorem capDebug_keeps (cap : Nat) : φ (d.capDebug cap) = φ d := by
  have hflag : ∀ (x : Dev) (k : Key) (i : Nat) (b : Bool), φ (x.putFlag k i b) = φ x := fun x k _ _ => hwr x k _
  have hwhen : ∀ (x : Dev) (c : Bool) (k : Key) (i : Nat) (b : Bool), φ (x.when c (fun y => y.putFlag k i b)) = φ x :=
    fun x c k i b => when_keeps (f := fun y => y.putFlag k i b) (fun y => hflag y k i b) x c
  unfold Dev.capDebug Dev.setDebug
  split
  · split
    · rfl
    · dsimp only
      rw [hsec, Dev.privateStatus, hflag, hwhen]
      exact (hwhen _ _ _ _ _).trans ((upset_keeps _ hprov _).trans ((hflag _ _ _ _).trans (hwr _ _ _)))
  · rfl

/-- What the record of a mode leaves, for a value in which neither its writes nor a lowered debug level show. -/
theorem recordMode_keeps (hbreak : ∀ x : Dev, φ x.pmBreak = φ x) (hpair : ∀ (x : Dev) (f : PairSt → PairSt), φ (x.onPair f) = φ x)
    (hmode : ∀ (x : Dev) (f : ModeSt → ModeSt), φ (x.onMode f) = φ x) (m : Nat) : φ (d.recordMode m) = φ d := by
  have hput : ∀ (x : Dev) (k : Key) (lo w v : Nat), φ (x.putFld k lo w v) = φ x := fun x k _ _ _ => hwr x k _
  rw [Dev.recordMode, hbreak, hpair, hwr, hmode, capDebug_keeps _ hwr hprov hsec, Dev.set1, Dev.putFlag, hput, count_keeps _ hwr, hwr,
    Dev.putFlag, hput, hput, hput]

end

theorem pmBreak_out : d.pmBreak.out = d.out := by
  unfold Dev.pmBreak
  split <;> rfl

theorem recordMode_out (m : Nat) : (d.recordMode m).out = d.out :=
  recordMode_keeps d (fun _ _ _ => rfl) (fun _ _ => rfl) (fun _ _ => rfl) pmBreak_out (fun _ _ => rfl) (fun _ _ => rfl) m

theorem cancelEarly_pair (outcome : Nat) : (d.cancelEarly outcome).pair = d.pair :=
  cancelEarly_keeps d (fun _ _ _ => rfl) (fun _ _ => rfl) (fun _ _ => rfl) (fun _ _ => rfl) outcome

end

/-! ## Claims and grants (R318 to R320) -/

section
variable {d : Dev}

theorem claimSeen_idle (h : d.claiming = false) :
    claimSeen d = ((d.putFlag O.PAIR_STATUS 9 true).putFlag O.PAIR_STATUS 8 false).putFlag O.PAIR_STATUS 6 false := by
  simp [claimSeen, h]

theorem claimGone_noShadow (h : d.inShadow = false) : claimGone d = d.putFlag O.PAIR_STATUS 9 false := by
  simp [claimGone, h]

theorem claimGranted_alone (hclaim : d.claiming = true) (hin : d.claimIn = false) (hgrant : d.granted = false) (hpair : d.paired = false) :
    claimGranted d = (d.putFlag O.PAIR_STATUS 8 true).putFlag O.PAIR_STATUS 6 true := by
  simp [claimGranted, hclaim, hin, hgrant, hpair]

theorem claimGranted_rests (h : d.claiming = false ∨ d.claimIn = true) : claimGranted d = d := by
  rcases h with h | h <;> simp [claimGranted, h]

theorem interlockFault_reports (hshadow : d.inShadow = true) (hruns : d.pairRuns = true) (hlink : d.linkUp = true)
    (hin : d.claimIn = false) (hclaim : d.claiming = false) :
    interlockFault d = (d.putFlag O.PAIR_STATUS 27 true).pairEvent 6 true := by
  simp [interlockFault, hshadow, hruns, hlink, hin, hclaim, Dev.set1]

theorem paired_of_pairRuns (h : d.pairRuns = true) : d.paired = true := by
  simp only [Dev.pairRuns, Bool.and_eq_true] at h
  exact h.1.1

end

section
variable (d : Dev) (cause : Nat)

/-- The device whose claim starts, before the pair state shows it. -/
def claimStarted (d : Dev) (cause : Nat) : Dev :=
  ((d.when (cause != 0) (fun x => x.cancelEarly 5)).putFlag O.PAIR_STATUS 7 true).onPair
    (fun p => { p with cause := cause, fromJoin := d.pairState == 4, released := none })

theorem claimStarted_claiming : (claimStarted d cause).claiming = true := flag_putFlag_same _ _ _ (by decide)

theorem claimStarted_pair : (claimStarted d cause).pair.cause = cause ∧ (claimStarted d cause).pair.agreed = d.pair.agreed := by
  have hcancel : (d.when (cause != 0) (fun x => x.cancelEarly 5)).pair = d.pair :=
    when_keeps (φ := Dev.pair) (fun x => cancelEarly_pair x 5) d _
  refine ⟨rfl, ?_⟩
  rw [claimStarted, onPair_pair, putFlag_pair, hcancel]

theorem flag_setPairState (n : Nat) {i : Nat} (hi : i < 64) (h : 4 ≤ i) : (d.setPairState n).flag O.PAIR_STATUS i = d.flag O.PAIR_STATUS i := by
  have hput : (d.putFld O.PAIR_STATUS 0 4 n).flag O.PAIR_STATUS i = d.flag O.PAIR_STATUS i := flag_putFld_outside _ _ _ hi (.inr h)
  unfold Dev.setPairState
  dsimp only
  split
  · exact hput
  · exact hput

theorem setPairState_pairState {n : Nat} (hn : n < 16) : (d.setPairState n).pairState = n := by
  have hput : (d.putFld O.PAIR_STATUS 0 4 n).pairState = n := (fld_putFld_same _ _ _ (by decide)).trans (Nat.mod_eq_of_lt hn)
  unfold Dev.setPairState
  dsimp only
  split
  · exact hput
  · exact hput

theorem setPairState_pair (n : Nat) : (d.setPairState n).pair.cause = d.pair.cause ∧ (d.setPairState n).pair.agreed = d.pair.agreed := by
  unfold Dev.setPairState
  dsimp only
  split
  · exact ⟨rfl, rfl⟩
  · exact ⟨rfl, rfl⟩

/-- A started claim: the unit claims for the cause, and a paired one is in CLAIM (R320). -/
theorem startClaim_claims : (d.startClaim cause).claiming = true ∧ (d.startClaim cause).pair.cause = cause
    ∧ (d.startClaim cause).pair.agreed = d.pair.agreed ∧ (d.paired = true → (d.startClaim cause).pairState = 2) := by
  have hstart : d.startClaim cause = if d.paired = true then (claimStarted d cause).setPairState 2 else claimStarted d cause := rfl
  obtain ⟨hcause, hagreed⟩ := claimStarted_pair d cause
  rw [hstart]
  split
  · obtain ⟨hcause', hagreed'⟩ := setPairState_pair (claimStarted d cause) 2
    exact ⟨(flag_setPairState _ 2 (by decide) (by decide)).trans (claimStarted_claiming d cause), hcause'.trans hcause, hagreed'.trans hagreed,
      fun _ => setPairState_pairState _ (by decide)⟩
  · next h => exact ⟨claimStarted_claiming d cause, hcause, hagreed, fun hpair => absurd hpair h⟩

end

/-! ## RELEASE, requests and grants (R332, R337, R338) -/

section
variable {d : Dev}

section
variable (hshadow : d.inShadow = true) (hruns : d.pairRuns = true) (hready : d.pairState = 6) (hfault : d.faulty = false)
  (hsuspect : d.suspect = false) (cause : Nat)
include hshadow hruns hready hfault hsuspect

theorem releaseIn_claims (hin : d.claimIn = false) : releaseIn d cause = d.startClaim cause := by
  simp [releaseIn, hshadow, hruns, hready, hfault, hsuspect, hin]

theorem releaseIn_waits (hin : d.claimIn = true) : releaseIn d cause = d.onPair (fun p => { p with released := some cause }) := by
  simp [releaseIn, hshadow, hruns, hready, hfault, hsuspect, hin]

end

section
variable (hservice : d.inService = true) (hpair : d.paired = true) (hactive : d.pairState = 1) (b cause : Nat)
include hservice hpair hactive

theorem revertRequested_grants (hcheck : d.pair.check = false) (hmate : d.fld O.MATE_STATUS 0 4 = 6) (hsched : d.prov.sched = none) :
    revertRequested d b cause = (d.sendMate (.revertGrant (d.boundaryAfter b))).onPair (fun p =>
      { p with agreed := some { boundary := d.boundaryAfter b, takes := false, cause := 6 } }) := by
  simp [revertRequested, hservice, hpair, hactive, hcheck, hmate, hsched]

theorem revertRequested_checking (hcheck : d.pair.check = true) : revertRequested d b cause = d := by
  simp [revertRequested, hservice, hpair, hactive, hcheck]

end

theorem revertGranted_agrees {f cause : Nat} (h : d.pair.request = some (f, cause)) (b : Nat) : revertGranted d b =
    d.onPair (fun p => { p with request := none, agreed := some { boundary := b, takes := cause == 6, cause := cause } }) := by
  simp only [revertGranted, h]

theorem grantLate_forced {f : Nat} (h : d.pair.request = some (f, 5)) :
    grantLate d = (d.onPair (fun p => { p with request := none })).wr O.FORCE_HANDOVER 0 := by
  simp only [grantLate, h]
  rfl

theorem revertDue_requests (hdue : d.pair.revertAt ≠ none) (hhome : d.home = true) (hshadow : d.inShadow = true) (hruns : d.pairRuns = true)
    (hready : d.pairState = 6) (hfault : d.faulty = false) (hsuspect : d.suspect = false) (hresolved : d.unresolved = false)
    (hrevert : d.flag O.PAIR_CTRL 1 = true) : revertDue d = (d.onPair (fun p => { p with revertAt := none })).sendRequest 6 := by
  have hcount : d.pair.revertAt.isSome = true := Option.isSome_iff_ne_none.mpr hdue
  simp [revertDue, hcount, hhome, hshadow, hruns, hready, hfault, hsuspect, hresolved, hrevert]

end

/-! ## The handover at the agreed boundary (Table PA-6) -/

section
variable {d : Dev} {x : Agreed}

theorem handoverAt_none (h : d.pair.agreed = none) : handoverAt d = d := by simp only [handoverAt, h]

theorem handoverAt_early (h : d.pair.agreed = some x) (hearly : frameReached d.pairFrame x.boundary = false) : handoverAt d = d := by
  simp only [handoverAt, h, hearly]
  rfl

/-- The agreement is taken up: it is gone, a forced handover has ended, and a scheduled switch-in is cancelled. -/
def agreementTaken (d : Dev) (x : Agreed) : Dev :=
  ((d.onPair (fun p => { p with agreed := none })).when (x.cause == 5) (fun y => y.wr O.FORCE_HANDOVER 0)).cancelEarly 5

/-- The unit that gives up its claim at a handover enters Shadow at SYNCING. -/
def handedOver (d : Dev) (cause : Nat) : Dev :=
  (((d.stopClaim.sendMate (.release cause)).recordMode 3).setPairState 5).wr O.SYNC_FRAMES 0

theorem agreementTaken_agreed : (agreementTaken d x).pair.agreed = none := by
  have hforce : ∀ y : Dev, (y.when (x.cause == 5) (fun z => z.wr O.FORCE_HANDOVER 0)).pair = y.pair :=
    fun y => when_keeps (φ := Dev.pair) (fun z => wr_pair z _ _) y _
  rw [agreementTaken, cancelEarly_pair, hforce]
  rfl

theorem agreementTaken_paired : (agreementTaken d x).paired = d.paired := by
  have hforce : ∀ y : Dev, (y.when (x.cause == 5) (fun z => z.wr O.FORCE_HANDOVER 0)).rd O.PAIR_CTRL = y.rd O.PAIR_CTRL :=
    fun y => when_keeps (φ := fun z => z.rd O.PAIR_CTRL) (fun z => rd_wr_ne z _ (by decide)) y _
  exact flag_of_rd ((rd_cancelEarly _ _ (by decide) (by decide) (by decide)).trans (hforce _)) 0

section
variable (h : d.pair.agreed = some x) (hdue : frameReached d.pairFrame x.boundary = true) (hlink : d.linkUp = true)
include h hdue hlink

theorem handoverAt_takes (htakes : x.takes = true) : handoverAt d = (agreementTaken d x).startClaim x.cause := by
  simp [handoverAt, h, hdue, hlink, htakes, agreementTaken]

theorem handoverAt_gives (htakes : x.takes = false) (hcause : x.cause ≠ 7) : handoverAt d = handedOver (agreementTaken d x) x.cause := by
  simp [handoverAt, h, hdue, hlink, htakes, hcause, agreementTaken, handedOver]

end

theorem setPairState_out (d : Dev) (n : Nat) : (d.setPairState n).out = d.out := by
  unfold Dev.setPairState
  dsimp only
  split <;> rfl

theorem stopClaim_closes (d : Dev) : d.stopClaim.claiming = false ∧ d.stopClaim.granted = false := by
  unfold Dev.stopClaim Dev.claiming Dev.granted
  refine ⟨?_, ?_⟩
  · rw [flag_putFlag_ne _ _ _ (by decide) (by decide), flag_putFlag_ne _ _ _ (by decide) (by decide), flag_putFlag_same _ _ _ (by decide)]
  · rw [flag_putFlag_ne _ _ _ (by decide) (by decide), flag_putFlag_same _ _ _ (by decide)]

theorem handedOver_shadow (d : Dev) (cause : Nat) : (handedOver d cause).claiming = false ∧ (handedOver d cause).gateOpen = false
    ∧ (handedOver d cause).modeCode = 3 ∧ (handedOver d cause).pairState = 5 ∧ (handedOver d cause).rd O.SYNC_FRAMES = 0
    ∧ .release cause ∈ (handedOver d cause).out.mate := by
  obtain ⟨hclaim, hgrant⟩ := stopClaim_closes d
  have hstatus : ((d.stopClaim.sendMate (.release cause)).recordMode 3).rd O.PAIR_STATUS = d.stopClaim.rd O.PAIR_STATUS :=
    rd_recordMode_ne _ _ (by decide)
  have hsync : ∀ y : Dev, (y.wr O.SYNC_FRAMES 0).rd O.PAIR_STATUS = y.rd O.PAIR_STATUS := fun y => rd_wr_ne y _ (by decide)
  refine ⟨?claim, ?gate, ?mode, ?state, rd_wr_same _ _ _, ?release⟩
  case claim => exact (flag_of_rd (hsync _) 7).trans ((flag_setPairState _ 5 (by decide) (by decide)).trans ((flag_of_rd hstatus 7).trans hclaim))
  case gate =>
    have hkept : (handedOver d cause).granted = false :=
      (flag_of_rd (hsync _) 8).trans ((flag_setPairState _ 5 (by decide) (by decide)).trans ((flag_of_rd hstatus 8).trans hgrant))
    exact Bool.and_eq_false_imp.mpr fun ht => absurd (hkept.symm.trans ht) (by decide)
  case mode =>
    have hmode : (handedOver d cause).rd O.MODE_STATUS = ((d.stopClaim.sendMate (.release cause)).recordMode 3).rd O.MODE_STATUS :=
      (rd_wr_ne _ _ (by decide)).trans (rd_setPairState _ _ (by decide))
    exact (fld_of_rd hmode 0 3).trans (recordMode_modeCode _ (by decide))
  case state => exact (fld_of_rd (hsync _) 0 4).trans (setPairState_pairState _ (by decide))
  case release =>
    have hout : (handedOver d cause).out = (d.stopClaim.sendMate (.release cause)).out := by
      rw [handedOver, wr_out, setPairState_out, recordMode_out]
    rw [hout]
    exact List.mem_append_right _ (List.mem_singleton.mpr rfl)

end

/-- Settles O49: each message and each end of a wait by the state that it meets, the handover by whether its boundary has come. -/
theorem pairClaims : Obligations.PairClaims := by
  unfold Obligations.PairClaims
  intro s d
  refine ⟨fun h => leaves_of_done rfl (claimSeen_idle h), fun h => leaves_of_done rfl (claimGone_noShadow h),
    fun hclaim hin hgrant hpair => leaves_of_done rfl (claimGranted_alone hclaim hin hgrant hpair),
    fun h => leaves_of_done rfl (claimGranted_rests h),
    fun hshadow hruns hlink hin hclaim => leaves_of_done rfl (interlockFault_reports hshadow hruns hlink hin hclaim),
    fun c hshadow hruns hready hfault hsuspect => ⟨fun hin => ?claims, fun hin =>
      leaves_of_done rfl (releaseIn_waits hshadow hruns hready hfault hsuspect _ hin)⟩,
    fun b c hservice hpair hactive => ⟨fun hcheck hmate hsched =>
      leaves_of_done rfl (revertRequested_grants hservice hpair hactive _ _ hcheck hmate hsched),
      fun hcheck => leaves_of_done rfl (revertRequested_checking hservice hpair hactive _ _ hcheck)⟩,
    fun b f c h => leaves_of_done rfl (revertGranted_agrees h _), fun f h => leaves_of_done rfl (grantLate_forced h),
    fun hdue hhome hshadow hruns hready hfault hsuspect hresolved hrevert =>
      leaves_of_done rfl (revertDue_requests hdue hhome hshadow hruns hready hfault hsuspect hresolved hrevert),
    fun x hagreed => ⟨fun hearly => leaves_of_done rfl (handoverAt_early hagreed hearly),
      fun hdue hlink => ⟨fun htakes => ?takes, fun htakes hcause => ?gives⟩⟩,
    fun h => leaves_of_done rfl (handoverAt_none h)⟩
  case claims =>
    obtain ⟨hclaiming, hcause, -, hstate⟩ := startClaim_claims d c.val
    exact ⟨_, leaves_of_done rfl (releaseIn_claims hshadow hruns hready hfault hsuspect _ hin), hclaiming,
      hstate (paired_of_pairRuns hruns), hcause⟩
  case takes =>
    obtain ⟨hclaiming, hcause, hgone, hstate⟩ := startClaim_claims (agreementTaken d x) x.cause
    exact ⟨_, leaves_of_done rfl (handoverAt_takes hagreed hdue hlink htakes), hclaiming, hcause, hgone.trans agreementTaken_agreed,
      fun hpair => hstate (agreementTaken_paired.trans hpair)⟩
  case gives =>
    exact ⟨_, leaves_of_done rfl (handoverAt_gives hagreed hdue hlink htakes hcause), handedOver_shadow _ _⟩

end Sys2Proof.Proofs
end

section
/-!
PROOFS. Operating points and block gating (R370 to R377); before them, what an event leaves of the switch-in where none is scheduled: a
claim that it releases has nothing to cancel (R93).
-/
namespace Sys2Proof.Proofs
open Sys2Proof Sys2Proof.Machine

/-- The values that only the end of a switch-in changes. -/
def switchKeys : List Key := [O.PENDING_STATE, O.SWITCH_OUTCOME, O.OP_STATUS]

/-- A device without a scheduled switch-in, whose values of one are those of another device. -/
structure SwitchRests (d e : Dev) : Prop where
  sched : e.prov.sched = none
  rd    : ∀ k ∈ switchKeys, e.rd k = d.rd k

namespace SwitchRests

theorem refl {d : Dev} (h : d.prov.sched = none) : SwitchRests d d := ⟨h, fun _ _ => rfl⟩

variable {d e : Dev} (h : SwitchRests d e)
include h

theorem keep {f : Dev} (hsched : f.prov.sched = e.prov.sched) (hrd : ∀ k ∈ switchKeys, f.rd k = e.rd k) : SwitchRests d f :=
  ⟨hsched.trans h.sched, fun k hk => (hrd k hk).trans (h.rd k hk)⟩

theorem wr {k : Key} (v : Nat) (hk : k ∉ switchKeys) : SwitchRests d (e.wr k v) :=
  h.keep rfl fun _ hj => rd_wr_ne _ _ fun hkj => hk (hkj ▸ hj)

theorem putFlag {k : Key} (i : Nat) (b : Bool) (hk : k ∉ switchKeys) : SwitchRests d (e.putFlag k i b) := h.wr _ hk

theorem onComa (f : Coma → Coma) : SwitchRests d (e.onComa f) := h.keep rfl fun _ _ => rfl

theorem onCan (f : Can → Can) : SwitchRests d (e.onCan f) := h.keep rfl fun _ _ => rfl

theorem onOut (f : Out → Out) : SwitchRests d (e.onOut f) := h.keep rfl fun _ _ => rfl

theorem onMode (f : ModeSt → ModeSt) : SwitchRests d (e.onMode f) := h.keep rfl fun _ _ => rfl

theorem onPair (f : PairSt → PairSt) : SwitchRests d (e.onPair f) := h.keep rfl fun _ _ => rfl

theorem onSec (f : Sec → Sec) : SwitchRests d (e.onSec f) := h.keep rfl fun _ _ => rfl

theorem pmBreak : SwitchRests d e.pmBreak := by
  unfold Dev.pmBreak
  split
  · exact h
  · exact ⟨h.sched, h.rd⟩

theorem when {f : Dev → Dev} (hf : SwitchRests d (f e)) (c : Bool) : SwitchRests d (e.when c f) := by
  cases c
  · exact h
  · exact hf

theorem count {k : Key} (n : Nat) (hk : k ∉ switchKeys) : SwitchRests d (e.count k n) := by
  unfold Dev.count
  split
  · split
    · exact h.wr _ hk
    · exact h.wr _ hk
  · exact h

theorem upset (outcome : Nat) : SwitchRests d (e.upset outcome) := by
  unfold Dev.upset
  split
  · exact ⟨h.sched, h.rd⟩
  · exact h

theorem cancelEarly (outcome : Nat) : SwitchRests d (e.cancelEarly outcome) := by
  simp only [Dev.cancelEarly, h.sched]
  exact h.upset outcome

theorem setPairState (n : Nat) : SwitchRests d (e.setPairState n) := by
  have hput : SwitchRests d (e.putFld O.PAIR_STATUS 0 4 n) := h.wr _ (by decide)
  unfold Dev.setPairState
  dsimp only
  split
  · exact hput
  · exact hput.onPair _

theorem capDebug (cap : Nat) : SwitchRests d (e.capDebug cap) := by
  have hlevel : SwitchRests d (((e.wr O.DEBUG_LEVEL cap).set1 O.SEC_STATUS 8).upset 0) :=
    ((h.wr _ (by decide)).putFlag 8 true (by decide)).upset 0
  unfold Dev.capDebug Dev.setDebug
  split
  · split
    · exact h
    · have hforced := hlevel.when (f := fun x => x.set1 O.SEC_STATUS 9) (hlevel.putFlag 9 true (by decide)) (true && decide (cap < e.debug))
      have hhalted := hforced.when (f := fun x => x.putFlag O.SEC_STATUS 3 false) (hforced.putFlag 3 false (by decide)) (decide (cap < 2))
      exact (hhalted.putFlag (k := O.SEC_STATUS) 4 _ (by decide)).onSec _
  · exact h

theorem recordMode (m : Nat) : SwitchRests d (e.recordMode m) := by
  have hshown : SwitchRests d (((e.putFld O.MODE_STATUS 0 3 m).putFld O.MODE_STATUS 4 3 m).putFlag O.MODE_STATUS 10 false) :=
    ((h.wr _ (by decide)).wr _ (by decide)).putFlag _ _ (by decide)
  have hcounted := ((hshown.wr e.time (k := O.MODE_ENTRY_TIME) (by decide)).count (k := O.MODE_CHANGES) 1 (by decide)).putFlag
    (k := O.MODE_STATUS) 20 true (by decide)
  exact ((((hcounted.capDebug _).onMode _).wr (k := O.MODE_GUARDED) 0 (by decide)).onPair _).pmBreak

theorem releaseClaim (cause : Nat) (own : Bool) : SwitchRests d (e.releaseClaim cause own) := by
  have hstopped : SwitchRests d e.stopClaim := ((h.putFlag 7 false (by decide)).putFlag 8 false (by decide)).putFlag 6 false (by decide)
  have hsent : SwitchRests d (e.stopClaim.sendMate (.release cause)) := hstopped.onOut _
  have hshadow := (((hsent.cancelEarly 5).recordMode 3).setPairState 5).wr 0 (k := O.SYNC_FRAMES) (by decide)
  exact hshadow.when (f := fun x => x.putFlag O.PAIR_STATUS 16 true) (hshadow.putFlag (k := O.PAIR_STATUS) 16 true (by decide)) own

theorem sendCan (cob : Nat) (data : List Byte) : SwitchRests d (e.sendCan cob data) := by
  unfold Dev.sendCan
  dsimp only
  split_ifs
  · exact h
  · exact h.onCan _
  · exact h.onOut _

theorem sendEmcy (data : List Byte) (seq : Option Nat) : SwitchRests d (e.sendEmcy data seq).1 := by
  have hreplaced : SwitchRests d (e.when e.can.emcyWait.isSome (fun x => x.count O.EMCY_REPLACED 1)) := h.when (h.count 1 (by decide)) _
  unfold Dev.sendEmcy
  split
  · exact h
  · split
    · dsimp only
      exact (hreplaced.onComa _).onCan _
    · dsimp only
      split
      · exact h.sendCan _ data
      · exact (h.sendCan _ data).onCan _

theorem reactEnd (seq : Nat) : SwitchRests d (e.reactEnd seq) := by
  have hhold : ∀ c : Bool, SwitchRests d (e.when c (fun x => x.putFlag O.FAULT_N_CTRL 0 true)) :=
    fun c => h.when (h.putFlag 0 true (by decide)) c
  unfold Dev.reactEnd
  split
  · exact h
  · dsimp only
    split_ifs
    · exact h
    · exact (hhold _).onComa _
    · split
      · exact (((((hhold _).onComa _).sendEmcy _ _).onComa _)).onComa _
      · exact (((hhold _).onComa _).sendEmcy _ _).onComa _
    · exact (((hhold _).onComa _).sendEmcy _ _).onComa _

theorem react (seq : Nat) : SwitchRests d (e.react seq) := by
  unfold Dev.react
  split
  · exact h
  · have hput := h.onComa
    exact ((hput _).when ((hput _).releaseClaim 4 false) _).reactEnd seq

theorem writeEntry (x : Ev) (severe forced : Bool) : SwitchRests d (e.writeEntry x severe forced) := by
  unfold Dev.writeEntry
  exact (h.onComa _).when (f := fun y => y.count O.LOST_UNREAD 1) ((h.onComa _).count 1 (by decide)) _

/-- An event leaves the switch-in at rest. -/
theorem raise (x : Ev) : SwitchRests d (e.raise x) := by
  have hnoted : ∀ {y : Dev} (c : Bool) (f : Coma → Coma), SwitchRests d y → SwitchRests d (y.when c (fun z => z.onComa f)) :=
    fun c f hy => hy.when (hy.onComa f) c
  have hmarked := hnoted x.clear (fun c => { c with entries := markCleared x c.entries }) h
  unfold Dev.raise
  split
  · exact h
  · dsimp only
    split
    · split_ifs
      · exact ((hnoted _ _ ((hnoted _ _ hmarked).onComa _)).onComa _).react _
      · exact hnoted _ _ ((hnoted _ _ hmarked).onComa _)
    · split_ifs
      · exact ((hnoted _ _ ((hnoted _ _ hmarked).writeEntry _ _ _)).onComa _).react _
      · exact hnoted _ _ ((hnoted _ _ hmarked).writeEntry _ _ _)

end SwitchRests

/-! ## Voltages and divisors (R370 to R373) -/

section
variable {d : Dev}

theorem voltageSettled_raising (h : d.clk.raise = true) (mv : Nat) :
    voltageSettled d mv = (d.wr O.VCORE_READBACK mv).onClk (fun c => { c with settled := true }) := if_pos h

theorem voltageSettled_rests (h : d.clk.raise = false) (mv : Nat) : voltageSettled d mv = d := if_neg (by simp [h])

theorem voltageLowered_ends (hlower : d.clk.lower = true) (hop : d.op = d.targetOp) (mv : Nat) : voltageLowered d mv =
    ((d.wr O.VCORE_READBACK mv).putFlag O.OP_STATUS 8 false).onClk (fun c => { c with lower := false }) :=
  if_pos (by simp [hlower, hop])

theorem voltageLowered_rests (h : d.clk.lower = false ∨ d.op ≠ d.targetOp) (mv : Nat) : voltageLowered d mv = d :=
  if_neg (by rcases h with h | h <;> simp [h])

/-- The device whose divisor has moved to the target point. -/
def divisorMoved (d : Dev) : Dev :=
  (((d.putFld O.OP_STATUS 0 2 d.targetOp).wr O.ACTIVE_OP d.targetOp).set1 O.OP_STATUS 10).count O.OP_CHANGES 1

/-- The upward change has ended: a swap that waited for it can come (R90). -/
def raiseEnded (e : Dev) : Dev :=
  (((e.putFlag O.OP_STATUS 8 false).onClk (fun c => { c with raise := false, settled := false })).onProv
    (fun p => { p with sched := p.sched.map (fun s => { s with raised := true }) })).switchPoint

section
variable (hop : d.op ≠ d.targetOp)
include hop

theorem divisorChanged_raised (hraise : d.clk.raise = true) (hsettled : d.clk.settled = true) :
    divisorChanged d = raiseEnded (divisorMoved d) := by
  simp [divisorChanged, hraise, hsettled, hop, divisorMoved, raiseEnded]

theorem divisorChanged_lowered (hraise : d.clk.raise = false) (hlower : d.clk.lower = true) : divisorChanged d = divisorMoved d := by
  simp [divisorChanged, hraise, hlower, hop, divisorMoved]

end

theorem divisorChanged_rests (hraise : d.clk.raise = false) (hlower : d.clk.lower = false) : divisorChanged d = d := by
  simp [divisorChanged, hraise, hlower]

theorem targetOp_lt (d : Dev) : d.targetOp < 4 := Nat.mod_lt _ (by decide)

theorem rd_divisorMoved (d : Dev) : (divisorMoved d).rd O.OP_STATUS = ((d.putFld O.OP_STATUS 0 2 d.targetOp).wr O.ACTIVE_OP d.targetOp
    |>.set1 O.OP_STATUS 10).rd O.OP_STATUS := rd_count_ne _ _ (by decide)

theorem divisorMoved_shows (d : Dev) : (divisorMoved d).op = d.targetOp ∧ (divisorMoved d).rd O.ACTIVE_OP = d.targetOp
    ∧ (divisorMoved d).flag O.OP_STATUS 10 = true := by
  refine ⟨?op, ?active, ?seen⟩
  case op =>
    rw [Dev.op, fld_of_rd (rd_divisorMoved d), fld_set1_outside _ _ (by decide) (by decide), fld_of_rd (rd_wr_ne _ _ (by decide)),
      fld_putFld_same _ _ _ (by decide)]
    exact Nat.mod_eq_of_lt (targetOp_lt d)
  case active =>
    rw [divisorMoved, rd_count_ne _ _ (by decide), rd_set1_ne _ _ (by decide), rd_wr_same]
    exact Nat.mod_eq_of_lt ((targetOp_lt d).trans (by decide))
  case seen => rw [flag_of_rd (rd_divisorMoved d), flag_set1_same _ _ (by decide)]

theorem switchPoint_regs (e : Dev) : e.switchPoint.regs = e.regs ∧ e.switchPoint.clk = e.clk := by
  unfold Dev.switchPoint
  split
  · exact ⟨rfl, rfl⟩
  · dsimp only
    split
    · exact ⟨rfl, rfl⟩
    · exact ⟨rfl, rfl⟩

theorem rd_raiseEnded (e : Dev) (k : Key) : (raiseEnded e).rd k = (e.putFlag O.OP_STATUS 8 false).rd k := by
  rw [raiseEnded, rd_of_regs (switchPoint_regs _).1, rd_of_regs (onProv_regs _ _), rd_of_regs (onClk_regs _ _)]

theorem raiseEnded_shows (e : Dev) : (raiseEnded e).op = e.op ∧ (raiseEnded e).rd O.ACTIVE_OP = e.rd O.ACTIVE_OP
    ∧ (raiseEnded e).flag O.OP_STATUS 10 = e.flag O.OP_STATUS 10 ∧ (raiseEnded e).clk.raise = false ∧ (raiseEnded e).flag O.OP_STATUS 8 = false := by
  refine ⟨?op, ?active, ?seen, ?raise, ?ended⟩
  case op => rw [Dev.op, fld_of_rd (rd_raiseEnded e _), fld_putFlag_outside _ _ _ (by decide) (by decide)]; rfl
  case active => rw [rd_raiseEnded, rd_putFlag_ne _ _ _ (by decide)]
  case seen => rw [flag_of_rd (rd_raiseEnded e _), flag_putFlag_ne _ _ _ (by decide) (by decide)]
  case raise => rw [raiseEnded, (switchPoint_regs _).2]; rfl
  case ended => rw [flag_of_rd (rd_raiseEnded e _), flag_putFlag_same _ _ _ (by decide)]

/-- The core runs at the target point, and an upward change has ended with that. -/
theorem divisorChanged_moves (hop : d.op ≠ d.targetOp)
    (h : d.clk.raise = true ∧ d.clk.settled = true ∨ d.clk.raise = false ∧ d.clk.lower = true) :
    (divisorChanged d).op = d.targetOp ∧ (divisorChanged d).rd O.ACTIVE_OP = d.targetOp ∧ (divisorChanged d).flag O.OP_STATUS 10 = true
      ∧ (divisorChanged d).clk.raise = false ∧ (d.clk.raise = true → (divisorChanged d).flag O.OP_STATUS 8 = false) := by
  obtain ⟨hmoved, hactive, hseen⟩ := divisorMoved_shows d
  rcases h with ⟨hraise, hsettled⟩ | ⟨hraise, hlower⟩
  · obtain ⟨hop', hactive', hseen', hend, hflag⟩ := raiseEnded_shows (divisorMoved d)
    rw [divisorChanged_raised hop hraise hsettled]
    exact ⟨hop'.trans hmoved, hactive'.trans hactive, hseen'.trans hseen, hend, fun _ => hflag⟩
  · have hclk : (divisorMoved d).clk = d.clk := by
      rw [divisorMoved, count_keeps (φ := Dev.clk) _ (fun _ _ _ => rfl), set1_clk, wr_clk, putFld_clk]
    rw [divisorChanged_lowered hop hraise hlower]
    exact ⟨hmoved, hactive, hseen, (congrArg Clk.raise hclk).trans hraise, fun h => absurd (hraise.symm.trans h) (by decide)⟩

/-! ## A failed raise (R373) -/

/-- The failed point is marked, and the core stays where it was. -/
def raiseFailed (d : Dev) : Dev :=
  ((((d.putFlag O.OP_STATUS (4 + d.targetOp) true).set1 O.OP_STATUS 11).putFld O.OP_STATUS 2 2 d.op).putFlag O.OP_STATUS 8 false).onClk
    (fun c => { c with raise := false, settled := false })

theorem avsFailed_fails (h : d.clk.raise = true) : avsFailed d = (raiseFailed d).cancelRaise.clockEvent 7 := if_neg (by simp [h])

theorem avsFailed_rests (h : d.clk.raise = false) : avsFailed d = d := if_pos (by simp [h])

theorem raiseFailed_op (d : Dev) : (raiseFailed d).op = d.op := by
  have hfld : (raiseFailed d).op = ((((d.putFlag O.OP_STATUS (4 + d.targetOp) true).set1 O.OP_STATUS 11).putFld O.OP_STATUS 2 2
      d.op).putFlag O.OP_STATUS 8 false).fld O.OP_STATUS 0 2 := fld_of_rd (rd_of_regs (onClk_regs _ _) _) 0 2
  rw [hfld, fld_putFlag_outside _ _ _ (by decide) (by decide), fld_putFld_outside _ _ _ (by decide) (by decide),
    fld_set1_outside _ _ (by decide) (by decide), fld_putFlag_outside _ _ _ (by decide) (by omega)]
  rfl

/-- The raise of a scheduled generation fails: the switch-in is cancelled with outcome 6 (R93). -/
theorem avsFailed_cancels (h : d.clk.raise = true) (hsched : d.prov.sched.isSome = true) : (avsFailed d).prov.sched = none
    ∧ (avsFailed d).rd O.PENDING_STATE = 0 ∧ (avsFailed d).rd O.SWITCH_OUTCOME = 6 ∧ (avsFailed d).op = d.op := by
  obtain ⟨x, hx⟩ := Option.isSome_iff_exists.mp hsched
  have hcancel : (raiseFailed d).cancelRaise = ((raiseFailed d).unschedule 6).when x.joint.isSome (fun y => y.sendMate .commitCancel) := by
    have hkept : (raiseFailed d).prov.sched = some x := hx
    simp only [Dev.cancelRaise, hkept]
  have hun := unschedule_cancelled (raiseFailed d) (outcome := 6) (by decide)
  have hcancelled : SwitchCancelled (raiseFailed d) (raiseFailed d).cancelRaise 6 := by
    rw [hcancel, Dev.when]
    split
    · exact hun.sendMate _
    · exact hun
  have hstatus : (raiseFailed d).cancelRaise.rd O.OP_STATUS = (raiseFailed d).rd O.OP_STATUS := by
    have hend : ((raiseFailed d).unschedule 6).rd O.OP_STATUS = (raiseFailed d).rd O.OP_STATUS := by
      rw [Dev.unschedule, rd_of_regs (onProv_regs _ _), rd_wr_ne _ _ (by decide), rd_wr_ne _ _ (by decide)]
    rw [hcancel]
    exact (when_keeps (φ := fun y => y.rd O.OP_STATUS) (f := fun y => y.sendMate .commitCancel) (fun _ => rfl) _ _).trans hend
  have hrests : SwitchRests (raiseFailed d).cancelRaise (avsFailed d) := by
    rw [avsFailed_fails h]
    exact (SwitchRests.refl hcancelled.sched).raise _
  exact ⟨hrests.sched, (hrests.rd _ (by decide)).trans hcancelled.state, (hrests.rd _ (by decide)).trans hcancelled.outcome,
    (fld_of_rd ((hrests.rd _ (by decide)).trans hstatus) 0 2).trans (raiseFailed_op d)⟩

/-! ## OP_OVERRIDE and OP_RETRY (R374) -/

section
variable {n : Nat}

theorem opOverrideApply_failed (hn : n ≠ 0) (hfail : d.flag O.OP_STATUS (4 + (n - 1)) = true) : opOverrideApply n d = (d, 0x08000022) := by
  simp [opOverrideApply, hn, hfail, abRefused]

theorem opOverrideApply_busy (hn : n ≠ 0) (hraise : n - 1 < d.op) (hbusy : d.flag O.OP_STATUS 8 = true) :
    opOverrideApply n d = (d, 0x08000022) := by
  simp [opOverrideApply, hn, hraise, hbusy, abRefused]

section
variable (hchange : n ≠ d.rd O.OP_OVERRIDE)
include hchange

theorem opOverrideApply_rests (h : n = 0 ∨ d.op ≤ n - 1 ∧ d.flag O.OP_STATUS (4 + (n - 1)) = false) :
    opOverrideApply n d = ((d.wr O.OP_OVERRIDE n).cancelEarly 4, 0) := by
  rcases h with h | ⟨hbelow, hfail⟩
  · simp [opOverrideApply, h ▸ hchange, h, Dev.when]
  · have hlow : ¬ n - 1 < d.op := by omega
    simp [opOverrideApply, hchange, hfail, hlow, Dev.when]

theorem opOverrideApply_raises (hn : n ≠ 0) (hraise : n - 1 < d.op) (hbusy : d.flag O.OP_STATUS 8 = false)
    (hfail : d.flag O.OP_STATUS (4 + (n - 1)) = false) :
    opOverrideApply n d = (((d.wr O.OP_OVERRIDE n).cancelEarly 4).startRaise (n - 1), 0) := by
  simp [opOverrideApply, hn, hraise, hbusy, hfail, hchange, Dev.when]

end
end

theorem opRetry_one : trigger 1 d opRetry = (d.putFld O.OP_STATUS 4 3 0, 0) := rfl

theorem opRetry_zero : trigger 0 d opRetry = (d, 0) := rfl

end

/-! ## Aborted scans (R410) -/

/-- The values that the end of a host scan writes. -/
def scanKeys : List Key := [O.SCAN_STATUS, O.CV_STATUS, O.SCAN_NEXT, keyAt O.RUNNING 3]

/-- RUNNING of the host's channel as an aborted scan leaves it: a free value (R410; log entry 6). -/
def lastValue (d : Dev) (n : Nat) : Dev := (d.wr (keyAt O.RUNNING 3) ((Config.freeWord d.free).toNat % n)).fresh

theorem rd_lastValue (d : Dev) (n : Nat) {k : Key} (h : keyAt O.RUNNING 3 ≠ k) : (lastValue d n).rd k = d.rd k := rd_wr_ne d _ h

theorem lastValue_clk (d : Dev) (n : Nat) : (lastValue d n).clk = d.clk := by rw [lastValue, fresh_clk, wr_clk]

/-- A stopped scan as its objects show it: ABORTED, the cause, and the address where it goes on. -/
def scanStopped (d : Dev) (x : Scan) (cause : Nat) : Dev :=
  ((((d.putFld O.SCAN_STATUS 0 3 4).putFld O.SCAN_STATUS 4 4 cause).putFlag O.SCAN_STATUS 9 false).set1 O.CV_STATUS 11).wr
    O.SCAN_NEXT (x.next (d.scanBeats x))

theorem abortScan_none {d : Dev} (h : d.cvu.host = none) (cause : Nat) : d.abortScan cause = d := by simp only [Dev.abortScan, h]

theorem abortScan_some {d : Dev} {x : Scan} (h : d.cvu.host = some x) (cause : Nat) : d.abortScan cause =
    ((scanStopped d x cause).when (d.scanBeats x != 0) (fun y => lastValue y (if x.alg == 2 then 2 ^ 16 else 2 ^ 32))).onCvu
      (fun c => { c with host := none }) := by
  simp only [Dev.abortScan, h]
  rfl

/-- An aborted scan leaves what neither its objects nor its end show. -/
theorem abortScan_keeps {α : Type} {φ : Dev → α} (hstopped : ∀ (x : Dev) (y : Scan) (c : Nat), φ (scanStopped x y c) = φ x)
    (hvalue : ∀ (x : Dev) (n : Nat), φ (lastValue x n) = φ x) (hcvu : ∀ (x : Dev) (f : Cvu → Cvu), φ (x.onCvu f) = φ x) (d : Dev)
    (cause : Nat) : φ (d.abortScan cause) = φ d := by
  cases h : d.cvu.host with
  | none => rw [abortScan_none h]
  | some x => rw [abortScan_some h, hcvu, when_keeps (f := fun y => lastValue y _) (fun y => hvalue y _), hstopped]

theorem rd_abortScan (d : Dev) (cause : Nat) {k : Key} (h : k ∉ scanKeys) : (d.abortScan cause).rd k = d.rd k := by
  simp only [scanKeys, List.mem_cons, not_or, List.not_mem_nil, not_false_eq_true, and_true, ← ne_eq] at h
  obtain ⟨hstatus, hcv, hnext, hrunning⟩ := h
  refine abortScan_keeps (φ := fun x => x.rd k) (fun x y c => ?_) (fun x n => rd_lastValue x n hrunning.symm)
    (fun _ _ => rd_of_regs (onCvu_regs _ _) k) d cause
  rw [scanStopped, rd_wr_ne _ _ hnext.symm, rd_set1_ne _ _ hcv.symm, rd_putFlag_ne _ _ _ hstatus.symm, rd_putFld_ne _ _ _ _ hstatus.symm,
    rd_putFld_ne _ _ _ _ hstatus.symm]

theorem abortScan_clk (d : Dev) (cause : Nat) : (d.abortScan cause).clk = d.clk :=
  abortScan_keeps (φ := Dev.clk) (fun x y c => by rw [scanStopped, wr_clk, set1_clk, putFlag_clk, putFld_clk, putFld_clk]) lastValue_clk
    (fun _ _ => onCvu_clk _ _) d cause

/-! ## Blocks that resume (R377) -/

section
variable {d : Dev} {v : Nat}

theorem blocksResume_still (h : d.traffic = false) : blocksResume d = d.onClk (fun c => { c with resume := 0 }) :=
  if_neg (by simp [h])

theorem blocksResume_starts (h : d.traffic = true) : blocksResume d = (d.onClk (fun c => { c with resume := 0 })).blockStart d.clk.resume :=
  if_pos h

/-! ## Block gating (R376) -/

/-- The blocks whose bits were set again and still are: they resume at the next boundary. -/
def resuming (d : Dev) (v : Nat) : Nat := (d.clk.resume ||| (v &&& (0x0FFFFFFF ^^^ (d.rd O.BLOCK_CLOCK_ENABLE &&& 0x0FFFFFFF)))) &&& (v &&& 0x0FFFFFFF)

/-- BLOCK_CLOCK_ENABLE with its value, shown in BLOCK_CLOCK_STATE at once. -/
def gatesTaken (d : Dev) (v : Nat) : Dev :=
  ({ ((d.wr O.BLOCK_CLOCK_ENABLE v).wr O.BLOCK_CLOCK_STATE (v &&& 0x0FFFFFFF)) with
    undoc := d.undoc || (d.rd O.BLOCK_CLOCK_ENABLE ^^^ v) &&& 0xF0000000 != 0 } : Dev).onClk (fun c => { c with resume := resuming d v })

/-- What the stopped blocks and the cancelled switch-in leave of a device (R93, R376). -/
theorem gatesApply_keeps {α : Type} {φ : Dev → α} (hcancel : ∀ x : Dev, φ (x.cancelEarly 4) = φ x)
    (hline : ∀ (x : Dev) (f : LineSt → LineSt), φ (x.onLine f) = φ x) (habort : ∀ x : Dev, φ (x.abortScan 2) = φ x)
    (hcvu : ∀ (x : Dev) (f : Cvu → Cvu), φ (x.onCvu f) = φ x) (hput : ∀ x : Dev, φ (x.putFld O.PAIR_STATUS 11 4 0) = φ x)
    (hbreak : ∀ x : Dev, φ x.pmBreak = φ x) : φ (gatesApply v d).1 = φ (gatesTaken d v) := by
  have hgate : ∀ (x : Dev) (l : Nat), φ (x.spoilGate l) = φ x := fun x l => hline x _
  have hscans : ∀ x : Dev, φ (x.abortScans 2) = φ x := fun x => (hcvu _ _).trans (habort x)
  unfold gatesApply
  dsimp only
  rw [hbreak, when_keeps hput, when_keeps hscans, foldl_keeps hgate, when_keeps hcancel]
  rfl

theorem rd_gatesApply {k : Key} (hp : O.PENDING_STATE ≠ k) (ho : O.SWITCH_OUTCOME ≠ k) (hop : O.OP_STATUS ≠ k) (hs : k ∉ scanKeys)
    (hpair : O.PAIR_STATUS ≠ k) : (gatesApply v d).1.rd k = (gatesTaken d v).rd k :=
  gatesApply_keeps (φ := fun x => x.rd k) (fun x => rd_cancelEarly x 4 hp ho hop) (fun _ _ => rd_of_regs (onLine_regs _ _) k)
    (fun x => rd_abortScan x 2 hs) (fun _ _ => rd_of_regs (onCvu_regs _ _) k) (fun x => rd_putFld_ne x _ _ _ hpair)
    (fun x => rd_pmBreak x k)

theorem startLower_resume (x : Dev) (target : Nat) : (x.startLower target).clk.resume = x.clk.resume := by
  rw [Dev.startLower, onClk_clk, putFld_clk, putFlag_clk]

theorem cancelEarly_resume (x : Dev) (outcome : Nat) : (x.cancelEarly outcome).clk.resume = x.clk.resume := by
  unfold Dev.cancelEarly Dev.upset
  split
  · next y h =>
    split
    · rfl
    · have hun : (unscheduled x y outcome).clk = x.clk :=
        when_keeps (φ := Dev.clk) (f := fun z => z.sendMate .commitCancel) (fun _ => rfl) (x.unschedule outcome) _
      rcases cancelSched_cases h outcome with he | ⟨home, he⟩ <;> rw [he]
      · exact congrArg Clk.resume hun
      · exact (startLower_resume _ home).trans (congrArg Clk.resume hun)
  · split <;> rfl

theorem gatesApply_resume : (gatesApply v d).1.clk.resume = resuming d v :=
  gatesApply_keeps (φ := fun x => x.clk.resume) (fun x => cancelEarly_resume x 4) (fun _ _ => rfl)
    (fun x => congrArg Clk.resume (abortScan_clk x 2)) (fun _ _ => rfl) (fun _ => rfl)
    (fun x => by unfold Dev.pmBreak; split <;> rfl)

theorem gatesApply_undoc : (gatesApply v d).1.undoc = (d.undoc || (d.rd O.BLOCK_CLOCK_ENABLE ^^^ v) &&& 0xF0000000 != 0) :=
  gatesApply_keeps (φ := Dev.undoc) (fun _ => by simp) (fun _ _ => rfl) (fun _ => by simp) (fun _ _ => rfl) (fun _ => rfl) (fun _ => by simp)

theorem gatesApply_code : gatesApply v d = ((gatesApply v d).1, 0) := rfl

theorem and_blocks (v : Nat) : v &&& 0x0FFFFFFF = v % 2 ^ 28 := Nat.and_two_pow_sub_one_eq_mod v 28

theorem gatesApply_shows (hv : v < 2 ^ 32) : (gatesApply v d).1.rd O.BLOCK_CLOCK_ENABLE = v
    ∧ (gatesApply v d).1.rd O.BLOCK_CLOCK_STATE = v % 2 ^ 28
    ∧ (gatesApply v d).1.clk.resume &&& (0x0FFFFFFF ^^^ v % 2 ^ 28) = 0 := by
  refine ⟨?enable, ?state, ?resume⟩
  case enable =>
    rw [rd_gatesApply (by decide) (by decide) (by decide) (by decide) (by decide), gatesTaken, rd_of_regs (onClk_regs _ _)]
    exact (rd_wr_ne _ _ (by decide)).trans ((rd_wr_same _ _ _).trans (Nat.mod_eq_of_lt (by omega)))
  case state =>
    rw [rd_gatesApply (by decide) (by decide) (by decide) (by decide) (by decide), gatesTaken, rd_of_regs (onClk_regs _ _), ← and_blocks]
    exact (rd_wr_same _ _ _).trans (Nat.mod_eq_of_lt (by rw [and_blocks]; omega))
  case resume =>
    rw [gatesApply_resume, resuming, and_blocks, Nat.and_assoc]
    refine Nat.eq_of_testBit_eq fun i => ?_
    have hall : (0x0FFFFFFF : Nat) = 2 ^ 28 - 1 := by norm_num
    rw [hall]
    simp only [Nat.testBit_and, Nat.testBit_xor, Nat.testBit_mod_two_pow, Nat.testBit_two_pow_sub_one, Nat.zero_testBit]
    cases decide (i < 28) <;> simp

end

/-- Settles O55: each change of Kiln by what runs, a guarded value by the check that it meets. -/
theorem operatingPoints : Obligations.OperatingPoints := by
  unfold Obligations.OperatingPoints
  intro s d
  refine ⟨fun mv => ⟨fun h => leaves_of_done rfl (voltageSettled_raising h _), fun h => leaves_of_done rfl (voltageSettled_rests h _),
      fun hlower hop => leaves_of_done rfl (voltageLowered_ends hlower hop _), fun h => leaves_of_done rfl (voltageLowered_rests h _)⟩,
    fun hop h => gives_of_done rfl (divisorChanged_moves hop h),
    fun hraise hlower => leaves_of_done rfl (divisorChanged_rests hraise hlower),
    fun hraise => ⟨leaves_of_done rfl (avsFailed_fails hraise), fun hsched => gives_of_done rfl (avsFailed_cancels hraise hsched)⟩,
    fun hraise => leaves_of_done rfl (avsFailed_rests hraise), fun m v ha => ?override,
    fun m hr => ⟨leaves_of_hostNum rfl hr opRetry_one (disarmed_undoc hr), leaves_of_hostNum rfl hr opRetry_zero (disarmed_undoc hr)⟩,
    fun m v ha => ⟨fun hrsvd => ?gates, fun hrsvd => ?rsvd⟩,
    fun h => leaves_of_done rfl (blocksResume_still h), fun h => leaves_of_done rfl (blocksResume_starts h)⟩
  case override =>
    have hdoc := taken_undoc ha
    have hwrite : ∀ {e : Dev} {code : Nat}, opOverrideApply v.toNat (taken s m) = (e, code) → e.undoc = false →
        leaves (.opOverride m v) s (answered e m code []) := fun h hd => leaves_of_hostGuard rfl ha v.isLt h hd
    exact ⟨fun hn hfail => hwrite (opOverrideApply_failed hn hfail) hdoc, fun hn hraise hbusy => hwrite (opOverrideApply_busy hn hraise hbusy) hdoc,
      fun hchange h => hwrite (opOverrideApply_rests hchange h) (by simpa using hdoc),
      fun hchange hn hraise hbusy hfail => hwrite (opOverrideApply_raises hchange hn hraise hbusy hfail) (by simpa [Dev.startRaise] using hdoc)⟩
  case gates =>
    refine ⟨_, leaves_of_hostGuard rfl ha v.isLt gatesApply_code ?_, gatesApply_shows v.isLt⟩
    rw [gatesApply_undoc, taken_undoc ha, hrsvd]
    rfl
  case rsvd =>
    refine exec_fault_of_undoc rfl ha.1 ?_
    rw [completing_armed ha v.isLt, gatesApply_undoc]
    simp [hrsvd]

end Sys2Proof.Proofs
end

section
/-!
PROOFS. Host scans and the integrity check of the check-value unit (R406 to R413).
-/
namespace Sys2Proof.Proofs
open Sys2Proof Sys2Proof.Machine

/-! ## SCAN_CTRL with GO or ABORT set -/

theorem bit_or_two_pow (c : Nat) {i j : Nat} (h : i ≠ j) : bit (c ||| 2 ^ j) i = bit c i := by
  simp [bit, Nat.testBit_or, Nat.testBit_two_pow_of_ne h.symm]

theorem bit_or_two_pow_self (c j : Nat) : bit (c ||| 2 ^ j) j = true := by simp [bit, Nat.testBit_or, Nat.testBit_two_pow_self]

theorem bits_or_two_pow (c : Nat) {lo w j : Nat} (h : lo + w ≤ j) : bits (c ||| 2 ^ j) lo w = bits c lo w :=
  bits_congr fun i _ hi => bit_or_two_pow c (by omega)

/-- GO leaves the other fields of SCAN_CTRL as they are. -/
theorem go_fields (c : Nat) : bit (c ||| 16) 0 = bit c 0 ∧ bit (c ||| 16) 1 = bit c 1 ∧ bits (c ||| 16) 2 2 = bits c 2 2 :=
  ⟨bit_or_two_pow c (j := 4) (by decide), bit_or_two_pow c (j := 4) (by decide), bits_or_two_pow c (j := 4) (by decide)⟩

/-- The bits of a mask that leaves a set bit out do not change with it. -/
theorem xor_or_two_pow_and (c : Nat) {j mask : Nat} (h : mask.testBit j = false) : (c ^^^ (c ||| 2 ^ j)) &&& mask = 0 := by
  refine Nat.eq_of_testBit_eq fun i => ?_
  rw [Nat.testBit_and, Nat.testBit_xor, Nat.testBit_or, Nat.zero_testBit]
  by_cases hi : i = j
  · rw [hi, h, Bool.and_false]
  · rw [Nat.testBit_two_pow_of_ne (Ne.symm hi), Bool.or_false, Bool.xor_self, Bool.false_and]

section
variable {d : Dev}

/-- A device whose step changed `rsvd` bits, where `bad` says so (R47). -/
def marked (d : Dev) (bad : Bool) : Dev := { d with undoc := d.undoc || bad }

theorem marked_false (d : Dev) : marked d false = d := by rw [marked, Bool.or_false]

theorem scanCtrlWrite_eq (v : Nat) : scanCtrlWrite d v =
    if bits v 2 2 == 3 || (bit v 4 && bit v 5) then (d, abRange)
    else if bit v 4 then
      if (startScan d v).2 == 0 then (marked (startScan d v).1 ((d.rd O.SCAN_CTRL ^^^ v) &&& 0xC0 != 0), 0) else startScan d v
    else (marked ((d.wr O.SCAN_CTRL (v &&& 0xCF)).when (bit v 5) (fun x => x.abortScan 1)) ((d.rd O.SCAN_CTRL ^^^ v) &&& 0xC0 != 0), 0) := rfl

section
variable (halg : bits (d.rd O.SCAN_CTRL) 2 2 ≠ 3)
include halg

/-- A write of SCAN_CTRL that sets GO starts a scan. -/
theorem scanCtrlWrite_go (habort : bit (d.rd O.SCAN_CTRL) 5 = false) :
    scanCtrlWrite d (d.rd O.SCAN_CTRL ||| 16) = startScan d (d.rd O.SCAN_CTRL ||| 16) := by
  obtain ⟨-, -, halg'⟩ := go_fields (d.rd O.SCAN_CTRL)
  have hgo : bit (d.rd O.SCAN_CTRL ||| 16) 4 = true := bit_or_two_pow_self _ 4
  have habort' : bit (d.rd O.SCAN_CTRL ||| 16) 5 = false := (bit_or_two_pow _ (j := 4) (by decide)).trans habort
  have hrsvd : (d.rd O.SCAN_CTRL ^^^ (d.rd O.SCAN_CTRL ||| 16)) &&& 0xC0 = 0 := xor_or_two_pow_and _ (j := 4) (by decide)
  rw [scanCtrlWrite_eq, if_neg (by simp [halg', halg, habort']), if_pos hgo, hrsvd]
  split
  · next hzero => exact Prod.ext (marked_false _) (beq_iff_eq.mp hzero).symm
  · rfl

/-- A write of SCAN_CTRL that sets ABORT ends the host's scan. -/
theorem scanCtrlWrite_abort (hgo : bit (d.rd O.SCAN_CTRL) 4 = false) : scanCtrlWrite d (d.rd O.SCAN_CTRL ||| 32) =
    ((d.wr O.SCAN_CTRL ((d.rd O.SCAN_CTRL ||| 32) &&& 0xCF)).abortScan 1, 0) := by
  have halg' : bits (d.rd O.SCAN_CTRL ||| 32) 2 2 = bits (d.rd O.SCAN_CTRL) 2 2 := bits_or_two_pow _ (j := 5) (by decide)
  have habort : bit (d.rd O.SCAN_CTRL ||| 32) 5 = true := bit_or_two_pow_self _ 5
  have hgo' : bit (d.rd O.SCAN_CTRL ||| 32) 4 = false := (bit_or_two_pow _ (j := 5) (by decide)).trans hgo
  have hrsvd : (d.rd O.SCAN_CTRL ^^^ (d.rd O.SCAN_CTRL ||| 32)) &&& 0xC0 = 0 := xor_or_two_pow_and _ (j := 5) (by decide)
  rw [scanCtrlWrite_eq, if_neg (by simp [halg', halg, hgo']), if_neg (by simp [hgo']), habort, hrsvd]
  exact congrArg (fun x => (x, 0)) (marked_false _)

end

/-! ## The start of a host scan (R407, R409) -/

section
variable {v : Nat}

theorem startScan_busy (h : d.cvu.host.isSome = true) : startScan d v = (d, 0x08000022) := if_pos h

section
variable (hidle : d.cvu.host = none)
include hidle

theorem startScan_range (h : d.rd O.SCAN_START % 8 ≠ 0 ∨ d.rd O.SCAN_LENGTH % 8 ≠ 0 ∨ d.rd O.SCAN_LENGTH < 8
    ∨ scanRegion (d.rd O.SCAN_START) (d.rd O.SCAN_LENGTH) = none) : startScan d v = (d, 0x06090030) := by
  unfold startScan
  dsimp only
  rw [hidle, if_neg (by decide)]
  split
  · rfl
  · next hgood =>
    have hregion : scanRegion (d.rd O.SCAN_START) (d.rd O.SCAN_LENGTH) = none := by
      simp only [Bool.or_eq_true, bne_iff_ne, decide_eq_true_eq, not_or, not_not, ne_eq] at hgood
      obtain ⟨⟨hstart, hlen⟩, hshort⟩ := hgood
      rcases h with h | h | h | h
      · exact absurd hstart h
      · exact absurd hlen h
      · exact absurd h hshort
      · exact h
    simp only [hregion]

/-- A host scan that starts, as its objects show it (Table CV-8). -/
def scanStarted (d : Dev) (v : Nat) : Dev :=
  ((((((d.wr O.SCAN_CTRL (v &&& 0xCF)).wr (keyAt O.ALGORITHM 3) (bits v 2 2)).when (bit v 0) (fun x => x.wr (keyAt O.RUNNING 3)
    (crcInit (bits v 2 2)))).wr O.SCAN_NEXT (d.rd O.SCAN_START)).wr O.SCAN_STATUS (1 + 512 * ofBit (bit v 1))).onCvu (fun c => { c with
      host := some { alg := bits v 2 2, start := d.rd O.SCAN_START, len := d.rd O.SCAN_LENGTH, frozen := bit v 1, init := bit v 0
                     since := max d.elapsed c.mateUntil } }))

section
variable {r : Nat} (hstart : d.rd O.SCAN_START % 8 = 0) (hlen : d.rd O.SCAN_LENGTH % 8 = 0) (hlong : 8 ≤ d.rd O.SCAN_LENGTH)
  (hregion : scanRegion (d.rd O.SCAN_START) (d.rd O.SCAN_LENGTH) = some r)
include hstart hlen hlong hregion

/-- A scan of a range of words inside one region starts where FREEZE has something to freeze. -/
theorem startScan_inRegion : startScan d v =
    if bit v 1 && !(r == 4 || (d.isPendingRegion r && d.rd O.PENDING_STATE == 0)) then (d, abRefused) else (scanStarted d v, 0) := by
  unfold startScan
  dsimp only
  rw [hidle, if_neg (by decide), if_neg (by simp [hstart, hlen, Nat.not_lt.mpr hlong])]
  simp only [hregion]
  rfl

theorem startScan_unfreezable (hfreeze : bit v 1 = true) (hr : r ≠ 4) (h : d.isPendingRegion r = false ∨ d.rd O.PENDING_STATE ≠ 0) :
    startScan d v = (d, 0x08000022) := by
  rw [startScan_inRegion hidle hstart hlen hlong hregion]
  refine if_pos ?_
  rcases h with h | h <;> simp [hfreeze, hr, h]

theorem startScan_starts (h : bit v 1 = false ∨ r = 4 ∨ (d.isPendingRegion r = true ∧ d.rd O.PENDING_STATE = 0)) :
    startScan d v = (scanStarted d v, 0) := by
  rw [startScan_inRegion hidle hstart hlen hlong hregion]
  refine if_neg ?_
  rcases h with h | h | ⟨hpending, hstate⟩
  · simp [h]
  · simp [h]
  · simp [hpending, hstate]

end
end

theorem scanStarted_undoc : (scanStarted d v).undoc = d.undoc := by simp [scanStarted]

theorem scanStarted_cvu : (scanStarted d v).cvu.host = some
    { alg := bits v 2 2, start := d.rd O.SCAN_START, len := d.rd O.SCAN_LENGTH, frozen := bit v 1, init := bit v 0
      since := max d.elapsed d.cvu.mateUntil } := by
  have hkept : ((((((d.wr O.SCAN_CTRL (v &&& 0xCF)).wr (keyAt O.ALGORITHM 3) (bits v 2 2)).when (bit v 0) (fun x => x.wr (keyAt O.RUNNING 3)
    (crcInit (bits v 2 2)))).wr O.SCAN_NEXT (d.rd O.SCAN_START)).wr O.SCAN_STATUS (1 + 512 * ofBit (bit v 1)))).cvu = d.cvu := by
    rw [wr_cvu, wr_cvu, when_keeps (φ := Dev.cvu) (f := fun x => x.wr _ _) (fun x => wr_cvu x _ _), wr_cvu, wr_cvu]
  rw [scanStarted, onCvu_cvu, hkept]

theorem scanStarted_shows : (scanStarted d v).rd O.SCAN_NEXT = d.rd O.SCAN_START
    ∧ (scanStarted d v).rd O.SCAN_STATUS = 1 + 512 * ofBit (bit v 1) := by
  have hstatus : 1 + 512 * ofBit (bit v 1) < 2 ^ 64 := by cases bit v 1 <;> decide
  rw [scanStarted]
  refine ⟨?_, ?_⟩
  · rw [rd_of_regs (onCvu_regs _ _), rd_wr_ne _ _ (by decide), rd_wr_same]
    exact Nat.mod_eq_of_lt (rd_lt d _)
  · rw [rd_of_regs (onCvu_regs _ _), rd_wr_same]
    exact Nat.mod_eq_of_lt hstatus

end

/-! ## The end of a host scan (R408, R410, R411) -/

/-- A scan that an abort ends shows ABORTED with the cause. -/
theorem abortScan_ends {x : Scan} (h : d.cvu.host = some x) {cause : Nat} (hcause : cause < 16) : (d.abortScan cause).cvu.host = none
    ∧ (d.abortScan cause).fld O.SCAN_STATUS 0 3 = 4 ∧ (d.abortScan cause).fld O.SCAN_STATUS 4 4 = cause
    ∧ (d.abortScan cause).flag O.CV_STATUS 11 = true := by
  have hkept : ∀ k : Key, keyAt O.RUNNING 3 ≠ k → (d.abortScan cause).rd k = (scanStopped d x cause).rd k := by
    intro k hk
    rw [abortScan_some h, rd_of_regs (onCvu_regs _ _)]
    exact when_keeps (φ := fun y => y.rd k) (f := fun y => lastValue y _) (fun y => rd_lastValue y _ hk) _ _
  have hstatus : (d.abortScan cause).rd O.SCAN_STATUS =
      (((d.putFld O.SCAN_STATUS 0 3 4).putFld O.SCAN_STATUS 4 4 cause).putFlag O.SCAN_STATUS 9 false).rd O.SCAN_STATUS := by
    rw [hkept _ (by decide), scanStopped, rd_wr_ne _ _ (by decide), rd_set1_ne _ _ (by decide)]
  refine ⟨?host, ?state, ?why, ?seen⟩
  case host => rw [abortScan_some h, onCvu_cvu]
  case state =>
    rw [fld_of_rd hstatus, fld_putFlag_outside _ _ _ (by decide) (by decide), fld_putFld_outside _ _ _ (by decide) (by decide),
      fld_putFld_same _ _ _ (by decide)]
    rfl
  case why =>
    rw [fld_of_rd hstatus, fld_putFlag_outside _ _ _ (by decide) (by decide), fld_putFld_same _ _ _ (by decide)]
    exact Nat.mod_eq_of_lt hcause
  case seen =>
    rw [flag_of_rd (hkept _ (by decide)), scanStopped, flag_of_rd (rd_wr_ne _ _ (by decide)), flag_set1_same _ _ (by decide)]

theorem eventBlind_cvu : EventBlind Dev.cvu where
  wr _ _ _ := rfl
  onCan _ _ := rfl
  onProv _ _ := rfl
  onMode _ _ := rfl
  onClk _ _ := rfl
  onComa _ _ := rfl
  onPair _ _ := rfl
  onSec _ _ := rfl
  onOut _ _ := rfl
  pmBreak d := by unfold Dev.pmBreak; split <;> rfl

section
variable (touched : Bool)

theorem scanDone_none (h : d.cvu.host = none) (e : Ecc) : scanDone d touched e = d := by simp only [scanDone, h]

theorem scanDone_displaced (h : d.displaced = true) (e : Ecc) : scanDone d touched e = d := by
  unfold scanDone
  split
  · rfl
  · exact if_pos h

section
variable {x : Scan} (hhost : d.cvu.host = some x) (hruns : d.displaced = false)
include hhost hruns

theorem scanDone_uncorrectable : scanDone d touched .uncorrectable =
    (d.memoryErrorSomewhere ((scanRegion x.start x.len).getD 0)).abortScan 4 := by
  simp only [scanDone, hhost, hruns]
  rfl

/-- A completed scan as its objects show it (R408, R410). -/
def scanCompleted (d : Dev) (x : Scan) (touched : Bool) : Dev :=
  (((((d.wr (keyAt O.RUNNING 3) (scanRunning d x)).fresh).wr O.SCAN_STATUS (3 + 256 * ofBit (touched && !x.frozen))).wr O.SCAN_NEXT
    (x.start + x.len)).set1 O.CV_STATUS 10).onCvu (fun c => { c with host := none })

theorem scanDone_clean : scanDone d touched .clean = scanCompleted d x touched := by
  simp only [scanDone, hhost, hruns]
  rfl

end

section
variable (d) (x : Scan)

theorem scanCompleted_shows : (scanCompleted d x touched).cvu.host = none
    ∧ (scanCompleted d x touched).rd O.SCAN_STATUS = 3 + 256 * ofBit (touched && !x.frozen)
    ∧ (scanCompleted d x touched).rd O.SCAN_NEXT = (x.start + x.len) % 2 ^ 64 ∧ (scanCompleted d x touched).flag O.CV_STATUS 10 = true
    ∧ (scanCompleted d x touched).rd (keyAt O.RUNNING 3) = scanRunning d x % 2 ^ 64 := by
  have hstatus : 3 + 256 * ofBit (touched && !x.frozen) < 2 ^ 64 := by cases touched && !x.frozen <;> decide
  refine ⟨rfl, ?status, ?next, ?seen, ?running⟩
  case status =>
    rw [scanCompleted, rd_of_regs (onCvu_regs _ _), rd_set1_ne _ _ (by decide), rd_wr_ne _ _ (by decide), rd_wr_same]
    exact Nat.mod_eq_of_lt hstatus
  case next => rw [scanCompleted, rd_of_regs (onCvu_regs _ _), rd_set1_ne _ _ (by decide), rd_wr_same]
  case seen => rw [scanCompleted, flag_of_rd (rd_of_regs (onCvu_regs _ _) _), flag_set1_same _ _ (by decide)]
  case running =>
    rw [scanCompleted, rd_of_regs (onCvu_regs _ _), rd_set1_ne _ _ (by decide), rd_wr_ne _ _ (by decide), rd_wr_ne _ _ (by decide)]
    exact rd_wr_same _ _ _

/-- The bytes of a bank under its GEN_CRC, in one scan from the initial value (R415). -/
theorem scanRunning_bank (b : Bool) (halg : x.alg = 0) (hinit : x.init = true) (hlen : x.len = 0x1FFFC0)
    (hstart : x.start = if b then 0x400040 else 0x40) : scanRunning d x % 2 ^ 64 = (d.crcOf b).toNat ^^^ 0xFFFFFFFF := by
  have hvalue : scanRunning d x = (d.crcOf b).toNat ^^^ 0xFFFFFFFF := by cases b <;> simp [scanRunning, halg, hinit, hlen, hstart]
  have hsmall : (d.crcOf b).toNat ^^^ 0xFFFFFFFF < 2 ^ 32 := Nat.xor_lt_two_pow (d.crcOf b).isLt (by decide)
  rw [hvalue]
  exact Nat.mod_eq_of_lt (by omega)

end
end

/-! ## RUNNING of a channel (R406) -/

theorem runningWrite_busy {n : Nat} (h : d.channelBusy n = true) (v : Nat) : runningWrite d n v = (d, 0x08000022) := if_pos h

theorem runningWrite_free {n : Nat} (h : d.channelBusy n = false) (v : Nat) : runningWrite d n v =
    (d.wr (keyAt O.RUNNING n) (if d.rd (keyAt O.ALGORITHM n) = 2 then v % 2 ^ 16 else v), 0) := by
  simp [runningWrite, h]

/-! ## The integrity check (R412, R413) -/

/-- A check that has started, from the initial value. -/
def integStarted (d : Dev) : Dev :=
  (d.scanHold.wr (keyAt O.RUNNING 2) 0xFFFFFFFF).onCvu (fun c =>
    { c with integ := true, dueFrames := if c.dueFrames == some 0 then none else c.dueFrames })

theorem integrityStart_starts (hboot : d.inBoot = false) (hclamp : d.clamped = false) (hgate : d.gateOn gCheck = true)
    (hidle : d.cvu.integ = false) (hperiod : d.rd O.INTEGRITY_PERIOD ≠ 0) : integrityStart d = integStarted d := by
  have hdue : (d.rd O.INTEGRITY_PERIOD != 0 || d.cvu.dueFrames == some 0) = true := by simp [hperiod]
  unfold integrityStart
  dsimp only
  rw [if_neg (by simp [hboot, hclamp, hgate, hidle, hdue])]
  rfl

theorem integrityStart_runs (h : d.cvu.integ = true) : integrityStart d = d := by simp [integrityStart, h]

theorem integrityEnd_waits (h : d.cvu.integ = false ∨ d.integDisplaced = true) (l : List Attempt) (n : Nat) : integrityEnd d l n = d := by
  rcases h with h | h <;> simp [integrityEnd, h]

section
variable (hruns : d.cvu.integ = true) (hfree : d.integDisplaced = false) (v : BitVec 32) (n : Nat)
include hruns hfree

/-- A check that has ended with a value computed last. -/
def integEnded (d : Dev) (v n : Nat) : Dev :=
  (((((d.scanHold.count (O.ECC_CORRECTED + d.rd O.ACTIVE_BANK) n).wr O.LAST_COMPUTED v).wr O.LAST_CHECK_TIME d.time).count
    O.INTEGRITY_CHECKS 1).wr (keyAt O.RUNNING 2) (v ^^^ 0xFFFFFFFF)).onCvu (fun c => { c with integ := false })

theorem integrityEnd_passes (hgood : d.active.genCrc.toNat = v.toNat) (hok : d.flag O.CV_STATUS 8 = false) :
    integrityEnd d [.result v] n = integEnded d v.toNat n := by
  simp [integrityEnd, hruns, hfree, attemptValue, attemptReport, hgood, hok, Dev.when, integEnded]

section
variable (hbad : d.active.genCrc.toNat ≠ v.toNat)
include hbad

theorem integrityEnd_retries : integrityEnd d [.result v] n = d ∧ integrityEnd d [.result v, .result v] n = d := by
  simp [integrityEnd, hruns, hfree, attemptValue, hbad.symm]

/-- A failed check: CV_STATUS shows it, and that one has been seen. -/
def integFailed (d : Dev) (v n : Nat) : Dev :=
  (((integEnded d v n).putFlag O.CV_STATUS 8 true).set1 O.CV_STATUS 9).count O.INTEGRITY_FAILURES 1

theorem integrityEnd_fails : integrityEnd d [.result v, .result v, .result v] n =
    if d.flag O.CV_STATUS 8 then integFailed d v.toNat n
    else (integFailed d v.toNat n).raise { cls := clsIntegrity, inst := d.rd O.ACTIVE_BANK, level := 5
                                           detail := integrityDetail [.result v, .result v, .result v] } := by
  simp [integrityEnd, hruns, hfree, attemptValue, attemptReport, hbad.symm, integEnded, integFailed]

end
end

section
variable (d) (v n : Nat)

theorem rd_integFailed {k : Key} (h : O.INTEGRITY_FAILURES ≠ k) :
    (integFailed d v n).rd k = (((integEnded d v n).putFlag O.CV_STATUS 8 true).set1 O.CV_STATUS 9).rd k := rd_count_ne _ _ h

theorem integFailed_shows (hv : v < 2 ^ 32) : (integFailed d v n).cvu.integ = false ∧ (integFailed d v n).flag O.CV_STATUS 8 = true
    ∧ (integFailed d v n).flag O.CV_STATUS 9 = true ∧ (integFailed d v n).rd O.LAST_COMPUTED = v := by
  refine ⟨?ended, ?failed, ?seen, ?last⟩
  case ended =>
    rw [integFailed, count_keeps (φ := fun x => x.cvu.integ) _ (fun _ _ _ => rfl), set1_cvu, putFlag_cvu, integEnded, onCvu_cvu]
  case failed =>
    rw [flag_of_rd (rd_integFailed d v n (by decide)), flag_set1_ne _ _ (by decide) (by decide), flag_putFlag_same _ _ _ (by decide)]
  case seen => rw [flag_of_rd (rd_integFailed d v n (by decide)), flag_set1_same _ _ (by decide)]
  case last =>
    rw [rd_integFailed d v n (by decide), rd_set1_ne _ _ (by decide), rd_putFlag_ne _ _ _ (by decide), integEnded,
      rd_of_regs (onCvu_regs _ _), rd_wr_ne _ _ (by decide), rd_count_ne _ _ (by decide), rd_wr_ne _ _ (by decide), rd_wr_same]
    exact Nat.mod_eq_of_lt (by omega)

end

/-- A check whose three attempts give another value than GEN_CRC has failed, whether or not it is reported. -/
theorem integrityEnd_failed (hruns : d.cvu.integ = true) (hfree : d.integDisplaced = false) (v : BitVec 32) (n : Nat)
    (hbad : d.active.genCrc.toNat ≠ v.toNat) {e : Dev} (he : integrityEnd d [.result v, .result v, .result v] n = e) :
    e.cvu.integ = false ∧ e.flag O.CV_STATUS 8 = true ∧ e.flag O.CV_STATUS 9 = true ∧ e.rd O.LAST_COMPUTED = v.toNat := by
  obtain ⟨hended, hfailed, hseen, hlast⟩ := integFailed_shows d v.toNat n v.isLt
  rw [integrityEnd_fails hruns hfree v n hbad] at he
  subst he
  split
  · exact ⟨hended, hfailed, hseen, hlast⟩
  · exact ⟨(congrArg Cvu.integ (eventBlind_cvu.raise _ _)).trans hended, (flag_of_rd (rd_raise _ _ (by decide)) 8).trans hfailed,
      (flag_of_rd (rd_raise _ _ (by decide)) 9).trans hseen, (rd_raise _ _ (by decide)).trans hlast⟩

theorem integStarted_shows : (integStarted d).cvu.integ = true ∧ (integStarted d).rd (keyAt O.RUNNING 2) = 0xFFFFFFFF := by
  refine ⟨by rw [integStarted, onCvu_cvu], ?_⟩
  rw [integStarted, rd_of_regs (onCvu_regs _ _), rd_wr_same]
  rfl

end

/-! ## A host's accesses -/

section
variable {s : State} {m : Master} (hr : reachable s m)
include hr

theorem leaves_gatedScan (hgate : (disarmed s m).gateOn gCheck = false) : leaves (.go m) s (answered (disarmed s m) m 0 [])
    ∧ leaves (.abort m) s (answered (disarmed s m) m 0 [])
    ∧ ∀ (n : Fin 4) (v : BitVec 32), leaves (.running m n v) s (answered (disarmed s m) m 0 []) := by
  have hskip : ∀ r : Dev × Nat, (if !(disarmed s m).gateOn gCheck then (disarmed s m, 0) else r) = (disarmed s m, 0) :=
    fun r => if_pos (by simp [hgate])
  exact ⟨leaves_of_hostNum rfl hr (hskip _) (disarmed_undoc hr), leaves_of_hostNum rfl hr (hskip _) (disarmed_undoc hr),
    fun n v => leaves_of_hostNum rfl hr (hskip _) (disarmed_undoc hr)⟩

section
variable (hgate : (disarmed s m).gateOn gCheck = true) {e : Dev} {code : Nat}
include hgate

theorem leaves_go (halg : bits ((disarmed s m).rd O.SCAN_CTRL) 2 2 ≠ 3) (habort : bit ((disarmed s m).rd O.SCAN_CTRL) 5 = false)
    (h : startScan (disarmed s m) ((disarmed s m).rd O.SCAN_CTRL ||| 16) = (e, code)) (hd : e.undoc = false) :
    leaves (.go m) s (answered e m code []) :=
  leaves_of_hostNum rfl hr ((if_neg (by simp [hgate])).trans ((scanCtrlWrite_go halg habort).trans h)) hd

theorem leaves_abort (halg : bits ((disarmed s m).rd O.SCAN_CTRL) 2 2 ≠ 3) (hgo : bit ((disarmed s m).rd O.SCAN_CTRL) 4 = false) :
    leaves (.abort m) s (answered (((disarmed s m).wr O.SCAN_CTRL (((disarmed s m).rd O.SCAN_CTRL ||| 32) &&& 0xCF)).abortScan 1) m 0 []) :=
  leaves_of_hostNum rfl hr ((if_neg (by simp [hgate])).trans (scanCtrlWrite_abort halg hgo)) (by simpa using disarmed_undoc hr)

theorem leaves_running {n : Fin 4} {v : BitVec 32} (h : runningWrite (disarmed s m) n.val v.toNat = (e, code)) (hd : e.undoc = false) :
    leaves (.running m n v) s (answered e m code []) :=
  leaves_of_hostNum rfl hr ((if_neg (by simp [hgate])).trans h) hd

end
end

/-- Settles O57: a host's access by the scan that runs and the range that it names, the end of a scan by who has the engine. -/
theorem checkValueUnit : Obligations.CheckValueUnit := by
  unfold Obligations.CheckValueUnit
  intro s d
  refine ⟨fun m hr => ?host, fun touched => ⟨fun hnone e => leaves_of_done rfl (scanDone_none touched hnone e), fun x hx =>
      ⟨fun hdisp e => leaves_of_done rfl (scanDone_displaced touched hdisp e), fun hfree => ?bad, fun hfree => ?done⟩⟩,
    fun hboot hclamp hgate hidle hperiod => ?start, fun h => leaves_of_done rfl (integrityStart_runs h),
    fun h l n => leaves_of_done rfl (integrityEnd_waits h l _), fun hruns hfree v n => ⟨fun hgood hok => ?passes, fun hbad => ?fails⟩⟩
  case host =>
    have hdoc := disarmed_undoc hr
    obtain ⟨hinit, hfrozen, hsame⟩ := go_fields ((disarmed s m).rd O.SCAN_CTRL)
    refine ⟨leaves_gatedScan hr, fun hgate halg habort => ⟨fun hbusy => ?busy, fun hidle hrange => ?range,
        fun r hidle hstart hlen hlong hregion => ⟨fun hfreeze hr4 hheld => ?unfreezable, fun hfree => ?starts⟩⟩,
      fun hgate halg hgo => ⟨fun hnone => ?nothing, fun hsome => ?aborts⟩, fun hgate n v => ⟨fun hbusy => ?held, fun hidle => ?taken⟩⟩
    case busy => exact leaves_go hr hgate halg habort (startScan_busy hbusy) hdoc
    case range => exact leaves_go hr hgate halg habort (startScan_range hidle hrange) hdoc
    case unfreezable =>
      exact leaves_go hr hgate halg habort (startScan_unfreezable hidle hstart hlen hlong hregion (hfrozen.trans hfreeze) hr4 hheld) hdoc
    case starts =>
      rw [← hfrozen] at hfree
      obtain ⟨hnext, hstatus⟩ := scanStarted_shows (d := disarmed s m) (v := (disarmed s m).rd O.SCAN_CTRL ||| 16)
      have hhost := scanStarted_cvu (d := disarmed s m) (v := (disarmed s m).rd O.SCAN_CTRL ||| 16)
      rw [hfrozen] at hstatus
      rw [hinit, hfrozen, hsame] at hhost
      exact ⟨_, leaves_go hr hgate halg habort (startScan_starts hidle hstart hlen hlong hregion hfree) (scanStarted_undoc.trans hdoc), hnext,
        hstatus, hhost⟩
    case nothing =>
      have habort := leaves_abort hr hgate halg hgo
      rwa [abortScan_none (d := (disarmed s m).wr O.SCAN_CTRL _) hnone] at habort
    case aborts =>
      obtain ⟨x, hx⟩ := Option.isSome_iff_exists.mp hsome
      obtain ⟨hend, hstate, hcause, -⟩ := abortScan_ends (d := (disarmed s m).wr O.SCAN_CTRL _) hx (cause := 1) (by decide)
      exact ⟨_, leaves_abort hr hgate halg hgo, hend, hstate, hcause⟩
    case held => exact leaves_running hr hgate (runningWrite_busy hbusy _) hdoc
    case taken => exact leaves_running hr hgate (runningWrite_free hidle _) hdoc
  case bad =>
    have hkept : (d.memoryErrorSomewhere ((scanRegion x.start x.len).getD 0)).cvu.host = some x :=
      (congrArg Cvu.host (eventBlind_cvu.memoryError d _ _)).trans hx
    exact ⟨_, leaves_of_done rfl (scanDone_uncorrectable touched hx hfree), abortScan_ends hkept (by decide)⟩
  case done =>
    obtain ⟨hend, hstatus, hnext, hseen, hvalue⟩ := scanCompleted_shows d touched x
    exact ⟨_, leaves_of_done rfl (scanDone_clean touched hx hfree), hend, hstatus, hnext, hseen,
      fun halg hinit hlen hstart => hvalue.trans (scanRunning_bank d x false halg hinit hlen hstart),
      fun halg hinit hlen hstart => hvalue.trans (scanRunning_bank d x true halg hinit hlen hstart)⟩
  case start =>
    exact ⟨_, leaves_of_done rfl (integrityStart_starts hboot hclamp hgate hidle hperiod), integStarted_shows⟩
  case passes => exact leaves_of_done rfl (integrityEnd_passes hruns hfree v _ hgood hok)
  case fails =>
    obtain ⟨hone, htwo⟩ := integrityEnd_retries hruns hfree v n.toNat hbad
    exact ⟨leaves_of_done rfl hone, leaves_of_done rfl htwo, gives_of_done rfl (integrityEnd_failed hruns hfree v n.toNat hbad rfl)⟩

end Sys2Proof.Proofs
end

section
/-!
PROOFS. Reads of a DOMAIN that no gate, guard or context governs (R56, R471); debug, the CAN privilege session and attestation (R429, R433,
R434).
-/
namespace Sys2Proof.Proofs
open Sys2Proof Sys2Proof.Machine

/-! ## Reads of a DOMAIN (R56, R471) -/

/-- A read-only DOMAIN that neither a gate nor a guard, a generation or a context governs. -/
structure OpenDomain (idx sub : Nat) (o : ObjDef) : Prop where
  listed  : indexExists idx = true
  found   : findObj idx sub = some o
  domain  : ∃ lo hi, o.ty = .dom lo hi
  readers : o.acc = .ro
  open_   : o.guard = false
  fixed   : o.gen = false
  ungated : gateBitOf idx = none
  global  : isContextField o.base o.sub = false
  alone   : ∀ d : Dev, d.bondedIndex idx = false

section
variable {idx sub : Nat} {o : ObjDef} (h : OpenDomain idx sub o)
include h

theorem heldBack_openDomain (d : Dev) : d.heldBack idx sub false = false := by
  simp [Dev.heldBack, h.found, h.fixed]

theorem readLengthOk_openDomain (len : Nat) : readLengthOk o.ty (some len) = (len != 0) := by
  obtain ⟨lo, hi, hty⟩ := h.domain
  rw [hty]
  rfl

section
variable {d : Dev} {m : Master} (hboot : d.inBoot = false)
include hboot

theorem readObj_openDomain {len : Nat} (hlen : len ≠ 0) : d.readObj m idx sub (some len) .clean = domValue d m idx sub len := by
  obtain ⟨lo, hi, hty⟩ := h.domain
  have hlength := readLengthOk_openDomain h len
  rw [hty] at hlength
  simp [Dev.readObj, readAt, hboot, h.listed, h.found, Dev.gatedObj, h.ungated, h.alone d, h.readers, hlength, hlen, h.open_, contextCode,
    h.global, Dev.eccHit, valueOf, hty]

theorem readObj_openDomain_empty : d.readObj m idx sub (some 0) .clean = (d, { abort := 0x06070010 }) := by
  have hlength := readLengthOk_openDomain h 0
  simp [Dev.readObj, readAt, hboot, h.listed, h.found, Dev.gatedObj, h.ungated, h.alone d, h.readers, hlength, abLength]

end

/-- A read in its master's turn gives what the entry answers, with the effect of the completion where it is transferred whole (R57). -/
theorem leaves_of_domRead {c : Instr} {s : State} {m : Master} {k : Key} {r : DomRead} {d e : Dev} {x : ReadAns}
    (hc : exec c s = hostRead s m k r) (hr : reachable s m) (hidx : Key.idx k = idx) (hsub : Key.sub k = sub) (hecc : r.ecc = .clean)
    (hread : s.dev.readObj m idx sub (some r.maxLen) .clean = (d, x))
    (hfin : d.when (x.abort == 0 && r.complete) (fun y => y.completed x.fin) = e) (he : e.undoc = false) :
    leaves c s (answered e m x.abort x.data) := by
  obtain ⟨⟨hboot, -⟩, hturn⟩ := hr
  have hanswer : hostRead s m k r = hostTurn s m { tag := if r.complete then tagNone else tagShort, body := .read idx sub r.maxLen, ecc := r.ecc }
      (e, x.abort) x.data := by
    simp [hostRead, hidx, hsub, heldBack_openDomain h, hecc, hread, hfin]
  rw [leaves, hc, hanswer, hostTurn, hboot, hturn]
  simp only [hostDone, he]
  rfl

end

/-! ## Debug (R429) -/

section
variable (d : Dev)

/-- The device whose debug level has become another, with what a lowering shows (R428, R429, R435). -/
def debugShown (d : Dev) (level : Nat) (forced : Bool) : Dev :=
  (((((d.wr O.DEBUG_LEVEL level).set1 O.SEC_STATUS 8).upset 0).when (forced && level < d.debug) (fun x => x.set1 O.SEC_STATUS 9)).when
    (level < 2) (fun x => x.putFlag O.SEC_STATUS 3 false)).privateStatus

theorem setDebug_same {level : Nat} (h : level = d.debug) (forced : Bool) : d.setDebug level forced = d := if_pos (beq_iff_eq.mpr h)

theorem setDebug_changes {level : Nat} (h : level ≠ d.debug) (forced : Bool) : d.setDebug level forced =
    (debugShown d level forced).onSec (fun s => { s with
      maxDebug := max s.maxDebug level, lifetime := if level == 0 then none else s.lifetime }) :=
  if_neg (by simpa using h)

theorem debugShown_debug {level : Nat} (h : level < 2 ^ 64) (forced : Bool) : (debugShown d level forced).debug = level := by
  have hset : ∀ (x : Dev) (c : Bool) (i : Nat) (b : Bool), (x.when c (fun y => y.putFlag O.SEC_STATUS i b)).rd O.DEBUG_LEVEL = x.rd O.DEBUG_LEVEL :=
    fun x c i b => when_keeps (φ := fun y => y.rd O.DEBUG_LEVEL) (fun y => rd_putFlag_ne y i b (by decide)) x c
  unfold debugShown Dev.privateStatus Dev.debug
  rw [rd_putFlag_ne _ _ _ (by decide), hset]
  refine (hset _ _ _ _).trans ?_
  rw [rd_upset, rd_set1_ne _ _ (by decide), rd_wr_same]
  exact Nat.mod_eq_of_lt h

theorem setDebug_debug {level : Nat} (h : level < 2 ^ 64) (forced : Bool) : (d.setDebug level forced).debug = level := by
  by_cases hsame : level = d.debug
  · rw [setDebug_same d hsame, hsame]
  · rw [setDebug_changes d hsame]
    exact debugShown_debug d h forced

/-- Debug that ends without the host's request has been seen to be forced. -/
theorem setDebug_forced (h : d.debug ≠ 0) : (d.setDebug 0 true).flag O.SEC_STATUS 9 = true ∧ (d.setDebug 0 true).sec.lifetime = none := by
  have hlower : (true && decide (0 < d.debug)) = true := by simp; omega
  rw [setDebug_changes d (Ne.symm h)]
  refine ⟨?_, rfl⟩
  rw [flag_of_rd (rd_of_regs (onSec_regs _ _) _), debugShown, hlower, Dev.privateStatus, flag_putFlag_ne _ _ _ (by decide) (by decide)]
  exact (flag_putFlag_ne _ _ _ (by decide) (by decide)).trans (flag_set1_same _ _ (by decide))

theorem lifetimeEnd_none (h : d.sec.lifetime = none) : lifetimeEnd d = d := if_neg (by simp [h])

theorem lifetimeEnd_closes (h : d.sec.lifetime.isSome = true) : lifetimeEnd d = d.setDebug 0 true := if_pos h

/-! ## The CAN privilege session (R433) -/

theorem endSession_privilege (cause : Nat) : (d.endSession cause).privilege .can = 0 := by
  unfold Dev.endSession
  split
  · next h => simpa [Dev.privilege] using h
  · have hoff : ((d.putFlag O.SEC_STATUS 2 false).onSec (fun s => { s with session := none })).flag O.SEC_STATUS 2 = false :=
      (flag_of_rd (rd_of_regs (onSec_regs _ _) _) 2).trans (flag_putFlag_same _ _ _ (by decide))
    rw [dropArm_privilege, Dev.privilege, hoff]
    rfl

theorem sessionFailed_sec : d.sessionFailed.sec = { d.sec with
    challenge := false, response := none, failRun := d.sec.failRun + 1, lockout := d.sec.lockout || 3 ≤ d.sec.failRun + 1 } := by
  rw [Dev.sessionFailed, onSec_sec, set1_sec, count_keeps (φ := Dev.sec) _ (fun x k v => wr_sec x k v)]

theorem sessionFailed_counts : d.sessionFailed.sec.challenge = false ∧ d.sessionFailed.sec.failRun = d.sec.failRun + 1
    ∧ d.sessionFailed.flag O.SEC_STATUS 11 = true ∧ (2 ≤ d.sec.failRun → d.sessionFailed.sec.lockout = true) := by
  rw [sessionFailed_sec]
  refine ⟨rfl, rfl, ?seen, fun h => ?locked⟩
  case seen => rw [Dev.sessionFailed, flag_of_rd (rd_of_regs (onSec_regs _ _) _), flag_set1_same _ _ (by decide)]
  case locked => simp [h]

/-- The session opens on a good response. -/
def sessionOpened (d : Dev) : Dev :=
  (d.putFlag O.SEC_STATUS 2 true).onSec (fun s => { s with
    challenge := false, response := none, failRun := 0, session := some (d.elapsed + 600000000000) })

theorem sessionOpened_privilege : (sessionOpened d).privilege .can = 1 := by
  have hon : (sessionOpened d).flag O.SEC_STATUS 2 = true :=
    (flag_of_rd (rd_of_regs (onSec_regs _ _) _) 2).trans (flag_putFlag_same _ _ _ (by decide))
  exact if_pos hon

theorem responseChecked_none (h : d.sec.response = none) : responseChecked d = d := by simp only [responseChecked, h]

theorem responseChecked_some {r : List Byte} (h : d.sec.response = some r) :
    responseChecked d = if responseGood d r then sessionOpened d else d.sessionFailed := by
  simp only [responseChecked, h]
  rfl

theorem responseChecked_decides {r : List Byte} (h : d.sec.response = some r) {e : Dev} (he : responseChecked d = e) :
    e.sec.challenge = false
      ∧ (responseGood d r = true → e.privilege .can = 1 ∧ e.sec.failRun = 0 ∧ e.sec.session = some (d.elapsed + 600000000000))
      ∧ (responseGood d r = false → e.sec.failRun = d.sec.failRun + 1 ∧ e.flag O.SEC_STATUS 11 = true
        ∧ (2 ≤ d.sec.failRun → e.sec.lockout = true)) := by
  rw [responseChecked_some d h] at he
  subst he
  cases hgood : responseGood d r
  case true => exact ⟨rfl, fun _ => ⟨sessionOpened_privilege d, rfl, rfl⟩, fun h => absurd h (by decide)⟩
  case false =>
    obtain ⟨hchallenge, hcount⟩ := sessionFailed_counts d
    exact ⟨hchallenge, fun h => absurd h (by decide), fun _ => hcount⟩

theorem canOnly_other {m : Master} (h : m ≠ .can) (f : Dev → Dev × Nat) : canOnly m d f = (d, 0x08000022) :=
  if_neg (by simpa using h)

theorem challengeNew_refused (h : d.genBit O.SEC_POLICY 1 = false ∨ d.sec.lockout = true) : challengeNew d = (d, 0x08000022) :=
  if_pos (by rcases h with h | h <;> simp [h])

theorem challengeNew_fires (hpolicy : d.genBit O.SEC_POLICY 1 = true) (hlock : d.sec.lockout = false) : challengeNew d =
    (((d.wrStr O.SESSION_CHALLENGE (fitBytes 32 (Config.random d.free))).onSec (fun x => { x with challenge := true })).fresh, 0) :=
  if_neg (by simp [hpolicy, hlock])

theorem sessionResponse_taken {r : List Byte} (h : r.length = 171) :
    sessionResponse .can r d = (d.onSec (fun x => { x with response := some r }), 0) := by
  simp [sessionResponse, canOnly, h]

theorem sessionResponse_length {r : List Byte} (h : r.length ≠ 171) : sessionResponse .can r d = (d.sessionFailed, 0x06070010) := by
  simp [sessionResponse, canOnly, h, abLength]

theorem attestNonceWrite_taken {l : List Byte} (m : Master) (h : l.length ≤ 32) :
    attestNonceWrite m l d = (d.onSecOf m (fun x => { x with attest := l }), 0) := if_neg (Nat.not_lt.mpr h)

theorem attestNonceWrite_length {l : List Byte} (m : Master) (h : 32 < l.length) : attestNonceWrite m l d = (d, 0x06070010) := if_pos h

end

/-! ## Attestation (R434) -/

/-- The row of ATTEST_REPORT (Table SE-9). -/
def attestReportRow : ObjDef := { base := 0x2230, sub := 2, ty := .dom 306 306, acc := .ro }

theorem attestReport_open : OpenDomain 0x2230 2 attestReportRow where
  listed := by decide +kernel
  found := by decide +kernel
  domain := ⟨306, 306, rfl⟩
  readers := rfl
  open_ := rfl
  fixed := rfl
  ungated := rfl
  global := rfl
  alone _ := rfl

theorem domValue_attestReport (d : Dev) (m : Master) (n : Nat) :
    domValue d m 0x2230 2 n = ((attestRead d m n).1, { abort := (attestRead d m n).2.1, data := (attestRead d m n).2.2 }) := by
  have hbase : baseOf 0x2230 = 0x2230 := by decide
  simp [domValue, hbase]

section
variable {s : State} {m : Master} {r : DomRead} (hr : reachable s m) (hecc : r.ecc = .clean)
include hr hecc

/-- A read of ATTEST_REPORT that takes some bytes, by what Saggar answers. -/
theorem leaves_attestReport {d : Dev} {code : Nat} {data : List Byte} (hlen : r.maxLen ≠ 0) (h : attestRead s.dev m r.maxLen = (d, code, data))
    (hd : d.undoc = false) : leaves (.attestReport m r) s (answered d m code data) := by
  have hread : s.dev.readObj m 0x2230 2 (some r.maxLen) .clean = (d, { abort := code, data := data }) := by
    rw [readObj_openDomain attestReport_open hr.1.1 hlen, domValue_attestReport, h]
  have hnone : d.when (code == 0 && r.complete) (fun y => y.completed .none) = d := by
    cases code == 0 && r.complete <;> rfl
  exact leaves_of_domRead attestReport_open (x := { abort := code, data := data }) rfl hr rfl rfl hecc hread hnone hd

theorem leaves_attestReport_retired (hlife : s.dev.lifecycle = 3) (hlen : r.maxLen ≠ 0) :
    leaves (.attestReport m r) s (answered s.dev m 0x08000022 []) :=
  leaves_attestReport hr hecc hlen (by rw [attestRead, if_pos (by simpa using hlife)]) hr.1.2

theorem leaves_attestReport_short (hlife : s.dev.lifecycle ≠ 3) (hshort : r.maxLen < 306) :
    leaves (.attestReport m r) s (answered s.dev m 0x06070010 []) := by
  by_cases hlen : r.maxLen = 0
  · have hread : s.dev.readObj m 0x2230 2 (some r.maxLen) .clean = (s.dev, { abort := 0x06070010 }) := by
      rw [hlen]
      exact readObj_openDomain_empty attestReport_open hr.1.1
    exact leaves_of_domRead attestReport_open (x := { abort := 0x06070010 }) rfl hr rfl rfl hecc hread rfl hr.1.2
  · refine leaves_attestReport hr hecc hlen ?_ hr.1.2
    rw [attestRead, if_neg (by simpa using hlife), if_pos hshort, abLength]

theorem leaves_attestReport_built (hlife : s.dev.lifecycle ≠ 3) (hlong : 306 ≤ r.maxLen) :
    let e := s.dev.countWrap O.REPORT_COUNTER 64 1
    leaves (.attestReport m r) s (answered e m 0 (reportBody e m ++ fitBytes 114 (Config.sign (reportBody e m)))) := by
  refine leaves_attestReport hr hecc (by omega) ?_ hr.1.2
  rw [attestRead, if_neg (by simpa using hlife), if_neg (Nat.not_lt.mpr hlong)]

end

section
variable {s : State} {m : Master} {l : List Byte} {e : Dev} {code : Nat} (hr : reachable s m)
include hr

/-- A write of SESSION_RESPONSE or ATTEST_NONCE by a master in its turn, by its effect. -/
theorem leaves_sessionResponse (h : sessionResponse m l (disarmed s m) = (e, code)) (hd : e.undoc = false) :
    leaves (.sessionResponse m l) s (answered e m code []) :=
  leaves_of_hostTurn rfl hr ((plainWrite_of_reachable hr _).trans h) hd

theorem leaves_attestNonce (h : attestNonceWrite m l (disarmed s m) = (e, code)) (hd : e.undoc = false) :
    leaves (.attestNonce m l) s (answered e m code []) :=
  leaves_of_hostTurn rfl hr ((plainWrite_of_reachable hr _).trans h) hd

end

/-- Settles O59: the timers by what they end, each access by the master that makes it and the check that it meets. -/
theorem debugSessionsAttestation : Obligations.DebugSessionsAttestation := by
  unfold Obligations.DebugSessionsAttestation
  intro s m d
  refine ⟨fun h => leaves_of_done rfl (lifetimeEnd_none d h), fun h => ?lifetime, leaves_of_done rfl rfl, leaves_of_done rfl rfl,
    gives_of_done rfl (endSession_privilege d 6), fun h => leaves_of_done rfl (responseChecked_none d h),
    fun r h => gives_of_done rfl (responseChecked_decides d h rfl), fun hr => ?host⟩
  case lifetime =>
    exact ⟨_, leaves_of_done rfl (lifetimeEnd_closes d h), setDebug_debug d (by decide) true, setDebug_forced d⟩
  case host =>
    have hdoc := disarmed_undoc hr
    have hclosed : ((disarmed s m).setDebug 0 false).undoc = false := by simpa using hdoc
    refine ⟨⟨_, leaves_of_hostNum rfl hr rfl hclosed, setDebug_debug _ (by decide) false⟩, leaves_of_hostNum rfl hr rfl hdoc,
      fun hm v r => ⟨leaves_of_hostNum rfl hr (canOnly_other _ hm _) hdoc, leaves_sessionResponse hr (canOnly_other _ hm _) hdoc,
        leaves_of_hostNum rfl hr (canOnly_other _ hm _) hdoc⟩,
      fun hm => ?can, fun l => ⟨fun h => leaves_attestNonce hr (attestNonceWrite_taken _ m h) (by simpa using hdoc),
        fun h => leaves_attestNonce hr (attestNonceWrite_length _ m h) hdoc⟩,
      fun r hecc => ⟨leaves_attestReport_retired hr hecc, leaves_attestReport_short hr hecc, leaves_attestReport_built hr hecc⟩⟩
    case can =>
      subst hm
      have hended : ((disarmed s .can).endSession 6).undoc = false := by simpa using hdoc
      have hfailed : (disarmed s .can).sessionFailed.undoc = false := by simpa using hdoc
      exact ⟨fun h => leaves_of_hostNum rfl hr (challengeNew_refused _ h) hdoc,
        fun hpolicy hlock => leaves_of_hostNum rfl hr (challengeNew_fires _ hpolicy hlock) hdoc,
        fun r => ⟨fun h => leaves_sessionResponse hr (sessionResponse_taken _ h) hdoc,
          fun h => leaves_sessionResponse hr (sessionResponse_length _ h) hfailed⟩,
        ⟨_, leaves_of_hostNum rfl hr rfl hended, endSession_privilege _ 6⟩⟩

end Sys2Proof.Proofs
end

section
/-!
PROOFS. Events, windows and the controls of fault collection (R386 to R400).
-/
namespace Sys2Proof.Proofs
open Sys2Proof Sys2Proof.Machine

/-! ## A window that stands alone (R392, R395) -/

/-- The only open window is of an entry and a source, and is not acknowledged. -/
def LoneWindow (seq source : Nat) (l : List Window) : Prop := ∃ w, l = [w] ∧ w.seq = seq ∧ w.source = source ∧ w.acked = false

section
variable {seq source : Nat} {d : Dev}

theorem window_of_lone {w : Window} (h : d.coma.windows = [w]) : d.window w.seq = some w := by
  simp [Dev.window, h]

theorem putWindow_windows {w x : Window} (h : d.coma.windows = [w]) (hseq : x.seq = w.seq) : (d.putWindow x).coma.windows = [x] := by
  simp [Dev.putWindow, h, hseq]

theorem closeWindows_lone (h : LoneWindow seq source d.coma.windows) : LoneWindow seq source d.closeWindows.coma.windows := by
  obtain ⟨w, hw, hshown⟩ := h
  exact ⟨w, by simp [Dev.closeWindows, hw, hshown.2.2], hshown⟩

theorem sendCan_coma (d : Dev) (cob : Nat) (data : List Byte) : (d.sendCan cob data).coma = d.coma := by
  unfold Dev.sendCan
  dsimp only
  split_ifs <;> rfl

theorem pmBreak_coma (d : Dev) : d.pmBreak.coma = d.coma := by
  unfold Dev.pmBreak
  split <;> rfl

theorem setPairState_coma (d : Dev) (n : Nat) : (d.setPairState n).coma = d.coma := by
  unfold Dev.setPairState
  dsimp only
  split <;> rfl

theorem releaseClaim_coma (d : Dev) (cause : Nat) (own : Bool) : (d.releaseClaim cause own).coma = d.coma := by
  have hown : ∀ (x : Dev) (c : Bool), (x.when c (fun y => y.putFlag O.PAIR_STATUS 16 true)).coma = x.coma :=
    fun x c => when_keeps (φ := Dev.coma) (f := fun y => y.putFlag O.PAIR_STATUS 16 true) (fun y => putFlag_coma y _ _ _) x c
  rw [Dev.releaseClaim, hown, wr_coma, setPairState_coma,
    recordMode_keeps (φ := Dev.coma) _ (fun _ _ _ => rfl) (fun _ _ => rfl) (fun _ _ => rfl) pmBreak_coma (fun _ _ => rfl) (fun _ _ => rfl),
    cancelEarly_keeps (φ := Dev.coma) _ (fun _ _ _ => rfl) (fun _ _ => rfl) (fun _ _ => rfl) (fun _ _ => rfl), Dev.sendMate, onOut_coma,
    Dev.stopClaim, putFlag_coma, putFlag_coma, putFlag_coma]

/-- A window whose EMCY message is lost counts it as sent (R398). -/
def emcyLost (q : Option Nat) (w : Window) : Window := if some w.seq == q then { w with emcy := false } else w

theorem emcyLost_none : emcyLost none = id := by
  funext w
  simp [emcyLost]

/-- A message of Coma leaves, waits, or waits in place of another, which is lost (R398). -/
theorem sendEmcy_coma (d : Dev) (data : List Byte) (seq : Option Nat) :
    ∃ q, (d.sendEmcy data seq).1.coma = { d.coma with windows := d.coma.windows.map (emcyLost q) } := by
  have hsame : ({ d.coma with windows := d.coma.windows.map (emcyLost none) } : Coma) = d.coma := by rw [emcyLost_none, List.map_id]
  have hreplaced : (d.when d.can.emcyWait.isSome (fun x => x.count O.EMCY_REPLACED 1)).coma = d.coma :=
    when_keeps (φ := Dev.coma) (f := fun x => x.count O.EMCY_REPLACED 1) (fun x => count_keeps x (fun _ _ _ => rfl) _ _) d _
  unfold Dev.sendEmcy
  split
  · exact ⟨none, hsame.symm⟩
  · split
    · dsimp only
      rw [onCan_coma, onComa_coma, hreplaced]
      exact ⟨_, rfl⟩
    · refine ⟨none, ?_⟩
      rw [hsame]
      dsimp only
      split
      · exact sendCan_coma _ _ _
      · exact (onCan_coma _ _).trans (sendCan_coma _ _ _)

theorem sendEmcy_lone (h : LoneWindow seq source d.coma.windows) (data : List Byte) (q : Option Nat) :
    LoneWindow seq source (d.sendEmcy data q).1.coma.windows := by
  obtain ⟨w, hw, hseq, hsource, hacked⟩ := h
  obtain ⟨lost, hcoma⟩ := sendEmcy_coma d data q
  refine ⟨emcyLost lost w, by rw [hcoma, hw]; rfl, ?_⟩
  unfold emcyLost
  split
  · exact ⟨hseq, hsource, hacked⟩
  · exact ⟨hseq, hsource, hacked⟩

theorem putWindow_lone {w x : Window} (h : LoneWindow seq source d.coma.windows) (hw : d.window seq = some w)
    (hx : x.seq = w.seq ∧ x.source = w.source ∧ x.acked = w.acked) : LoneWindow seq source (d.putWindow x).coma.windows := by
  obtain ⟨y, hy, hseq, hsource, hacked⟩ := h
  obtain ⟨hxseq, hxsource, hxacked⟩ := hx
  have hyw : w = y := Option.some.inj (hw.symm.trans (hseq ▸ window_of_lone hy))
  subst hyw
  exact ⟨x, putWindow_windows hy hxseq, hxseq.trans hseq, hxsource.trans hsource, hxacked.trans hacked⟩

/-- The reactions that a window wants and has not run. -/
def due (w : Window) : Nat := w.want &&& (15 ^^^ w.ran)

/-- HOLD is set where it is due, and the window shows the last two steps as run (R395). -/
def stepsRun (d : Dev) (w : Window) : Dev :=
  (d.when (due w &&& rxHold != 0) (fun x => x.putFlag O.FAULT_N_CTRL 0 true)).putWindow
    { w with ran := w.ran ||| (due w &&& (rxEmcy ||| rxHold)), emcy := w.emcy || due w &&& rxEmcy != 0 }

/-- The step of the EMCY message has ended, where nothing waits (R398). -/
def emcyEnded (d : Dev) (ended : Bool) (seq : Nat) : Dev :=
  if ended then match d.window seq with
    | some w => d.putWindow { w with emcy := false }
    | none => d
  else d

theorem reactEnd_of_window {w : Window} (hw : d.window seq = some w) (hpulse : w.pulse = false) : d.reactEnd seq =
    if due w &&& rxEmcy == 0 then stepsRun d w
    else (emcyEnded ((stepsRun d w).sendEmcy (emcyBytes (stepsRun d w) w) (some seq)).1
      ((stepsRun d w).sendEmcy (emcyBytes (stepsRun d w) w) (some seq)).2 seq).closeWindows := by
  simp only [Dev.reactEnd, hw]
  exact if_neg (by simp [hpulse])

theorem reactEnd_rests (h : ∀ w, d.window seq = some w → w.pulse = true) : d.reactEnd seq = d := by
  unfold Dev.reactEnd
  split
  · rfl
  · next w hw => exact if_pos (h w hw)

theorem stepsRun_lone {w : Window} (h : LoneWindow seq source d.coma.windows) (hw : d.window seq = some w) :
    LoneWindow seq source (stepsRun d w).coma.windows := by
  have hheld : ∀ c : Bool, (d.when c (fun x => x.putFlag O.FAULT_N_CTRL 0 true)).coma = d.coma :=
    fun c => when_keeps (φ := Dev.coma) (f := fun x => x.putFlag O.FAULT_N_CTRL 0 true) (fun x => putFlag_coma x _ _ _) d c
  refine putWindow_lone (w := w) ?_ ?_ ⟨rfl, rfl, rfl⟩
  · rw [hheld]
    exact h
  · rw [Dev.window, hheld]
    exact hw

theorem emcyEnded_lone (h : LoneWindow seq source d.coma.windows) (ended : Bool) :
    LoneWindow seq source (emcyEnded d ended seq).coma.windows := by
  unfold emcyEnded
  split
  · split
    · next hw => exact putWindow_lone h hw ⟨rfl, rfl, rfl⟩
    · exact h
  · exact h

theorem reactEnd_lone (h : LoneWindow seq source d.coma.windows) : LoneWindow seq source (d.reactEnd seq).coma.windows := by
  obtain ⟨w, hw, hseq, -⟩ := id h
  have hfound : d.window seq = some w := hseq ▸ window_of_lone hw
  cases hpulse : w.pulse
  case true =>
    rw [reactEnd_rests fun x hx => Option.some.inj (hfound.symm.trans hx) ▸ hpulse]
    exact h
  case false =>
    have hrun := stepsRun_lone h hfound
    rw [reactEnd_of_window hfound hpulse]
    split
    · exact hrun
    · exact closeWindows_lone (emcyEnded_lone (sendEmcy_lone hrun _ _) _)

/-- The steps that a sequence starts with: the release and the pulse (R395). -/
def stepsBegun (d : Dev) (w : Window) : Dev :=
  d.putWindow { w with ran := w.ran ||| (due w &&& (rxRelease ||| rxPulse)), pulse := w.pulse || due w &&& rxPulse != 0 }

theorem react_of_window {w : Window} (hw : d.window seq = some w) : ∃ c : Bool,
    d.react seq = ((stepsBegun d w).when c (fun x => x.releaseClaim 4 false)).reactEnd seq := by
  simp only [Dev.react, hw]
  exact ⟨_, rfl⟩

theorem react_lone (h : LoneWindow seq source d.coma.windows) : LoneWindow seq source (d.react seq).coma.windows := by
  obtain ⟨w, hw, hseq, -⟩ := id h
  have hfound : d.window seq = some w := hseq ▸ window_of_lone hw
  have hbegun : LoneWindow seq source (stepsBegun d w).coma.windows := putWindow_lone h hfound ⟨rfl, rfl, rfl⟩
  obtain ⟨c, hreact⟩ := react_of_window hfound
  have hreleased : ((stepsBegun d w).when c (fun x => x.releaseClaim 4 false)).coma = (stepsBegun d w).coma :=
    when_keeps (φ := Dev.coma) (f := fun x => x.releaseClaim 4 false) (fun x => releaseClaim_coma x _ _) _ c
  rw [hreact]
  refine reactEnd_lone ?_
  rw [hreleased]
  exact hbegun

end

/-! ## A raise while no window is open (R389, R390) -/

section
variable {d : Dev} {e : EventOp}

theorem eventIn_nowhere (h : sourceExists e.source.toNat = false) : eventIn d e = d := if_pos (by simp [h])

/-- The event of a command that is not forced and comes from a block. -/
def plainEvent (e : EventOp) : Ev :=
  { cls := e.source.toNat / 256, inst := e.source.toNat % 256, level := e.level.toNat, addr := e.addr.toNat, detail := e.detail.toNat }

theorem plainEvent_source (e : EventOp) : (plainEvent e).source = e.source.toNat := by
  have hsplit := Nat.div_add_mod e.source.toNat 256
  simp only [plainEvent, Ev.source]
  omega

theorem eventIn_plain (hsource : sourceExists e.source.toNat = true) (hcls : e.source.toNat / 256 ≠ 1) (hclear : e.clear = false)
    (hforced : e.forced = false) (hinjected : e.injected = false) : eventIn d e = d.raise (plainEvent e) := by
  simp [eventIn, hsource, hcls, hclear, hforced, hinjected, Dev.when, plainEvent]

/-- The device whose count of a source is another. -/
def counted (d : Dev) (source : Nat) (x : Nat × Nat) : Dev := d.onComa (fun c => { c with counts := smPut (0, 0) c.counts source x })

theorem countStep_first (n w now : Nat) : countStep n w now 0 0 = if n = 1 then ((now, 0), true) else ((now, 1), false) := by
  by_cases h : n = 1
  · simp [countStep, h]
  · simp [countStep, h, Ne.symm h]

section
variable (hcls : e.source.toNat / 256 ≠ 1) (hcollect : d.collecting = true) (hwindows : d.coma.windows = [])
  (hcount : smLook (0, 0) d.coma.counts e.source.toNat = (0, 0))
include hcls hcollect hwindows hcount

/-- The first raise of a counting window, where the class wants more than one: it is counted and written (R388, R390). -/
theorem raise_first (hn : d.severeN (e.source.toNat / 256) ≠ 1) :
    d.raise (plainEvent e) = (counted d e.source.toNat (d.time, 1)).writeEntry (plainEvent e) false false := by
  have hn' : d.severeN (plainEvent e).cls ≠ 1 := hn
  have hmemory : ((plainEvent e).cls == clsMemory) = false := by simpa [plainEvent] using hcls
  unfold Dev.raise
  rw [plainEvent_source, hcount, if_neg (by simp [hcollect])]
  dsimp only
  rw [countStep_first, if_neg hn', hmemory]
  simp [Dev.when, Dev.counted, plainEvent, hwindows, counted]

/-- The window of a severe entry. -/
def openedWindow (d : Dev) (e : EventOp) : Window :=
  { seq := d.coma.next, source := e.source.toNat, injected := false
    want := d.rd (keyAt O.REACTION (e.source.toNat / 256)) &&& 15, ran := 0 }

/-- The severe entry of an event is written, and its window opened. -/
def severeWritten (d : Dev) (e : EventOp) : Dev :=
  (((counted d e.source.toNat (d.time, 0)).writeEntry (plainEvent e) true false).onComa (fun c => { c with
    unacked := c.unacked ++ [(d.coma.next, e.source.toNat / 256)] })).onComa (fun c => { c with windows := c.windows ++ [openedWindow d e] })

/-- The first raise of a class whose count is 1 is severe: it opens a window, and its reactions start (R390, R392, R395). -/
theorem raise_severe (hn : d.severeN (e.source.toNat / 256) = 1) : d.raise (plainEvent e) = (severeWritten d e).react d.coma.next := by
  have hn' : d.severeN (plainEvent e).cls = 1 := hn
  have hmemory : ((plainEvent e).cls == clsMemory) = false := by simpa [plainEvent] using hcls
  unfold Dev.raise
  rw [plainEvent_source, hcount, if_neg (by simp [hcollect])]
  dsimp only
  rw [countStep_first, if_pos hn', hmemory]
  simp [Dev.when, Dev.counted, plainEvent, hwindows, counted, severeWritten, openedWindow]

end

theorem writeEntry_windows (d : Dev) (x : Ev) (severe forced : Bool) : (d.writeEntry x severe forced).coma.windows = d.coma.windows := by
  unfold Dev.writeEntry
  exact when_keeps (φ := fun y => y.coma.windows) (f := fun y => y.count O.LOST_UNREAD 1)
    (fun y => count_keeps (φ := fun z => z.coma.windows) y (fun _ _ _ => rfl) _ _) _ _

theorem severeWritten_lone (hwindows : d.coma.windows = []) :
    LoneWindow d.coma.next e.source.toNat (severeWritten d e).coma.windows := by
  refine ⟨openedWindow d e, ?_, rfl, rfl, rfl⟩
  have hkept : ((counted d e.source.toNat (d.time, 0)).writeEntry (plainEvent e) true false).coma.windows = [] :=
    (writeEntry_windows _ _ _ _).trans hwindows
  rw [severeWritten, onComa_coma, onComa_coma, hkept]
  rfl

end

/-! ## The end of a pulse (R395) -/

section
variable {d : Dev}

theorem endPulse_none {i : Bool} (h : d.coma.windows.any (fun w => w.injected == i && w.pulse) = false) : d.endPulse i = d := by
  have hnone : d.coma.windows.find? (fun w => w.injected == i && w.pulse) = none := by
    rw [List.find?_eq_none]
    intro w hw
    exact Bool.not_eq_true _ ▸ List.any_eq_false.mp h w hw
  simp only [Dev.endPulse, hnone]

theorem stepsRun_nothing {w : Window} (h : due w = 0) : stepsRun d w = d.putWindow w := by
  simp [stepsRun, h, Dev.when]

/-- A window whose pulse has ended. -/
def pulseEnded (w : Window) : Window := { w with pulse := false }

/-- A pulse ends with nothing left to run: its window stays open for the acknowledgement. -/
theorem endPulse_ends {w : Window} (hw : d.coma.windows = [w]) (hpulse : w.pulse = true) (hdue : due w = 0) (hacked : w.acked = false) :
    (d.endPulse w.injected).coma.windows = [pulseEnded w] ∧ (d.endPulse w.injected).regs = d.regs := by
  have hfound : d.coma.windows.find? (fun x => x.injected == w.injected && x.pulse) = some w := by simp [hw, hpulse]
  have hended := putWindow_windows hw (x := pulseEnded w) rfl
  have hdue' : due (pulseEnded w) = 0 := hdue
  have hrun : (d.putWindow (pulseEnded w)).reactEnd w.seq = (d.putWindow (pulseEnded w)).putWindow (pulseEnded w) := by
    rw [reactEnd_of_window (seq := w.seq) (w := pulseEnded w) (window_of_lone hended) rfl, hdue', stepsRun_nothing hdue']
    rfl
  have hend : d.endPulse w.injected = ((d.putWindow (pulseEnded w)).putWindow (pulseEnded w)).closeWindows := by
    simp only [Dev.endPulse, hfound]
    exact congrArg Dev.closeWindows hrun
  have hput := putWindow_windows hended (x := pulseEnded w) rfl
  have hacked' : (pulseEnded w).acked = false := hacked
  rw [hend]
  exact ⟨by simp [Dev.closeWindows, hput, hacked'], rfl⟩

/-- FAULT_N follows HOLD once no pulse runs (R396). -/
theorem faultNLow_of_pulseEnded {e : Dev} {w : Window} (hopen : e.coma.windows = [pulseEnded w]) (hregs : e.regs = d.regs) :
    e.faultNLow = (d.flag O.FAULT_N_CTRL 0 && !d.inert) := by
  have hrd := rd_of_regs hregs
  have hinert : e.inert = d.inert := by simp only [Dev.inert, Dev.inService, Dev.inBisque, Dev.clamped, Dev.modeCode, Dev.fld, Dev.flag, hrd]
  rw [Dev.faultNLow, hopen, hinert, flag_of_rd (hrd _)]
  rfl

/-! ## ACK_SEQ (R392, R397) -/

theorem closeWindows_open (d : Dev) {w : Window} (hw : w ∈ d.closeWindows.coma.windows) (hbusy : w.busy = false) : w.acked = false := by
  have hkept : (w.busy || !w.acked) = true := (List.mem_filter.mp hw).2
  simpa [hbusy] using hkept

/-- What an acknowledgement up to a number covers is acknowledged. -/
def ackTaken (d : Dev) (n : Nat) : Dev :=
  d.onComa (fun c => { c with
    entries := c.entries.map (fun e => if e.severe && ackCovers n e.seq then { e with acked := true } else e)
    windows := c.windows.map (fun w => if ackCovers n w.seq then { w with acked := true } else w)
    unacked := c.unacked.filter (fun u => !ackCovers n u.1) })

theorem acknowledge_ends (d : Dev) (n : Nat) : d.acknowledge n = (ackTaken d n).closeWindows
    ∨ d.acknowledge n = ((ackTaken d n).closeWindows.sendEmcy (List.replicate 8 0) none).1.closeWindows := by
  unfold Dev.acknowledge
  dsimp only
  split
  · exact .inr rfl
  · exact .inl rfl

theorem acknowledge_covers (d : Dev) (n : Nat) : (∀ u ∈ (d.acknowledge n).coma.unacked, ackCovers n u.1 = false)
    ∧ ∀ w ∈ (d.acknowledge n).coma.windows, w.busy = false → w.acked = false := by
  have htaken : ∀ u ∈ (ackTaken d n).coma.unacked, ackCovers n u.1 = false := fun u hu => by
    simpa using (List.mem_filter.mp hu).2
  rcases acknowledge_ends d n with h | h
  · rw [h]
    exact ⟨htaken, fun w => closeWindows_open _⟩
  · obtain ⟨q, hcoma⟩ := sendEmcy_coma (ackTaken d n).closeWindows (List.replicate 8 0) none
    have hsent : ((ackTaken d n).closeWindows.sendEmcy (List.replicate 8 0) none).1.coma.unacked = (ackTaken d n).coma.unacked := by
      rw [hcoma]
      rfl
    have hkept : (d.acknowledge n).coma.unacked = (ackTaken d n).coma.unacked := (congrArg (fun x => x.coma.unacked) h).trans hsent
    refine ⟨hkept ▸ htaken, ?_⟩
    rw [h]
    exact fun w => closeWindows_open _

end

/-! ## HISTORY (R389, R471) -/

/-- The row of HISTORY (Table FC-9). -/
def historyRow : ObjDef := { base := 0x2330, sub := 1, ty := .dom 0 1024, acc := .ro }

theorem history_open : OpenDomain 0x2330 1 historyRow where
  listed := by decide +kernel
  found := by decide +kernel
  domain := ⟨_, _, rfl⟩
  readers := rfl
  open_ := rfl
  fixed := rfl
  ungated := rfl
  global := rfl
  alone _ := rfl

theorem domValue_history (d : Dev) (m : Master) (n : Nat) :
    domValue d m 0x2330 1 n = (d, { data := (historyValue d n).1, fin := .history (historyValue d n).2 }) := by
  have hbase : baseOf 0x2330 = 0x2330 := by decide
  simp [domValue, hbase]

theorem leaves_history {s : State} {m : Master} {r : DomRead} (hr : reachable s m) (hecc : r.ecc = .clean) (hlen : r.maxLen ≠ 0) :
    leaves (.history m r) s (answered (if r.complete then s.dev.markRead (historyValue s.dev r.maxLen).2 else s.dev) m 0
      (historyValue s.dev r.maxLen).1) := by
  have hread := (readObj_openDomain history_open (m := m) hr.1.1 hlen).trans (domValue_history s.dev m r.maxLen)
  have hdoc : (if r.complete then s.dev.markRead (historyValue s.dev r.maxLen).2 else s.dev).undoc = false := by
    split
    · exact hr.1.2
    · exact hr.1.2
  exact leaves_of_domRead history_open (x := { data := (historyValue s.dev r.maxLen).1, fin := .history (historyValue s.dev r.maxLen).2 })
    rfl hr rfl rfl hecc hread rfl hdoc

/-! ## Injection, FAULT_N_CTRL and the settings of a class (R390, R395, R396, R400) -/

section
variable {d : Dev}

theorem injectFire_elsewhere (h : d.inBisque = false) : injectFire d = (d, 0x08000022) := if_pos (by simp [h])

theorem injectFire_fires (hbisque : d.inBisque = true) (hsource : sourceExists (d.rd O.INJECT_SOURCE % 65536) = true) :
    injectFire d = (d.raise { cls := d.rd O.INJECT_SOURCE / 256 % 256, inst := d.rd O.INJECT_SOURCE % 256
                              level := adLevel (d.rd O.INJECT_ADDRESS), addr := d.rd O.INJECT_ADDRESS, detail := d.rd O.INJECT_DETAIL
                              clear := bit (d.rd O.INJECT_SOURCE) 16, injected := true }, 0) := by
  simp [injectFire, hbisque, hsource]

/-- HOLD and OVER of a value of FAULT_N_CTRL (Table FC-11). -/
theorem faultN_bits (hold over_ : Bool) (v : Nat) : bit (ofBit hold + 8 * ofBit over_ + (v &&& 0xF0)) 0 = hold
    ∧ bit (ofBit hold + 8 * ofBit over_ + (v &&& 0xF0)) 3 = over_ := by
  have hlow : (v &&& 0xF0) % 16 = 0 := by rw [Nat.and_mod_two_pow (n := 4)]; simp
  simp only [bit, Nat.testBit_eq_decide_div_mod_eq]
  cases hold <;> cases over_ <;> simp [ofBit] <;> omega

/-- FAULT_N_CTRL as a write leaves it: hardware that sets HOLD at the same time wins (R44, R45). -/
def faultNValue (d : Dev) (v : Nat) (coincident : Bool) : Nat :=
  ofBit (coincident || bit v 0) + 8 * ofBit (coincident || (d.flag O.FAULT_N_CTRL 3 && !bit v 3)) + (v &&& 0xF0)

theorem faultNWrite_takes {v : Nat} (coincident : Bool) (hrsvd : (d.rd O.FAULT_N_CTRL ^^^ v) &&& 0xF0 = 0) :
    faultNWrite v coincident d = (d.wr O.FAULT_N_CTRL (faultNValue d v coincident), 0) := by
  have hover : (if coincident then true else bit (d.rd O.FAULT_N_CTRL) 3 && !bit v 3) = (coincident || (d.flag O.FAULT_N_CTRL 3 && !bit v 3)) := by
    cases coincident <;> rfl
  have hmark : (d.undoc || (d.rd O.FAULT_N_CTRL ^^^ v) &&& 0xF0 != 0) = d.undoc := by simp [hrsvd]
  unfold faultNWrite
  dsimp only
  rw [hover, hmark]
  rfl

theorem severeNWrite_takes {k v : Nat} (hlo : 1 ≤ v) (hhi : v ≤ 255) : severeNWrite k v d = ((d.wr (keyAt O.SEVERE_N k) v).closeCounts k, 0) :=
  if_neg (by simp; omega)

theorem severeNWrite_range {k v : Nat} (h : v = 0 ∨ 255 < v) : severeNWrite k v d = (d, 0x06090030) := if_pos (by simp; omega)

theorem severeWindowWrite_takes {k v : Nat} (hlo : 1 ≤ v) (hhi : v ≤ 65000) :
    severeWindowWrite k v d = ((d.wr (keyAt O.SEVERE_WINDOW k) v).closeCounts k, 0) :=
  if_neg (by simp; omega)

theorem severeWindowWrite_range {k v : Nat} (h : v = 0 ∨ 65000 < v) : severeWindowWrite k v d = (d, 0x06090030) := if_pos (by simp; omega)

theorem reactionApply_takes {k v : Nat} (hrsvd : (d.rd (keyAt O.REACTION k) ^^^ v) &&& 0xF0 = 0) :
    reactionApply k v d = (d.wr (keyAt O.REACTION k) v, 0) := by
  have hmark : (d.undoc || (d.rd (keyAt O.REACTION k) ^^^ v) &&& 0xF0 != 0) = d.undoc := by simp [hrsvd]
  unfold reactionApply
  dsimp only
  rw [hmark]
  rfl

end

/-- Settles O56: an event by the windows that it meets, each access by the state and the value that it finds. -/
theorem faultCollection : Obligations.FaultCollection := by
  unfold Obligations.FaultCollection
  intro s d
  refine ⟨fun e h => leaves_of_done rfl (eventIn_nowhere h), fun e hsource hcls hclear hforced hinjected hcollect hwindows hcount =>
      ⟨fun hn => ?counted, fun hn => ?severe⟩, fun i h => leaves_of_done rfl (endPulse_none h), fun w hw hpulse hdue hacked => ?pulse,
    fun m hr => ?host, fun m k v ha hrsvd => ?reaction⟩
  case counted =>
    exact leaves_of_done rfl ((eventIn_plain hsource hcls hclear hforced hinjected).trans (raise_first hcls hcollect hwindows hcount hn))
  case severe =>
    have hraise := (eventIn_plain hsource hcls hclear hforced hinjected).trans (raise_severe hcls hcollect hwindows hcount hn)
    obtain ⟨w, hw, hseq, hfrom, -⟩ := react_lone (severeWritten_lone (e := e) hwindows)
    exact ⟨_, leaves_of_done rfl hraise, w, by rw [hw]; exact List.mem_singleton.mpr rfl, hseq, hfrom⟩
  case pulse =>
    obtain ⟨hopen, hregs⟩ := endPulse_ends hw hpulse hdue hacked
    exact ⟨_, leaves_of_done rfl rfl, hopen, faultNLow_of_pulseEnded hopen hregs⟩
  case host =>
    have hdoc := disarmed_undoc hr
    refine ⟨fun v => ⟨_, leaves_of_hostNum rfl hr rfl (by simpa using hdoc), acknowledge_covers _ _⟩,
      fun r hlen hecc => leaves_history hr hecc hlen, fun h => leaves_of_hostNum rfl hr (injectFire_elsewhere h) hdoc,
      fun hbisque hsource => leaves_of_hostNum rfl hr (injectFire_fires hbisque hsource) (by simpa using hdoc),
      fun v h hrsvd => ⟨_, leaves_of_hostNum rfl hr (faultNWrite_takes h hrsvd) hdoc, faultN_bits _ _ _⟩,
      fun k v => ⟨fun hlo hhi => ?_, fun hlo hhi => ?_, fun h => ?_, fun h => ?_⟩⟩
    · exact leaves_of_hostNum rfl hr (severeNWrite_takes hlo hhi) hdoc
    · exact leaves_of_hostNum rfl hr (severeWindowWrite_takes hlo hhi) hdoc
    · exact leaves_of_hostNum rfl hr (severeNWrite_range h) hdoc
    · exact leaves_of_hostNum rfl hr (severeWindowWrite_range h) hdoc
  case reaction => exact leaves_of_hostGuard rfl ha v.isLt (reactionApply_takes hrsvd) (taken_undoc ha)

end Sys2Proof.Proofs
end
